-- ==== Sys2Proof/Word.lean ====
section
/-!
DEFINITION. The word types of the manual and the sorted tables that hold sparse state.
-/
namespace Sys2Proof

abbrev Byte := BitVec 8
abbrev Half := BitVec 16
/-- A 32-bit register element. -/
abbrev Word := BitVec 32
abbrev DWord := BitVec 64
/-- One bit per lane of a group, bit k is lane k (07 R188). -/
abbrev LaneMask := BitVec 32

/-- A table from numbers to values, held as pairs with strictly rising keys. -/
abbrev Tbl (α : Type) := List (Nat × α)

end Sys2Proof
end

