-- ==== Sys2Proof/Config.lean ====
section
/-!
DEFINITION. What the manual leaves to the implementation: free values, constants without a body (log entry 6, DESIGN CHOICE). No proof can see
what they are.
-/
namespace Sys2Proof.Config

/-- A leaf of the firmware quire, whose contents the manual does not print (02 R74): class code and index to leaf bits. -/
opaque firmwareLeaf : Nat → Nat → Nat

/-- A word of a measurement answer that depends on content the manual does not give (26 R467): hashes and signatures. The
argument counts the words drawn. -/
opaque measurementWord : Nat → BitVec 64

/-- A word of the hash of a locked configuration (26 R467): the manual does not give the order and the form in which its fields are
hashed. -/
opaque configHash : List (BitVec 64) → Nat → BitVec 64

/-- A byte of a save frame that is off the free list, whose layout belongs to the implementation (20 R402). The argument counts
the draws. -/
opaque frameByte : Nat → Byte

/-- A system value that has no meaning for its reader (05 R151, 21 R417): the group values in the firmware context, and the
selected group's values when GSEL selects none. The argument counts the draws. -/
opaque sysWord : Nat → BitVec 64

/-- A payload byte of a key marker flit, which the manual does not give (27 R472): the draw and the byte's place. -/
opaque markerByte : Nat → Nat → Byte

/-- Which of the steps that may come next does come, where the manual gives no order; also the admission count of a slew
window (09 R234). The argument counts the scheduler's steps. -/
opaque turn : Nat → Nat

/-- A free value: the budget that the power manager grants a core (09 R233). -/
opaque coreBudget : Nat → Nat

end Sys2Proof.Config
end

