-- ==== Sys2Proof/Syntax.lean ====
section
/-!
DEFINITION. The abstract syntax: the decoded fields of the leaves of each slot class (02 R34 to R47), the operands of
the command packets (25 R448) and of the steps that no slot issues, and the one inductive Instr, a constructor per row
of the opcode table.
-/
namespace Sys2Proof

/-- A predicate selector (02 R39; the guard's selector of chapter 01 has the same codes, with 31 for always). -/
inductive PredRef where
  | p (n : BitVec 4)
  | q (n : BitVec 3)
  | none
  deriving DecidableEq, Repr

/-- A leaf's guard: polarity 1 executes where the predicate is 0 (01, Guards; 02 R33). -/
structure Guard where
  neg : Bool
  sel : PredRef
  deriving DecidableEq, Repr

/-- A 10-bit operand selector (02 R35); `const c` is selector 0x180 + c. -/
inductive Operand where
  | v (n : BitVec 8)
  | s (n : BitVec 6)
  | k0
  | k1
  | zero
  | lane
  | const (c : BitVec 7)
  deriving DecidableEq, Repr

/-- A 10-bit destination (02 R37). -/
inductive Dst where
  | v (n : BitVec 8)
  | s (n : BitVec 6)
  | null
  deriving DecidableEq, Repr

/-- The destination of a C leaf (02 R42). -/
inductive CDst where
  | none
  | s (n : BitVec 6)
  | x (n : BitVec 4)
  deriving DecidableEq, Repr

/-- A bus drive field: enable and bus number (02 R34, R44, R46). -/
structure Drive where
  en : Bool
  bus : BitVec 3
  deriving DecidableEq, Repr

/-- The operand types (02 R40); code 15 is reserved. -/
inductive VType where
  | i32 | n32 | f32 | bf16x2 | i16x2 | n16x2 | i8x4 | n8x4
  | i64 | n64 | e4m3 | e5m2 | e2m1 | lg6 | b128
  deriving DecidableEq, Repr

/-- The rounding of FP32 arithmetic (02 R34). -/
inductive Rm where
  | near | zero | down | up
  deriving DecidableEq, Repr

/-- The vector slots. -/
inductive VSlot where
  | v0 | v1
  deriving DecidableEq, Repr

/-- The access size of an M leaf (02 R45). -/
inductive MSize where
  | n8 | n16 | b32 | b64 | b128 | i8 | i16 | i32 | i64 | f32
  deriving DecidableEq, Repr

/-- The scope of an M leaf (02 R45). -/
inductive Scope where
  | grp | team | core | die | dev | sys
  deriving DecidableEq, Repr

/-- The order of an M leaf (02 R45). -/
inductive MOrder where
  | relaxed | acquire | release | acqRel
  deriving DecidableEq, Repr

/-- The cache policy of an M leaf (02 R45). -/
inductive CPol where
  | normal | streaming | bypass
  deriving DecidableEq, Repr

/-- The fields of a C leaf but FUNC (02 R41). -/
structure COp where
  guard : Guard
  d : CDst
  pd : PredRef
  pa : PredRef
  pb : PredRef
  sa : Operand
  imm : BitVec 15
  deriving DecidableEq, Repr

/-- The fields of a V leaf but FUNC, and the slot it stands in (02 R34). -/
structure VOp where
  slot : VSlot
  guard : Guard
  type : VType
  rm : Rm
  dst : Dst
  sa : Operand
  sb : Operand
  sc : Operand
  drv1 : Drive
  drv2 : Drive
  pd : PredRef
  pc2 : PredRef
  imm8 : BitVec 8
  look : BitVec 4
  sat : Bool
  sub : BitVec 3
  deriving DecidableEq, Repr

/-- The fields of an M leaf but FUNC (02 R44); `cls` is the field ALIAS. -/
structure MOp where
  guard : Guard
  size : MSize
  cls : BitVec 2
  scope : Scope
  order : MOrder
  cpol : CPol
  dst : Dst
  aa : Operand
  ab : Operand
  da : Operand
  db : Operand
  buf : BitVec 5
  drv : Drive
  ofs : BitVec 8
  deriving DecidableEq, Repr

/-- The fields of an E leaf but FUNC (02 R46). -/
structure EOp where
  guard : Guard
  acc : BitVec 4
  ka : BitVec 4
  kb : BitVec 4
  xb : BitVec 4
  src : Operand
  dst : Dst
  drv : Drive
  cmd : BitVec 8
  deriving DecidableEq, Repr

/-- Who issues a bundle: a group, or the firmware context of a core's sequencer, whose bundle of the firmware quire
(02 R74) is given as its halfwords, since the manual does not print that quire. -/
inductive Issuer where
  | group (id : Nat)
  | firmware (core quad : Nat) (halves : List Half)
  deriving DecidableEq, Repr

/-- A command stream of a partition: contexts 0 to 3, control stream 4 (25 R445). -/
structure Stream where
  part : Nat
  idx : Nat
  deriving DecidableEq, Repr

/-- The payload of LAUNCH (25 R448). -/
structure LaunchPacket where
  spine : DWord
  completion : DWord
  rgrid : Bool
  declared : Word
  args : List Word
  deriving DecidableEq, Repr

/-- The test of PRED and WAIT on x = word AND mask (25 R448). -/
inductive TestOp where
  | eq | ne | below | notBelow
  deriving DecidableEq, Repr

structure MemTest where
  addr : DWord
  mask : Word
  value : Word
  op : TestOp
  deriving DecidableEq, Repr

/-- A decode-table class (02 R32). -/
inductive SlotClass where
  | c | v0 | v1 | m | e
  deriving DecidableEq, Repr

/-- Where an uncorrectable error is found (22 R425, R424; 16 R327). -/
inductive ErrPlace where
  | l1Line (core : Nat) (line : Nat)
  | decodeEntry (core bank quad : Nat) (cls : SlotClass) (index : Nat)
  | stbEntry (core : Nat) (team page : Nat)
  | groupState (group : Nat)
  | scratchWord (team addr : Nat)
  | line (pa : Nat)
  /-- a line of the L2 staging area, by its byte key over 64, and one of a backing slot (11 R257, 12 R264) -/
  | stagingLine (line : Nat)
  | slotLine (slot line : Nat)
  /-- symbol errors (symbol, difference) that a stored HBM line takes; the next read corrects or reports them (11 R261) -/
  | symbols (pa : Nat) (errs : List (Nat × Byte))
  | residue (core : Nat) (persists : Bool)
  | signature (group : Nat)
  deriving DecidableEq, Repr

/-- A register of the hub that has no row of its own (R6): the L2 split of a die (11 R256), the injector seed
(22 R430), a 32-bit word of the MSI-X table (26 R463), the export-table register (27 R476), the partition control register for a
write that names no command (26 R461), and the read-only registers. -/
inductive HubReg where
  | partControl (part : Nat)
  | l2Split (die : Nat)
  | injectorSeed (part : Nat)
  | msix (part entry word : Nat)
  | exportTable (part : Nat)
  | readOnly (part : Nat) (offset : Nat)
  deriving DecidableEq, Repr

/-- What training found at bring-up (24 R444): a bit set in a mask marks a failure. -/
structure Training where
  pcieOk : Bool
  uciFail : BitVec 16
  hbmFail : BitVec 16
  portPartner : List (Option Nat)
  deriving DecidableEq, Repr

/-- One constructor per row of the opcode table. Slot operations carry the fields of their leaf; the other steps
carry what names the agent that takes them and what comes from outside. -/
inductive Instr where
  /-- BUNDLE (R14): A group issues one bundle: it is fetched, decoded, its present slots execute reading start-of-bundle state, and its short-class results commit together. -/
  | bundle (who : Issuer)
  /-- LEAF_INSTALL (R64): The binder installs the fetched, filtered leaves of a miss together, pins them and releases the parked group to reissue. -/
  | leafInstall (group : Nat)
  /-- REPLICA_INSTALL (R72): A die's binder finishes fetching a launch's quire image from the home die and installs it as a replica before serving that launch's misses. -/
  | replicaInstall (launch die : Nat)
  /-- RESULT_DATA_ARRIVAL (R25): Data of a lookahead operation arrive; they are held until the landing point or written at once and the waiting bundle is released. -/
  | resultDataArrival (group op : Nat)
  /-- ISSUE_PICK (R229): Each cycle each quadrant pair picks eligible groups oldest first, subject to register banks and engine ports, and updates its age order. -/
  | issuePick (core : Nat)
  /-- FIRMWARE_CREDIT (R231): Every INTERVAL cycles the firmware context gains one issue credit, up to BURST. -/
  | firmwareCredit (core quad : Nat)
  /-- NOP (R108): Does nothing. -/
  | nop (o : COp)
  /-- BRA (R111): Sets PC to the branch target. -/
  | bra (o : COp)
  /-- BRD (R186): Divergent branch on a lane predicate that splits the slot's lanes between the two slots and the reconvergence stack. -/
  | brd (o : COp)
  /-- BRI (R111): Sets PC to the 64-bit value of an s register pair. -/
  | bri (o : COp)
  /-- JOIN (R190): The slot arrives at a JOIN with a rejoin mask and becomes joining. -/
  | join (o : COp)
  /-- CALL (R111): Writes the return address to an s pair and branches to the target. -/
  | call (o : COp)
  /-- RET (R111): Sets PC to the return address held in an s pair. -/
  | ret (o : COp)
  /-- LOOP (R112): Loads a loop counter and skips the body when the count is 0. -/
  | loop (o : COp)
  /-- LEND (R112): Decrements the loop counter and branches back while it is non-zero. -/
  | lend (o : COp)
  /-- EXIT (R113): Commits as a checkpoint and retires every live lane of the slot, retiring the group and team when none remain. -/
  | exit (o : COp)
  /-- HALT (R114): Takes cause 0x10 and ends the launch with status halted and the halt code logged. -/
  | halt (o : COp)
  /-- YIELD (R115): Makes the group the youngest in its pair's age order. -/
  | yield (o : COp)
  /-- SETFMT (R116): Writes the issuing slot's format register, or takes 0x41 for a reserved value. -/
  | setfmt (o : COp)
  /-- GETFMT (R116): Copies the issuing slot's format register to an s register. -/
  | getfmt (o : COp)
  /-- PERF_SET (R117): Sets the lanes' requested voltage and frequency level and reports lane disagreement in q5. -/
  | perfSet (o : COp)
  /-- TRAP (R118): Raises cause 0x01 with a code. -/
  | trap (o : COp)
  /-- SYS_ROUND_TRIP (R120): System service 0x00: a round trip through firmware that returns 0. -/
  | sysRoundTrip (o : COp)
  /-- SYS_PROGRESS (R120): System service 0x01: writes a value to the launch's progress word. -/
  | sysProgress (o : COp)
  /-- SYS_PAGE_IN (R120): System service 0x02: begins bringing a scratchpad page in and returns its status. -/
  | sysPageIn (o : COp)
  /-- SYS_GROUP_COUNT (R120): System service 0x03: returns the number of the team's unretired groups. -/
  | sysGroupCount (o : COp)
  /-- SYS_ANSWER (R120): Firmware answers a parked SYS request, writing its result so the group may issue again. -/
  | sysAnswer (group : Nat)
  /-- BKPT (R118): Raises cause 0xE0 when a debugger is attached, and otherwise does nothing. -/
  | bkpt (o : COp)
  /-- IRET (R121): Ends a user-level interrupt handler, restores the shadowed registers and resumes the held slots. -/
  | iret (o : COp)
  /-- WAITB (R122): Waits until a barrier object's phase parity differs from the awaited one, then acquires at team scope. -/
  | waitb (o : COp)
  /-- BAR_ARRIVE (R123): Arrives at a named barrier and continues. -/
  | barArrive (o : COp)
  /-- BAR_WAIT (R123): Arrives at a named barrier and waits for its phase to complete. -/
  | barWait (o : COp)
  /-- BAR_TEAM (R124): Arrives at the team barrier and waits. -/
  | barTeam (o : COp)
  /-- BAR_GRID (R124): Arrives at the grid barrier of a resident-grid launch and waits. -/
  | barGrid (o : COp)
  /-- GRID_RELEASE_WINDOW (R234): Each 64-cycle window the hub's slew limiter admits up to A waiting cores after a grid-barrier phase completes. -/
  | gridReleaseWindow (launch quota : Nat)
  /-- QAND (R129): Writes the AND of two q predicates. -/
  | qand (o : COp)
  /-- QOR (R129): Writes the OR of two q predicates. -/
  | qor (o : COp)
  /-- QXOR (R129): Writes the XOR of two q predicates. -/
  | qxor (o : COp)
  /-- QNOT (R129): Writes the complement of a q predicate. -/
  | qnot (o : COp)
  /-- QMOV (R129): Copies a q predicate, or sets it from a uniform value being non-zero. -/
  | qmov (o : COp)
  /-- XMOV (R130): Fills a staging register from an s pair or a sign-extended operand. -/
  | xmov (o : COp)
  /-- XLI (R130): Fills a staging register from the bundle's two literals. -/
  | xli (o : COp)
  /-- MOV (R149): Copies an operand to a destination at the type's width. -/
  | mov (o : VOp)
  /-- IADD (R137): Integer add with carry-out predicate and optional saturation. -/
  | iadd (o : VOp)
  /-- ISUB (R137): Integer subtract with borrow-out predicate and optional saturation. -/
  | isub (o : VOp)
  /-- IADDC (R137): Integer add with a carry-in predicate. -/
  | iaddc (o : VOp)
  /-- ISUBB (R137): Integer subtract with a borrow-in predicate. -/
  | isubb (o : VOp)
  /-- IMUL (R138): Integer multiply, low part wrapped or saturated. -/
  | imul (o : VOp)
  /-- IMULH (R138): High half of the double-width integer product. -/
  | imulh (o : VOp)
  /-- IMAD (R138): Exact integer multiply-add, wrapped or saturated. -/
  | imad (o : VOp)
  /-- IMADW (R138): 32-bit multiply plus 64-bit addend into a 64-bit pair. -/
  | imadw (o : VOp)
  /-- IMIN (R139): Lesser of two integers. -/
  | imin (o : VOp)
  /-- IMAX (R139): Greater of two integers. -/
  | imax (o : VOp)
  /-- IABS (R139): Absolute value, wrapped or saturated. -/
  | iabs (o : VOp)
  /-- INEG (R139): Negation, wrapped or saturated. -/
  | ineg (o : VOp)
  /-- ICMP (R140): Integer compare that writes a condition predicate and its complement. -/
  | icmp (o : VOp)
  /-- SEL (R141): Selects one of two operands by a predicate. -/
  | sel (o : VOp)
  /-- AND (R142): Bitwise AND. -/
  | bitAnd (o : VOp)
  /-- OR (R142): Bitwise OR. -/
  | bitOr (o : VOp)
  /-- XOR (R142): Bitwise XOR. -/
  | bitXor (o : VOp)
  /-- ANDN (R142): Bitwise a AND NOT b. -/
  | andn (o : VOp)
  /-- ORN (R142): Bitwise a OR NOT b. -/
  | orn (o : VOp)
  /-- NOT (R142): Bitwise complement. -/
  | bitNot (o : VOp)
  /-- BMIX (R142): Any three-input bitwise function given by a truth table. -/
  | bmix (o : VOp)
  /-- IDP4 (R148): Four-way byte dot product accumulated into 32 bits. -/
  | idp4 (o : VOp)
  /-- SHL (R143): Logical shift left. -/
  | shl (o : VOp)
  /-- SHR (R143): Logical shift right. -/
  | shr (o : VOp)
  /-- SAR (R143): Arithmetic shift right. -/
  | sar (o : VOp)
  /-- SHF (R144): Funnel shift of a 64-bit pair. -/
  | shf (o : VOp)
  /-- ROT (R143): Rotate left or right. -/
  | rot (o : VOp)
  /-- POPC (R145): Population count. -/
  | popc (o : VOp)
  /-- CLZ (R145): Count of leading zeros. -/
  | clz (o : VOp)
  /-- CTZ (R145): Count of trailing zeros. -/
  | ctz (o : VOp)
  /-- BREV (R145): Bit reversal. -/
  | brev (o : VOp)
  /-- BFX (R146): Bit-field extract, signed or unsigned. -/
  | bfx (o : VOp)
  /-- BFI (R146): Bit-field insert. -/
  | bfi (o : VOp)
  /-- BPERM (R147): Byte permute of two words with sign fill. -/
  | bperm (o : VOp)
  /-- READL (R150): Reads one lane's register and gives it to every active lane. -/
  | readl (o : VOp)
  /-- RDSYS (R151): Reads a system value. -/
  | rdsys (o : VOp)
  /-- WRSYS (R152): Writes a system value in the firmware context, such as the cycle counter or a firmware value. -/
  | wrsys (o : VOp)
  /-- RAND (R153): Draws counter-mixer random bits keyed by member or grid position. -/
  | rand (o : VOp)
  /-- FADD (R159): FP32 add. -/
  | fadd (o : VOp)
  /-- FSUB (R159): FP32 subtract. -/
  | fsub (o : VOp)
  /-- FMUL (R159): FP32 multiply. -/
  | fmul (o : VOp)
  /-- FFMA (R159): FP32 fused multiply-add with one rounding. -/
  | ffma (o : VOp)
  /-- FMIN (R160): FP32 minimum. -/
  | fmin (o : VOp)
  /-- FMAX (R160): FP32 maximum. -/
  | fmax (o : VOp)
  /-- FCMP (R161): FP32 compare that writes a condition predicate. -/
  | fcmp (o : VOp)
  /-- FRND (R162): Rounds an FP32 value to an integral FP32 value. -/
  | frnd (o : VOp)
  /-- FCLASS (R163): Classifies an FP32 value under a mask. -/
  | fclass (o : VOp)
  /-- FSCALE (R164): Multiplies an FP32 value by 2^n with one rounding. -/
  | fscale (o : VOp)
  /-- PKADD (R166): Packed BF16 add. -/
  | pkadd (o : VOp)
  /-- PKMUL (R166): Packed BF16 multiply. -/
  | pkmul (o : VOp)
  /-- PKFMA (R166): Packed BF16 fused multiply-add. -/
  | pkfma (o : VOp)
  /-- PKMIN (R166): Packed BF16 minimum. -/
  | pkmin (o : VOp)
  /-- PKMAX (R166): Packed BF16 maximum. -/
  | pkmax (o : VOp)
  /-- PKCMP (R167): Packed BF16 compare into element masks. -/
  | pkcmp (o : VOp)
  /-- FRCP (R102): FP32 reciprocal, class T. -/
  | frcp (o : VOp)
  /-- FRSQ (R102): FP32 reciprocal square root, class T. -/
  | frsq (o : VOp)
  /-- FSQRT (R102): FP32 square root, class T. -/
  | fsqrt (o : VOp)
  /-- FEX2 (R104): Base-2 exponential by the reference algorithm. -/
  | fex2 (o : VOp)
  /-- FLG2 (R105): Base-2 logarithm by the reference algorithm. -/
  | flg2 (o : VOp)
  /-- FSIN (R106): Sine by the reference algorithm. -/
  | fsin (o : VOp)
  /-- FCOS (R106): Cosine by the reference algorithm. -/
  | fcos (o : VOp)
  /-- CVT (R170): Converts one element between formats with one rounding, merging into a packed destination. -/
  | cvt (o : VOp)
  /-- CVT_MX (R170): Block-scaled conversion applying an E8M0 scale, class T. -/
  | cvtMx (o : VOp)
  /-- SCALE_MX (R173): Computes one E8M0 block scale over the active lanes. -/
  | scaleMx (o : VOp)
  /-- LGMUL (R175): LG6 multiply by adding logarithms. -/
  | lgmul (o : VOp)
  /-- LGADD (R176): LG6 add through the linearization table. -/
  | lgadd (o : VOp)
  /-- XL_GET (R203): Lane exchange reading the lane at an index within the segment. -/
  | xlGet (o : VOp)
  /-- XL_UP (R203): Lane exchange reading the lane d below. -/
  | xlUp (o : VOp)
  /-- XL_DN (R203): Lane exchange reading the lane d above. -/
  | xlDn (o : VOp)
  /-- XL_BFLY (R203): Butterfly lane exchange. -/
  | xlBfly (o : VOp)
  /-- BALLOT (R204): Gathers a predicate of the participating lanes into a mask. -/
  | ballot (o : VOp)
  /-- VOTE_ANY (R205): True when a predicate holds in any participating lane. -/
  | voteAny (o : VOp)
  /-- VOTE_ALL (R205): True when a predicate holds in every participating lane. -/
  | voteAll (o : VOp)
  /-- VOTE_EQ (R205): True when every participating lane holds the same value. -/
  | voteEq (o : VOp)
  /-- LFOLD (R206): Folds or scans an integer operation across participating lanes. -/
  | lfold (o : VOp)
  /-- PAND (R207): Lane predicate AND. -/
  | pand (o : VOp)
  /-- POR (R207): Lane predicate OR. -/
  | por (o : VOp)
  /-- PXOR (R207): Lane predicate XOR. -/
  | pxor (o : VOp)
  /-- PNOT (R207): Lane predicate complement. -/
  | pnot (o : VOp)
  /-- PMOV (R207): Lane predicate copy. -/
  | pmov (o : VOp)
  /-- P2V (R208): Packs the lane's predicates into a register. -/
  | p2v (o : VOp)
  /-- V2P (R208): Sets lane predicates from register bits under a mask. -/
  | v2p (o : VOp)
  /-- LD_G (R302): Global load through a buffer record, landing by lookahead. -/
  | ldG (o : MOp)
  /-- ST_G (R303): Global store through a buffer record into the hamper. -/
  | stG (o : MOp)
  /-- LD_S (R302): Scratchpad load, landing by lookahead. -/
  | ldS (o : MOp)
  /-- ST_S (R303): Scratchpad store into the hamper. -/
  | stS (o : MOp)
  /-- FENCE (R306): Acquire, release or acq_rel ordering at a scope. -/
  | fence (o : MOp)
  /-- PREF (R312): Prefetches lines into the home slice and L1. -/
  | pref (o : MOp)
  /-- L1INV (R313): Removes the L1 lines that the active lanes name through a record. -/
  | l1inv (o : MOp)
  /-- L1INV_ALL (R313): Removes every L1 line of the group's world. -/
  | l1invAll (o : MOp)
  /-- L1INV_REC (R313): Removes every L1 line overlapping a record's span. -/
  | l1invRec (o : MOp)
  /-- TLD (R307): Moves one tile from global memory into a ring or accumulator tile. -/
  | tld (o : MOp)
  /-- TST (R307): Moves one tile from a ring or accumulator tile to global memory. -/
  | tst (o : MOp)
  /-- REC_LD (R310): Loads a buffer record from global memory. -/
  | recLd (o : MOp)
  /-- REC_MK (R311): Builds a buffer record from four s registers. -/
  | recMk (o : MOp)
  /-- SPG_OUT (R314): Asks firmware to page scratchpad pages out. -/
  | spgOut (o : MOp)
  /-- SPG_IN (R314): Asks firmware to bring scratchpad pages in. -/
  | spgIn (o : MOp)
  /-- ATOM_G_ADD (R304): Global atomic add. -/
  | atomGAdd (o : MOp)
  /-- ATOM_G_MIN (R304): Global atomic minimum. -/
  | atomGMin (o : MOp)
  /-- ATOM_G_MAX (R304): Global atomic maximum. -/
  | atomGMax (o : MOp)
  /-- ATOM_G_AND (R304): Global atomic AND. -/
  | atomGAnd (o : MOp)
  /-- ATOM_G_OR (R304): Global atomic OR. -/
  | atomGOr (o : MOp)
  /-- ATOM_G_XOR (R304): Global atomic XOR. -/
  | atomGXor (o : MOp)
  /-- ATOM_G_XCHG (R304): Global atomic exchange. -/
  | atomGXchg (o : MOp)
  /-- ATOM_G_CAS (R304): Global atomic compare-and-swap. -/
  | atomGCas (o : MOp)
  /-- ATOM_G_INC (R304): Global atomic bounded increment. -/
  | atomGInc (o : MOp)
  /-- ATOM_G_DEC (R304): Global atomic bounded decrement. -/
  | atomGDec (o : MOp)
  /-- ATOM_G_FADD (R304): Global atomic FP32 add. -/
  | atomGFadd (o : MOp)
  /-- ATOM_S_ADD (R304): Scratchpad atomic add. -/
  | atomSAdd (o : MOp)
  /-- ATOM_S_MIN (R304): Scratchpad atomic minimum. -/
  | atomSMin (o : MOp)
  /-- ATOM_S_MAX (R304): Scratchpad atomic maximum. -/
  | atomSMax (o : MOp)
  /-- ATOM_S_AND (R304): Scratchpad atomic AND. -/
  | atomSAnd (o : MOp)
  /-- ATOM_S_OR (R304): Scratchpad atomic OR. -/
  | atomSOr (o : MOp)
  /-- ATOM_S_XOR (R304): Scratchpad atomic XOR. -/
  | atomSXor (o : MOp)
  /-- ATOM_S_XCHG (R304): Scratchpad atomic exchange. -/
  | atomSXchg (o : MOp)
  /-- ATOM_S_CAS (R304): Scratchpad atomic compare-and-swap. -/
  | atomSCas (o : MOp)
  /-- ATOM_S_INC (R304): Scratchpad atomic bounded increment. -/
  | atomSInc (o : MOp)
  /-- ATOM_S_DEC (R304): Scratchpad atomic bounded decrement. -/
  | atomSDec (o : MOp)
  /-- ATOM_S_FADD (R304): Scratchpad atomic FP32 add. -/
  | atomSFadd (o : MOp)
  /-- ISSUE_CHECKS_DONE (R300): A span's M-slot accesses finish their issue checks, letting the waiting checkpoint commit or trapping at the issuing bundle. -/
  | issueChecksDone (group : Nat)
  /-- LOAD_RESPONSE (R301): A line request's response returns and its tag byte is checked, possibly raising a deferred cause. -/
  | loadResponse (group op line : Nat)
  /-- STORE_AT_HOME_SLICE (R301): A released write reaches its home slice, where line checks and the tag byte are checked and merged. -/
  | storeAtHomeSlice (group line : Nat)
  /-- MMA (R343): Checks and reserves pops for count K-steps of a dense matrix product into an accumulator tile. -/
  | mma (o : EOp)
  /-- MMA_SP (R343): As MMA with a 2-of-4 sparse A operand described by a sparsity queue. -/
  | mmaSp (o : EOp)
  /-- MATRIX_KSTEP (R326): Once its tiles are available a K-step computes the rows of its row mask and retires, committing its pops. -/
  | matrixKstep (core : Nat)
  /-- ACC_ZERO (R347): Zeroes the live rows of an accumulator tile. -/
  | accZero (o : EOp)
  /-- ACC_RD (R348): Reads four elements of each live row of a tile into registers. -/
  | accRd (o : EOp)
  /-- ACC_WR (R349): Writes four elements of each live row of a tile. -/
  | accWr (o : EOp)
  /-- RING_CFG (R351): Checks ring parameters and becomes the ring's port view. -/
  | ringCfg (o : EOp)
  /-- SQ_CFG (R351): Checks sparsity-queue parameters and becomes the queue's port view. -/
  | sqCfg (o : EOp)
  /-- RING_CFG_TAKE_EFFECT (R351): A pending configuration takes effect once the ring has no owners or reservations, resetting its counters. -/
  | ringCfgTakeEffect (core : Nat)
  /-- RING_RST (R325): Requests that a ring or queue be emptied. -/
  | ringRst (o : EOp)
  /-- RING_RST_TAKE_EFFECT (R325): Once the ring has no owner or earlier reservation its head and tail counters return to 0. -/
  | ringRstTakeEffect (core : Nat)
  /-- RING_STAT (R353): Returns a ring's state word as it stands in port order. -/
  | ringStat (o : EOp)
  /-- COPY_KICK (R354): Checks and queues a copy request record for the copy engine. -/
  | copyKick (o : EOp)
  /-- COPY_RECORD_FETCH (R358): The copy engine reads and validates a queued request record. -/
  | copyRecordFetch (core : Nat)
  /-- COPY_OWNERSHIP_GRANT (R323): A copy request waiting for push ownership of a ring becomes its owner. -/
  | copyOwnershipGrant (core req : Nat)
  /-- COPY_LINE_WRITE (R331): One destination write of a request completes and is counted on its barrier object. -/
  | copyLineWrite (core req : Nat)
  /-- UINT_ARM (R360): Sets or clears the group's armed bit. -/
  | uintArm (o : EOp)
  /-- UINT_ENTRY (R333): An armed group with queued completions enters its user-level interrupt handler at a bundle boundary. -/
  | uintEntry (group : Nat)
  /-- SEAL (R363): Queues AES-256-GCM encryption of a scratchpad tile. -/
  | sealTile (o : EOp)
  /-- OPEN (R363): Queues AES-256-GCM decryption and authentication of a tile. -/
  | openTile (o : EOp)
  /-- CIPHER_OPERATION (R363): The cipher unit performs a SEAL or OPEN, writes its output and counts it, or faults on tag failure. -/
  | cipherOperation (core : Nat)
  /-- SPAWN (R217): Reads a team descriptor and enqueues k teams, raising the spawn-tree counter. -/
  | spawn (o : EOp)
  /-- POP_INIT (R370): Activates a population descriptor. -/
  | popInit (o : EOp)
  /-- POP_JOIN (R371): Adds the slot's live lanes to a population as members or reserve lanes. -/
  | popJoin (o : EOp)
  /-- POP_LEAVE (R372): Retires the slot's member and reserve lanes of a population. -/
  | popLeave (o : EOp)
  /-- RSMP (R375): The group's members and reserve lanes arrive at a resampling round with weights and a target count. -/
  | rsmp (o : EOp)
  /-- RSMP_EVALUATE (R376): Once every member and reserve lane has arrived or retired, the round computes copies, clones and placements. -/
  | rsmpEvaluate (pop : Nat)
  /-- POP_STAT (R373): Returns one field of the population descriptor. -/
  | popStat (o : EOp)
  /-- PAGE_FAULT_REPAIR (R269): Firmware repairs a page-out, shared-out or copy-on-write fault and marks the team runnable. -/
  | pageFaultRepair (group : Nat)
  /-- SEGMENT_ABSENT_REPAIR (R397): Firmware and the command processor make an absent segment present, and the team resumes. -/
  | segmentAbsentRepair (group : Nat)
  /-- REPAIR_TIMEOUT (R398): A repair not made within the partition's timeout is declined and handled as kind L. -/
  | repairTimeout (group : Nat)
  /-- AUTO_BANK_FLIP (R270): The core flips to its back bank when no front-bank group can issue and a back-bank group can. -/
  | autoBankFlip (core : Nat)
  /-- TEAM_MIGRATE (R274): A team leaves its core at a bundle boundary, writing back pages and travelling with its registers, hamper and flask. -/
  | teamMigrate (team core bank : Nat)
  /-- TEAM_SWAP_OUT (R401): A stopped team is drained into save frames and releases its frames and bank places. -/
  | teamSwapOut (team : Nat)
  /-- SAVE_FRAME_PUSH (R403): A write to the push register adds a frame to the save frame free list. -/
  | saveFramePush (part : Nat) (value : DWord)
  /-- GCTL_STOP (R418): GCTL command 1 pre-empts every group of the selected team. -/
  | gctlStop (core quad : Nat)
  /-- GCTL_RESUME (R418): GCTL command 2 resumes the selected team. -/
  | gctlResume (core quad : Nat)
  /-- GCTL_RESUME_PAST (R119): GCTL command 3 resumes the team past a TRAP or BKPT. -/
  | gctlResumePast (core quad : Nat)
  /-- GCTL_HANDLE_KIND_L (R418): GCTL command 4 handles the selected record as kind L. -/
  | gctlHandleKindL (core quad : Nat)
  /-- RDATA_WRITE (R421): A debugger write sets a stopped group's register element, its checkpoint value, and cancels its pending landings. -/
  | rdataWrite (core quad : Nat) (value : Word)
  /-- BANK_FLIP (R413): A FLIP request pre-empts the front bank and makes the other bank front. -/
  | bankFlip (core : Nat)
  /-- BANK_DRAIN (R414): A DRAINREQ request swaps out every team of the back bank into save frames. -/
  | bankDrain (core : Nat)
  /-- BANK_FILL (R414): Firmware places saved teams into an empty back bank. -/
  | bankFill (core : Nat)
  /-- SEGMENT_INVALIDATE (R252): A write of SEG starts invalidation of one segment entry in every die of the partition. -/
  | segmentInvalidate (part : Nat) (value : DWord)
  /-- SEGMENT_INVALIDATE_ALL (R252): A write of ALL starts invalidation of every segment entry of the partition. -/
  | segmentInvalidateAll (part : Nat)
  /-- INVALIDATION_DONE (R252): No cache holds the entry and old-entry requests have completed, so PEND clears. -/
  | invalidationDone (part : Nat)
  /-- SEGMENT_MIGRATE (R254): A segment is marked migrating, drained, copied and rewritten as present at its new location. -/
  | segmentMigrate (part seg : Nat) (target : DWord)
  /-- TEAM_RETIRE (R196): When its groups have retired and its engine operations finished, a team releases its resources and the spawn-tree counter falls. -/
  | teamRetire (team : Nat)
  /-- GLOBAL_DISPATCH_BATCH (R224): The global dispatcher hands a batch of whole teams from its queue head to an eligible die with room. -/
  | globalDispatchBatch (part : Nat)
  /-- SEED_PLACE (R222): Once a lead-die bank can take it, the command processor places the seed team and makes its group issuing. -/
  | seedPlace (launch : Nat)
  /-- CP_NOP (R448): Command packet NOP does nothing. -/
  | cpNop (at_ : Stream) (dw : BitVec 16)
  /-- LAUNCH (R450): Checks a spine, chooses a placement, replicates the quire and starts a seed group, or refuses the launch. -/
  | launch (at_ : Stream) (k : LaunchPacket)
  /-- IB (R451): Executes the packets of an indirect buffer at the next level. -/
  | ib (at_ : Stream) (addr : DWord) (size : Word)
  /-- PRED (R452): Tests a memory word and skips the next SKIP packets when the test fails. -/
  | pred (at_ : Stream) (t : MemTest) (skip : Byte)
  /-- CP_LOOP (R453): Executes the following range of packets PASSES times. -/
  | cpLoop (at_ : Stream) (passes range : Word)
  /-- WAIT (R454): Re-reads a memory word until its test holds. -/
  | wait (at_ : Stream) (t : MemTest)
  /-- WAIT_TEST_HOLDS (R454): A WAIT packet's re-read finds its test holding and the stream continues. -/
  | waitTestHolds (at_ : Stream)
  /-- WRITE (R454): Stores data words at system scope. -/
  | write (at_ : Stream) (addr : DWord) (data : List Word)
  /-- SIGNAL (R454): Writes a value and optionally raises an MSI-X vector. -/
  | signal (at_ : Stream) (addr value : DWord) (vector : BitVec 11) (irq : Bool)
  /-- COPY (R454): Runs a copy request on the lead die's copy engine until it completes. -/
  | copy (at_ : Stream) (record : List Word)
  /-- POP_DESC (R454): Activates a population for the next LAUNCH of the stream. -/
  | popDesc (at_ : Stream) (addr : DWord)
  /-- CTXSW (R457): Switches the partition's active context, pre-empting and flipping every core. -/
  | ctxsw (at_ : Stream) (target : BitVec 2)
  /-- TIMESTAMP (R454): Writes the host time and the lead die's core 0 cycle counter. -/
  | timestamp (at_ : Stream) (addr hostTime : DWord)
  /-- FETCH_FENCE (R456): Empties the stream's fetch windows. -/
  | fetchFence (at_ : Stream)
  /-- SLEW_INTERVAL (R438): Every 10 microseconds the slew limiter may quota a one-level rise for a die. -/
  | slewInterval (die : Nat)
  /-- LEVEL_CHANGE_DONE (R438): A die's voltage and frequency change completes at its new level. -/
  | levelChangeDone (die : Nat)
  /-- MODULE_RESET (R444): Power-on or module reset measures firmware and trains PCIe, UCIe, HBM and Fremas links in order. -/
  | moduleReset (training : Training)
  /-- KEY_MARKER_SEND (R472): At a flit boundary with the other slot valid and the counter high, the sender sends a key marker and switches slots. -/
  | keyMarkerSend (port : Nat)
  /-- FLIT_RECEIVE (R473): A data flit arrives and is accepted and acknowledged, dropped silently, or dropped with a replay request. -/
  | flitReceive (port : Nat) (flit : List Byte)
  /-- KEY_MARKER_RECEIVE (R473): An accepted key marker makes the receiver expect the other slot from counter 0. -/
  | keyMarkerReceive (port : Nat) (flit : List Byte)
  /-- FLIT_ACKNOWLEDGE (R472): An acknowledgement frees replay-buffer flits, and a marker's acknowledgement invalidates the old slot. -/
  | flitAcknowledge (port slot counter : Nat)
  /-- REPLAY_REQUEST (R473): The sender resends every flit from the requested counter, and eight requests in a row mark the port failed. -/
  | replayRequest (port counter : Nat)
  /-- REMOTE_WRITE (R476): A write transaction arrives at the target, is checked against the export table, and is applied or refused. -/
  | remoteWrite (port : Nat) (packet : List Byte)
  /-- READ_REQUEST (R476): A read request arrives at the target, is checked, and is answered with read data or a refusal. -/
  | readRequest (port : Nat) (packet : List Byte)
  /-- READ_DATA (R474): Read data return to the initiator's copy request. -/
  | readData (port : Nat) (packet : List Byte)
  /-- WRITE_COMPLETION (R476): A remote write's completion returns, completing it or faulting the request with 0x69. -/
  | writeCompletion (port : Nat) (packet : List Byte)
  /-- COPY_SOURCE_LINE_READ (R359): A copy request's read of a source line (local HBM, host segment or staging) returns, and a poisoned, absent or refused source faults the request without writing the line. -/
  | copySourceLineRead (core req : Nat)
  /-- UNCORRECTABLE_ERROR (R425): An SRAM, L2 or HBM uncorrectable error is handled by place, dropping, poisoning or halting the owning group. -/
  | uncorrectableError (place : ErrPlace)
  /-- L2_EVICT_UNCORRECTABLE (R429): An evicted L2 line with an uncorrectable error is written back poisoned with 0xC4 and charged to its owning world. -/
  | l2EvictUncorrectable (line : Nat)
  /-- INJECTOR_CONTROL_WRITE (R430): A write to the injector control register sets targets and rate, and writing EN = 1 resets the event count. -/
  | injectorControlWrite (part : Nat) (value : DWord)
  /-- NOTIFY (R464): A host notify write advances a stream's write pointer. -/
  | notify (at_ : Stream) (value : DWord)
  /-- RING_BASE_WRITE (R464): A write of an idle stream's ring base takes effect and resets both offsets to 0. -/
  | ringBaseWrite (at_ : Stream) (value : DWord)
  /-- RING_SIZE_WRITE (R464): A write of an idle stream's ring size takes effect and resets both offsets to 0. -/
  | ringSizeWrite (at_ : Stream) (value : DWord)
  /-- ERROR_LOG_CLEAR (R463): Writing all ones to LOST clears it and empties the error log. -/
  | errorLogClear (part : Nat) (value : Word)
  /-- PARTITION_CREATE (R462): Creates a partition from DIES, TEST, CONF and PROT, or is refused. -/
  | partitionCreate (part : Nat) (value : DWord) (segBase : DWord)
  /-- PARTITION_DESTROY (R462): Runs a turnover and frees the partition's dies. -/
  | partitionDestroy (part : Nat) (health : List Nat)
  /-- PARTITION_SUSPEND (R458): Suspends a running partition at packet boundaries and pre-empts its teams. -/
  | partitionSuspend (part : Nat)
  /-- PARTITION_RESUME (R462): Resumes a suspended or gated partition, each stream continuing where it stopped. -/
  | partitionResume (part : Nat)
  /-- PARTITION_TURNOVER (R469): Quiesces, scrubs, re-attests and health-tests a partition for a new tenant. -/
  | partitionTurnover (part : Nat) (health : List Nat)
  /-- RESET_FIRMWARE_CONTEXTS (R462): Reloads every core's firmware quire and clears its 0xF0 condition. -/
  | resetFirmwareContexts (part : Nat)
  /-- LOCK_INTERFACE_REQUEST (R465): The TDI enters CONFIG_LOCKED and every RWL field and MSI-X entry is locked. -/
  | lockInterfaceRequest (part : Nat)
  /-- START_INTERFACE_REQUEST (R465): Moves a locked TDI to RUN. -/
  | startInterfaceRequest (part : Nat)
  /-- STOP_INTERFACE (R465): Returns the TDI to CONFIG_UNLOCKED through a turnover. -/
  | stopInterface (part : Nat) (health : List Nat)
  /-- REGISTER_WRITE (R6): A write to a register that has no row of its own, applied or ignored by its field rules. -/
  | registerWrite (reg : HubReg) (value : DWord)
  /-- PARTITION_CAP_WRITE (R439): A write of the partition cap changes the level granted to its dies. -/
  | partitionCapWrite (part : Nat) (value : Word)
  /-- KEY_SLOT_PROVISION (R466): A vendor SPDM message in a secured session writes a partition key slot. -/
  | keySlotProvision (part slot : Nat) (key : BitVec 256)
  /-- GET_MEASUREMENTS (R467): Answers an SPDM measurement request from one snapshot, signed with Ed25519 and ML-DSA-65. -/
  | getMeasurements (part : Nat)
  /-- CURRENT_LIMIT_EXCEEDED (R438): The die's measured current exceeds its limit and the power manager lowers the target level. -/
  | currentLimitExceeded (die : Nat)
  /-- CURRENT_BELOW_LIMIT (R438): The current falls back below the limit and the target rises toward the grant. -/
  | currentBelowLimit (die : Nat)
  /-- HEAT_MAP_UPDATE (R441): Every millisecond the hub writes a heat code for each thermal zone. -/
  | heatMapUpdate (temps : List Int)
  /-- DIE_GATE (R440): The hub power-gates an unused or fully drained die, losing its L2 contents. -/
  | dieGate (die : Nat)
  /-- DIE_UNGATE (R440): A gated die is ungated and its reserved staging ways are reloaded before use. -/
  | dieUngate (die : Nat)
  /-- LINK_TRAINING_REQUEST (R444): The host requests training of a down Fremas link port again. -/
  | linkTrainingRequest (port : Nat) (partner : Option Nat)
  /-- LINK_KEY_PROVISION (R471): A vendor SPDM message writes an invalid link key slot, making it valid. -/
  | linkKeyProvision (port : Nat) (sending : Bool) (slot : Nat) (key : BitVec 256) (salt : Word)
  /-- HOST_INGRESS_ACCESS (R259): A host or physical-function memory write or read arrives over PCIe at device memory; a write forms its line check at host ingress, and a save frame that is off the free list refuses it. -/
  | hostIngressAccess (part : Nat) (write : Bool) (addr : Nat) (data : List Byte)
  /-- DEBUGGER_ATTACH (R118): A debugger attaches to or detaches from a partition, which changes whether BKPT traps and whether cause 0x01 is kind D or kind L. -/
  | debuggerAttach (part : Nat) (attach : Bool)
  deriving DecidableEq, Repr

end Sys2Proof
end

