-- ==== Sys2Proof/WellFormed.lean ====
section
/-!
DEFINITION. The field tables of the manual (04 R108, 05 R132, 06 R155, 08 R201 R215, 14 R294, 17 R338, 18 R368), one entry
per slot operation, and the hazard filter that reads them (02 R50). A leaf that decodes and is not well formed is a
refused leaf (02 R51). Command packets are well formed when they meet 25 R447 and R448.
-/
namespace Sys2Proof

/-- Which selectors a used operand field accepts. -/
inductive SelKind where
  | any       -- every selector of 02 R35
  | uniform   -- s register, K0, K1, short constant, zero
  | noLane    -- every selector but the lane index
  | vOnly
  | sOnly
  | k0Only
  | disp      -- the branch operand of 02 R43
  | accWr     -- v register, s register or zero (17 R338)
  deriving DecidableEq, Repr

/-- How a function uses an operand field: its kinds and its width in 32-bit words. -/
inductive SrcUse where
  | unused
  | used (k : SelKind) (words : Nat)
  | opt (k : SelKind) (words : Nat)
  deriving DecidableEq, Repr

/-- 02 R47: the null value of an operand selector. -/
def Operand.null : Operand := .v 0

/-- 02 R36: a register of a wide operand is aligned to its width. -/
def alignedReg (n words : Nat) : Bool := n % words == 0

def SelKind.accepts (k : SelKind) (words : Nat) : Operand → Bool
  | .v n => (k == .any || k == .noLane || k == .vOnly || k == .accWr) && alignedReg n.toNat words
  | .s n => k != .vOnly && k != .k0Only && alignedReg n.toNat words
  | .k0 => k == .any || k == .uniform || k == .noLane || k == .k0Only || k == .disp
  | .k1 => k == .any || k == .uniform || k == .noLane || k == .disp
  | .zero => k == .any || k == .uniform || k == .noLane || k == .disp || k == .accWr
  | .lane => k == .any
  | .const _ => k == .any || k == .uniform || k == .noLane

def SrcUse.ok (u : SrcUse) (o : Operand) : Bool :=
  match u with
  | .unused => o == Operand.null
  | .used k w => k.accepts w o
  | .opt k w => o == Operand.null || k.accepts w o

/-- The used operands of a field, as (selector, words); an unused field names nothing (02 R47). -/
def SrcUse.list (u : SrcUse) (o : Operand) : List (Operand × Nat) :=
  match u with
  | .unused => []
  | .used _ w => [(o, w)]
  | .opt _ w => if o = Operand.null then [] else [(o, w)]

/-- How a function uses a destination: the spaces it accepts and the width in words. -/
structure DstUse where
  v : Bool
  s : Bool
  null : Bool
  words : Nat
  deriving DecidableEq, Repr

def DstUse.ok (u : DstUse) : Dst → Bool
  | .v n => u.v && alignedReg n.toNat u.words
  | .s n => u.s && alignedReg n.toNat u.words
  | .null => u.null

/-- How a C function uses D (04 R108). -/
inductive CDstUse where
  | none | s | sPair | x | sOrNone
  deriving DecidableEq, Repr

def CDstUse.ok (u : CDstUse) : CDst → Bool
  | .none => u == .none || u == .sOrNone
  | .s n => u == .s || u == .sOrNone || (u == .sPair && alignedReg n.toNat 2)
  | .x _ => u == .x

/-- How a C function uses a predicate field (04 R108, 02 R42). -/
inductive CPredUse where
  | none | q | pq | qOrNone
  deriving DecidableEq, Repr

def CPredUse.ok (u : CPredUse) : PredRef → Bool
  | .p _ => u == .pq
  | .q _ => u == .q || u == .pq || u == .qOrNone
  | .none => u == .none || u == .qOrNone

structure CSpec where
  func : BitVec 10
  d : CDstUse
  pd : CPredUse
  pa : CPredUse
  pb : CPredUse
  sa : SrcUse
  immOk : Bool
  barrier : Bool

structure VSpec where
  func : BitVec 10
  types : List VType
  rm : Bool
  a : SrcUse
  b : SrcUse
  c : SrcUse
  immOk : Bool
  subOk : Bool
  /-- class T: LOOK holds the lookahead -/
  look : Bool
  sat : Bool
  /-- LOOK and SAT hold predicate B (08 R201) -/
  predB : Bool
  dst : DstUse
  /-- PD and PC2 may name predicates -/
  pred : Bool
  /-- V2P drives predicates without PD and PC2 (08 R202) -/
  predBus : Bool
  /-- a null destination without a predicate is no mismatch (WRSYS, V2P) -/
  noResult : Bool

/-- The latency class of an M operation (02 R81) and of an E operation (02 R82). -/
inductive LatClass where
  | none | s | t | l | g | e
  deriving DecidableEq, Repr

structure MSpec where
  func : BitVec 10
  sizes : List MSize
  anyCls : Bool
  anyScope : Bool
  orders : List MOrder
  anyCPol : Bool
  dst : DstUse
  aa : SrcUse
  ab : SrcUse
  da : SrcUse
  db : SrcUse
  buf : Bool
  ofsOk : Bool
  recResult : Bool
  lat : LatClass

structure ESpec where
  func : BitVec 10
  acc : Bool
  ka : Bool
  kb : Bool
  xb : Bool
  src : SrcUse
  dst : DstUse
  cmdOk : Bool
  kaQueue : Bool
  xbMax : Nat

/-- The slot operation an instruction is, with the entry of its chapter's field table. -/
inductive Leaf where
  | c (o : COp) (sp : CSpec)
  | v (o : VOp) (sp : VSpec)
  | m (o : MOp) (sp : MSpec)
  | e (o : EOp) (sp : ESpec)
  | none

/-- 02 R40: the width of a type in 32-bit words. -/
def VType.words : VType → Nat
  | .i64 | .n64 => 2
  | .b128 => 4
  | _ => 1

def VType.isPacked : VType → Bool
  | .i16x2 | .n16x2 | .i8x4 | .n8x4 => true
  | _ => false

/-- The type groups of 05 R132, and the L codes without b128. -/
def VType.setA : List VType := [.i32, .n32, .i64, .n64]
def VType.setP : List VType := [.i16x2, .n16x2, .i8x4, .n8x4]
def VType.setL : List VType := [.n32, .n64, .b128]
def VType.setN : List VType := [.n32, .n64]

/-- The null rows of the C table (04 R108). -/
def cSpec (func : BitVec 10) : CSpec :=
  { func, d := .none, pd := .none, pa := .none, pb := .none, sa := .unused, immOk := true, barrier := false }

/-- IMM15 is zero in the bits its function does not name (04 R109). -/
def COp.immWithin (o : COp) (bits : Nat) : Bool := o.imm.toNat < 2 ^ bits

/-- The displacement forms (04 R108, 02 R43): zero with IMM15, or a literal or s register with IMM15 0. -/
def COp.dispOk (o : COp) : Bool := o.sa == .zero || o.imm == 0

/-- A count field of 33 to 63 is refused (04 R109). -/
def COp.barOk (o : COp) : Bool := o.immWithin 10 && decide (o.imm.toNat / 16 ≤ 32)

/-- IMM8[4:0] names a predicate, 31 and the reserved codes refused (05 R132). -/
def predCode (b : BitVec 8) : Bool := b.toNat < 24

def vSpec (o : VOp) (func : BitVec 10) (types : List VType) : VSpec :=
  { func, types, rm := false, a := .unused, b := .unused, c := .unused, immOk := o.imm8 == 0, subOk := o.sub == 0,
    look := false, sat := false, predB := false,
    dst := { v := true, s := true, null := true, words := o.type.words }, pred := true, predBus := false,
    noResult := false }

def SrcUse.typed (o : VOp) : SrcUse := .used .any o.type.words
def SrcUse.word : SrcUse := .used .any 1

/-- 05 R133: packed types name no predicates, IDP4 apart. -/
def intSpec (o : VOp) (func : BitVec 10) (types : List VType) : VSpec :=
  let sp := vSpec o func types
  { sp with pred := !o.type.isPacked }

def int1 (o : VOp) (func : BitVec 10) (types : List VType) : VSpec :=
  let sp := intSpec o func types
  { sp with a := .typed o }

def int2 (o : VOp) (func : BitVec 10) (types : List VType) : VSpec :=
  let sp := intSpec o func types
  { sp with a := .typed o, b := .typed o }

def floatDst (o : VOp) : DstUse := { v := true, s := true, null := false, words := o.type.words }

def float1 (o : VOp) (func : BitVec 10) (types : List VType) (rm pred : Bool) : VSpec :=
  let sp := vSpec o func types
  { sp with a := .typed o, rm, pred, dst := floatDst o }

def float2 (o : VOp) (func : BitVec 10) (types : List VType) (rm pred : Bool) : VSpec :=
  let sp := vSpec o func types
  { sp with a := .typed o, b := .typed o, rm, pred, dst := floatDst o }

def float3 (o : VOp) (func : BitVec 10) (types : List VType) (rm pred : Bool) : VSpec :=
  let sp := vSpec o func types
  { sp with a := .typed o, b := .typed o, c := .typed o, rm, pred, dst := floatDst o }

/-- 05 R151, 21 R417: the width in words of a system value, and whether it can be read and written. -/
def sysValue (index : BitVec 8) : Option (Nat × Bool × Bool) :=
  let n := index.toNat
  if n = 0x08 then some (2, true, true)
  else if n = 0x03 ∨ n = 0x09 ∨ n = 0x0A then some (2, true, false)
  else if n ≤ 0x0C then some (1, true, false)
  else if 0x44 ≤ n ∧ n ≤ 0x47 then some (2, true, false)
  else if n = 0x41 then some (1, true, false)
  else if n = 0x40 ∨ n = 0x42 ∨ n = 0x43 ∨ (0x48 ≤ n ∧ n ≤ 0x4A) then some (1, true, true)
  else none

/-- The element count of a packed conversion type, 1 for the others (06 R168). -/
def VType.elems : VType → Nat
  | .bf16x2 => 2
  | .e4m3 | .e5m2 => 4
  | .e2m1 => 8
  | .lg6 => 5
  | _ => 1

def VType.isFloat : VType → Bool
  | .f32 | .bf16x2 | .e4m3 | .e5m2 | .e2m1 | .lg6 => true
  | _ => false

def VType.isNarrow : VType → Bool
  | .e4m3 | .e5m2 | .e2m1 | .lg6 => true
  | _ => false

def VType.isInt : VType → Bool
  | .i32 | .n32 | .i64 | .n64 => true
  | _ => false

/-- 02 R40: the type of a code; 15 is reserved. -/
def VType.ofCode (c : Nat) : Option VType :=
  [VType.i32, .n32, .f32, .bf16x2, .i16x2, .n16x2, .i8x4, .n8x4, .i64, .n64, .e4m3, .e5m2, .e2m1, .lg6, .b128][c]?

/-- The source type of a CVT (06 R168). -/
def VOp.cvtSrc (o : VOp) : Option VType := VType.ofCode (o.imm8.toNat % 16)

/-- 06 R169: the pairs of CVT without a block scale, and with one. -/
def cvtPair (block : Bool) (s d : VType) : Bool :=
  if block then (s == .f32 && d.isNarrow) || (s.isNarrow && d == .f32)
  else (s.isFloat && d.isFloat && s != d) || (s.isInt && d == .f32) || (s == .f32 && d.isInt)

def cvtSpec (o : VOp) (func : BitVec 10) (block : Bool) : VSpec :=
  let sp := vSpec o func [.i32, .n32, .f32, .bf16x2, .i64, .n64, .e4m3, .e5m2, .e2m1, .lg6]
  let imm := o.imm8.toNat
  match o.cvtSrc with
  | some s =>
    { sp with
      a := .used .any s.words
      b := if o.type.elems = 1 then .unused else SrcUse.word
      c := SrcUse.word
      immOk := cvtPair block s o.type && decide (imm < 128) && decide (imm / 16 < o.type.elems)
      subOk := decide (o.sub.toNat < s.elems)
      look := block
      dst := floatDst o }
  | none => { sp with immOk := false }

def xlSpec (o : VOp) (func : BitVec 10) (wrap : Bool) : VSpec :=
  let sp := vSpec o func VType.setN
  let imm := o.imm8.toNat
  { sp with a := .typed o, b := SrcUse.word, c := .typed o
            immOk := decide (imm % 8 ≤ 5) && (decide (imm < 8) || (wrap && decide (imm < 16)))
            dst := { v := true, s := false, null := false, words := o.type.words } }

def predDst : DstUse := { v := false, s := false, null := true, words := 1 }

/-- Predicate B of the predicate-logic functions stands in leaf bits [7:3] (08 R201). -/
def VOp.predBCode (o : VOp) : Nat := 2 * o.look.toNat + o.sat.toNat

def plogSpec (o : VOp) (func : BitVec 10) : VSpec :=
  let sp := vSpec o func [.n32]
  { sp with immOk := predCode o.imm8 && decide (o.predBCode < 24), subOk := decide (o.sub.toNat < 4), predB := true
            dst := predDst }

def plog1Spec (o : VOp) (func : BitVec 10) : VSpec :=
  let sp := vSpec o func [.n32]
  { sp with immOk := predCode o.imm8, dst := predDst }

def voteSpec (o : VOp) (func : BitVec 10) : VSpec :=
  let sp := vSpec o func [.n32]
  { sp with immOk := predCode o.imm8, subOk := decide (o.sub.toNat < 2), dst := predDst }

/-- 14 R297: the width in words of a register that holds SIZE. -/
def MSize.words : MSize → Nat
  | .b64 | .i64 => 2
  | .b128 => 4
  | _ => 1

def MSize.store : List MSize := [.n8, .n16, .b32, .b64, .b128]
def MSize.all : List MSize := [.n8, .n16, .b32, .b64, .b128, .i8, .i16, .i32, .i64, .f32]
def nullDst : DstUse := { v := false, s := false, null := true, words := 1 }

def mSpec (func : BitVec 10) : MSpec :=
  { func, sizes := [.n8], anyCls := false, anyScope := false, orders := [.relaxed], anyCPol := false, dst := nullDst,
    aa := .unused, ab := .unused, da := .unused, db := .unused, buf := false, ofsOk := true, recResult := false,
    lat := .none }

def scratchBase : SrcUse := .used .uniform 1

/-- The atomics of 14 R304; `glob` picks the global or the scratchpad form. -/
def atomSpec (o : MOp) (func : BitVec 10) (glob cas : Bool) (sizes : List MSize) : MSpec :=
  let sp := mSpec func
  { sp with sizes, anyCls := true, anyScope := true, orders := [.relaxed, .acquire, .release, .acqRel]
            dst := { v := true, s := false, null := true, words := o.size.words }
            aa := SrcUse.word
            ab := if glob then .unused else scratchBase
            da := .used .any o.size.words
            db := if cas then .used .any o.size.words else .unused
            buf := glob, lat := if glob then .g else .l }

def atomSizes : List MSize := [.b32, .b64]
def atomMinSizes : List MSize := [.b32, .b64, .i32, .i64]

def eSpec (func : BitVec 10) : ESpec :=
  { func, acc := false, ka := false, kb := false, xb := false, src := .unused, dst := nullDst, cmdOk := true,
    kaQueue := false, xbMax := 15 }

def EOp.cmdWithin (o : EOp) (n : Nat) : Bool := o.cmd.toNat < n

/-- The function code and field use of every slot operation. -/
def Instr.leaf : Instr → Leaf
  -- the C slot (04 R108)
  | .nop o => .c o { cSpec 0x001 with immOk := o.imm == 0 }
  | .bra o => .c o { cSpec 0x002 with sa := .used .disp 1, immOk := o.dispOk }
  | .brd o => .c o { cSpec 0x003 with pa := .pq, sa := .used .disp 1, immOk := o.dispOk }
  | .bri o => .c o { cSpec 0x004 with sa := .used .sOnly 2, immOk := o.imm == 0 }
  | .join o => .c o { cSpec 0x005 with sa := .used .uniform 1, immOk := o.imm == 0 }
  | .call o => .c o { cSpec 0x006 with d := .sPair, sa := .used .disp 1, immOk := o.dispOk }
  | .ret o => .c o { cSpec 0x007 with sa := .used .sOnly 2, immOk := o.imm == 0 }
  | .loop o => .c o { cSpec 0x008 with d := .s, sa := .used .uniform 1 }
  | .lend o => .c o { cSpec 0x009 with d := .s }
  | .exit o => .c o { cSpec 0x00A with immOk := o.imm == 0 }
  | .halt o => .c o { cSpec 0x00B with immOk := o.immWithin 8 }
  | .yield o => .c o { cSpec 0x00C with immOk := o.imm == 0 }
  | .setfmt o => .c o { cSpec 0x010 with sa := .used .uniform 1, immOk := o.imm == 0 }
  | .getfmt o => .c o { cSpec 0x011 with d := .s, immOk := o.imm == 0 }
  | .perfSet o => .c o { cSpec 0x012 with sa := .used .uniform 1, immOk := o.imm == 0 }
  | .trap o => .c o { cSpec 0x014 with immOk := o.immWithin 8 }
  | .sysRoundTrip o =>
    .c o (if o.imm = 0 then { cSpec 0x015 with d := .s }
      else { cSpec 0x015 with d := .sOrNone, sa := .opt .uniform 1, immOk := o.immWithin 8 && decide (4 ≤ o.imm.toNat) })
  | .sysProgress o => .c o { cSpec 0x015 with d := .s, sa := .used .uniform 1, immOk := o.imm == 1 }
  | .sysPageIn o => .c o { cSpec 0x015 with d := .s, sa := .used .uniform 1, immOk := o.imm == 2 }
  | .sysGroupCount o => .c o { cSpec 0x015 with d := .s, immOk := o.imm == 3 }
  | .bkpt o => .c o { cSpec 0x016 with immOk := o.immWithin 8 }
  | .iret o => .c o { cSpec 0x017 with immOk := o.imm == 0 }
  | .waitb o => .c o { cSpec 0x018 with sa := .used .uniform 1, immOk := o.immWithin 1 }
  | .barArrive o => .c o { cSpec 0x019 with immOk := o.barOk, barrier := true }
  | .barWait o => .c o { cSpec 0x01A with immOk := o.barOk, barrier := true }
  | .barTeam o => .c o { cSpec 0x01B with immOk := o.imm == 0, barrier := true }
  | .barGrid o => .c o { cSpec 0x01C with immOk := o.imm == 0, barrier := true }
  | .qand o => .c o { cSpec 0x020 with pd := .q, pa := .q, pb := .q, immOk := o.imm == 0 }
  | .qor o => .c o { cSpec 0x021 with pd := .q, pa := .q, pb := .q, immOk := o.imm == 0 }
  | .qxor o => .c o { cSpec 0x022 with pd := .q, pa := .q, pb := .q, immOk := o.imm == 0 }
  | .qnot o => .c o { cSpec 0x023 with pd := .q, pa := .q, immOk := o.imm == 0 }
  | .qmov o => .c o { cSpec 0x024 with
      pd := .q, pa := .qOrNone,
      sa := if o.pa = .none then .used .uniform 1 else .unused, immOk := o.imm == 0 }
  | .xmov o => .c o { cSpec 0x028 with d := .x, sa := .used .uniform 2, immOk := o.imm == 0 }
  | .xli o => .c o { cSpec 0x029 with d := .x, sa := .used .k0Only 1, immOk := o.imm == 0 }
  -- the V slots: integer and bit functions (05 R132)
  | .mov o => .v o (int1 o 0x001 VType.setL)
  | .iadd o => .v o { int2 o 0x002 (VType.setA ++ VType.setP) with sat := true }
  | .isub o => .v o { int2 o 0x003 (VType.setA ++ VType.setP) with sat := true }
  | .iaddc o => .v o { int2 o 0x004 VType.setA with immOk := predCode o.imm8 }
  | .isubb o => .v o { int2 o 0x005 VType.setA with immOk := predCode o.imm8 }
  | .imul o => .v o { int2 o 0x006 (VType.setA ++ [.i16x2, .n16x2]) with sat := true }
  | .imulh o => .v o (int2 o 0x007 VType.setA)
  | .imad o => .v o { int2 o 0x008 VType.setA with c := .typed o, sat := true }
  | .imadw o => .v o { int2 o 0x009 [.i32, .n32] with
      c := .used .noLane 2, sat := true,
      dst := { v := true, s := true, null := true, words := 2 } }
  | .imin o => .v o (int2 o 0x00A (VType.setA ++ VType.setP))
  | .imax o => .v o (int2 o 0x00B (VType.setA ++ VType.setP))
  | .iabs o => .v o { int1 o 0x00C [.i32, .i64, .i16x2, .i8x4] with sat := true }
  | .ineg o => .v o { int1 o 0x00D [.i32, .i64, .i16x2, .i8x4] with sat := true }
  | .icmp o => .v o { int2 o 0x00E VType.setA with subOk := decide (o.sub.toNat < 6), dst := predDst }
  | .sel o => .v o { int2 o 0x00F VType.setL with immOk := predCode o.imm8 }
  | .bitAnd o => .v o (int2 o 0x010 VType.setL)
  | .bitOr o => .v o (int2 o 0x011 VType.setL)
  | .bitXor o => .v o (int2 o 0x012 VType.setL)
  | .andn o => .v o (int2 o 0x013 VType.setL)
  | .orn o => .v o (int2 o 0x014 VType.setL)
  | .bitNot o => .v o (int1 o 0x015 VType.setL)
  | .bmix o => .v o { int2 o 0x016 VType.setL with c := .typed o, immOk := true }
  | .idp4 o => .v o { int2 o 0x017 [.i8x4, .n8x4] with c := SrcUse.word, sat := true, pred := true }
  | .shl o => .v o { int1 o 0x018 VType.setN with b := SrcUse.word }
  | .shr o => .v o { int1 o 0x019 VType.setN with b := SrcUse.word }
  | .sar o => .v o { int1 o 0x01A [.i32, .i64] with b := SrcUse.word }
  | .shf o => .v o { int2 o 0x01B [.n32] with c := SrcUse.word, subOk := decide (o.sub.toNat < 2) }
  | .rot o => .v o { int1 o 0x01C VType.setN with b := SrcUse.word, subOk := decide (o.sub.toNat < 2) }
  | .popc o => .v o (int1 o 0x01D VType.setN)
  | .clz o => .v o (int1 o 0x01E VType.setN)
  | .ctz o => .v o (int1 o 0x01F VType.setN)
  | .brev o => .v o (int1 o 0x020 VType.setN)
  | .bfx o => .v o { int1 o 0x021 [.i32, .n32] with b := SrcUse.word }
  | .bfi o => .v o { int2 o 0x022 [.n32] with c := SrcUse.word }
  | .bperm o => .v o { int2 o 0x023 [.n32] with c := SrcUse.word, subOk := decide (o.sub.toNat < 2) }
  | .readl o => .v o { intSpec o 0x024 VType.setN with a := .used .vOnly o.type.words, b := .used .uniform 1 }
  | .rdsys o => .v o { intSpec o 0x025 VType.setN with
      immOk := (match sysValue o.imm8 with | some (w, _, _) => w == o.type.words | none => false) }
  | .wrsys o => .v o { int1 o 0x026 VType.setN with
      immOk := (match sysValue o.imm8 with | some (w, _, wr) => wr && w == o.type.words | none => false),
      dst := nullDst, pred := false, noResult := true }
  | .rand o => .v o { intSpec o 0x027 VType.setN with a := .used .any 2, look := true, pred := false, dst := floatDst o }
  -- float, conversion and logarithmic functions (06 R155)
  | .fadd o => .v o (float2 o 0x040 [.f32] true true)
  | .fsub o => .v o (float2 o 0x041 [.f32] true true)
  | .fmul o => .v o (float2 o 0x042 [.f32] true true)
  | .ffma o => .v o (float3 o 0x043 [.f32] true true)
  | .fmin o => .v o (float2 o 0x044 [.f32] false true)
  | .fmax o => .v o (float2 o 0x045 [.f32] false true)
  | .fcmp o => .v o { float2 o 0x046 [.f32] false true with subOk := true, dst := predDst }
  | .frnd o => .v o (float1 o 0x047 [.f32] true true)
  | .fclass o => .v o (float2 o 0x048 [.f32] false true)
  | .fscale o => .v o (float2 o 0x049 [.f32] true true)
  | .pkadd o => .v o (float2 o 0x04A [.bf16x2] true false)
  | .pkmul o => .v o (float2 o 0x04B [.bf16x2] true false)
  | .pkfma o => .v o (float3 o 0x04C [.bf16x2] true false)
  | .pkmin o => .v o (float2 o 0x04D [.bf16x2] false false)
  | .pkmax o => .v o (float2 o 0x04E [.bf16x2] false false)
  | .pkcmp o => .v o { float2 o 0x04F [.bf16x2] false true with
      subOk := true,
      dst := { v := true, s := true, null := true, words := 1 } }
  | .frcp o => .v o { float1 o 0x050 [.f32] true true with look := true }
  | .frsq o => .v o { float1 o 0x051 [.f32] true true with look := true }
  | .fsqrt o => .v o { float1 o 0x052 [.f32] true true with look := true }
  | .fex2 o => .v o { float1 o 0x053 [.f32] false true with look := true }
  | .flg2 o => .v o { float1 o 0x054 [.f32] false true with look := true }
  | .fsin o => .v o { float1 o 0x055 [.f32] false true with look := true }
  | .fcos o => .v o { float1 o 0x056 [.f32] false true with look := true }
  | .cvt o => .v o (cvtSpec o 0x058 false)
  | .scaleMx o => .v o { float1 o 0x059 [.e4m3, .e5m2, .e2m1, .lg6] false true with look := true }
  | .lgmul o => .v o (float2 o 0x05A [.lg6] false false)
  | .lgadd o => .v o (float2 o 0x05B [.lg6] false false)
  | .cvtMx o => .v o (cvtSpec o 0x05C true)
  -- lane-crossing functions (08 R201)
  | .xlGet o => .v o (xlSpec o 0x080 false)
  | .xlUp o => .v o (xlSpec o 0x081 true)
  | .xlDn o => .v o (xlSpec o 0x082 true)
  | .xlBfly o => .v o (xlSpec o 0x083 false)
  | .ballot o => .v o { vSpec o 0x084 [.n32] with
      immOk := predCode o.imm8, subOk := decide (o.sub.toNat < 2),
      dst := floatDst o }
  | .voteAny o => .v o (voteSpec o 0x085)
  | .voteAll o => .v o (voteSpec o 0x086)
  | .voteEq o => .v o { vSpec o 0x087 VType.setN with a := .typed o, dst := predDst }
  | .lfold o => .v o { vSpec o 0x088 VType.setA with
      a := .typed o, subOk := decide (o.sub.toNat < 6),
      immOk := decide (o.imm8.toNat < 2),
      dst := { v := true, s := o.imm8 == 0, null := false, words := o.type.words } }
  | .pand o => .v o (plogSpec o 0x089)
  | .por o => .v o (plogSpec o 0x08A)
  | .pxor o => .v o (plogSpec o 0x08B)
  | .pnot o => .v o (plog1Spec o 0x08C)
  | .pmov o => .v o (plog1Spec o 0x08D)
  | .p2v o => .v o { vSpec o 0x08E [.n32] with dst := { v := true, s := false, null := false, words := 1 } }
  | .v2p o => .v o { vSpec o 0x08F [.n32] with
      a := SrcUse.word, b := SrcUse.word, dst := predDst, pred := false,
      predBus := true, noResult := true }
  -- the M slot (14 R294)
  | .ldG o => .m o { mSpec 0x001 with
      sizes := MSize.all, anyCls := true, anyScope := true, orders := [.relaxed, .acquire],
      anyCPol := true, dst := { v := true, s := true, null := false, words := o.size.words }, aa := SrcUse.word,
      buf := true, lat := .g }
  | .stG o => .m o { mSpec 0x002 with
      sizes := MSize.store, anyCls := true, anyCPol := true, aa := SrcUse.word,
      da := .used .any o.size.words, buf := true }
  | .ldS o => .m o { mSpec 0x003 with
      sizes := MSize.all, anyCls := true, anyScope := true, orders := [.relaxed, .acquire],
      dst := { v := true, s := true, null := false, words := o.size.words }, aa := SrcUse.word, ab := scratchBase,
      lat := .l }
  | .stS o => .m o { mSpec 0x004 with
      sizes := MSize.store, anyCls := true, aa := SrcUse.word, ab := scratchBase,
      da := .used .any o.size.words }
  | .fence o => .m o { mSpec 0x005 with
      anyScope := true, orders := [.acquire, .release, .acqRel], ofsOk := o.ofs == 0,
      lat := .s }
  | .pref o => .m o { mSpec 0x006 with anyCPol := true, aa := SrcUse.word, buf := true }
  | .l1inv o => .m o { mSpec 0x007 with aa := SrcUse.word, buf := true }
  | .l1invAll o => .m o { mSpec 0x007 with sizes := [.n16], ofsOk := o.ofs == 0 }
  | .l1invRec o => .m o { mSpec 0x007 with sizes := [.b32], buf := true, ofsOk := o.ofs == 0 }
  | .tld o => .m o { mSpec 0x008 with
      anyCls := true, anyCPol := true, aa := SrcUse.word, buf := true,
      ofsOk := decide (o.ofs.toNat < 32) }
  | .tst o => .m o { mSpec 0x009 with
      anyCls := true, anyCPol := true, aa := SrcUse.word, buf := true,
      ofsOk := decide (o.ofs.toNat < 32) }
  | .recLd o => .m o { mSpec 0x00A with
      sizes := [.b128], anyCls := true, anyScope := true, anyCPol := true,
      aa := SrcUse.word, buf := true, ofsOk := decide (o.ofs.toNat < 32), recResult := true, lat := .g }
  | .recMk o => .m o { mSpec 0x00B with
      sizes := [.b128], da := .used .sOnly 4, ofsOk := decide (o.ofs.toNat < 32),
      recResult := true, lat := .s }
  | .spgOut o => .m o { mSpec 0x00C with aa := SrcUse.word, ab := scratchBase, da := SrcUse.word }
  | .spgIn o => .m o { mSpec 0x00D with aa := SrcUse.word, ab := scratchBase, da := SrcUse.word }
  | .atomGAdd o => .m o (atomSpec o 0x010 true false atomSizes)
  | .atomGMin o => .m o (atomSpec o 0x011 true false atomMinSizes)
  | .atomGMax o => .m o (atomSpec o 0x012 true false atomMinSizes)
  | .atomGAnd o => .m o (atomSpec o 0x013 true false atomSizes)
  | .atomGOr o => .m o (atomSpec o 0x014 true false atomSizes)
  | .atomGXor o => .m o (atomSpec o 0x015 true false atomSizes)
  | .atomGXchg o => .m o (atomSpec o 0x016 true false atomSizes)
  | .atomGCas o => .m o (atomSpec o 0x017 true true atomSizes)
  | .atomGInc o => .m o (atomSpec o 0x018 true false atomSizes)
  | .atomGDec o => .m o (atomSpec o 0x019 true false atomSizes)
  | .atomGFadd o => .m o (atomSpec o 0x01A true false [.f32])
  | .atomSAdd o => .m o (atomSpec o 0x020 false false atomSizes)
  | .atomSMin o => .m o (atomSpec o 0x021 false false atomMinSizes)
  | .atomSMax o => .m o (atomSpec o 0x022 false false atomMinSizes)
  | .atomSAnd o => .m o (atomSpec o 0x023 false false atomSizes)
  | .atomSOr o => .m o (atomSpec o 0x024 false false atomSizes)
  | .atomSXor o => .m o (atomSpec o 0x025 false false atomSizes)
  | .atomSXchg o => .m o (atomSpec o 0x026 false false atomSizes)
  | .atomSCas o => .m o (atomSpec o 0x027 false true atomSizes)
  | .atomSInc o => .m o (atomSpec o 0x028 false false atomSizes)
  | .atomSDec o => .m o (atomSpec o 0x029 false false atomSizes)
  | .atomSFadd o => .m o (atomSpec o 0x02A false false [.f32])
  -- the E slot (17 R338, 18 R368, 08 R215)
  | .mma o => .e o { eSpec 0x001 with acc := true, ka := true, kb := true, src := .used .uniform 1, cmdOk := o.cmdWithin 2 }
  | .mmaSp o => .e o { eSpec 0x002 with
      acc := true, ka := true, kb := true, src := .used .uniform 1,
      cmdOk := o.cmdWithin 8 }
  | .accZero o => .e o { eSpec 0x003 with acc := true, cmdOk := o.cmdWithin 1 }
  | .accRd o => .e o { eSpec 0x004 with
      acc := true, dst := { v := true, s := false, null := false, words := 4 },
      cmdOk := o.cmdWithin 8 }
  | .accWr o => .e o { eSpec 0x005 with acc := true, src := .used .accWr 4, cmdOk := o.cmdWithin 8 }
  | .ringCfg o => .e o { eSpec 0x006 with ka := true, xb := true, cmdOk := o.cmdWithin 1 }
  | .ringRst o => .e o { eSpec 0x007 with ka := true, cmdOk := o.cmdWithin 2, kaQueue := o.cmd == 1 }
  | .ringStat o => .e o { eSpec 0x008 with
      ka := true, dst := { v := true, s := true, null := false, words := 2 },
      cmdOk := o.cmdWithin 2, kaQueue := o.cmd == 1 }
  | .sqCfg o => .e o { eSpec 0x009 with ka := true, xb := true, cmdOk := o.cmdWithin 1, kaQueue := true }
  | .copyKick o => .e o { eSpec 0x00A with xb := true, cmdOk := o.cmdWithin 1 }
  | .sealTile o => .e o { eSpec 0x00B with xb := true, src := .used .uniform 1, cmdOk := o.cmdWithin 16, xbMax := 13 }
  | .openTile o => .e o { eSpec 0x00C with xb := true, src := .used .uniform 1, cmdOk := o.cmdWithin 16, xbMax := 13 }
  | .popInit o => .e o { eSpec 0x010 with xb := true, cmdOk := o.cmdWithin 1 }
  | .popJoin o => .e o { eSpec 0x011 with
      xb := true, src := if o.cmd = 1 then .unused else .used .noLane 1,
      dst := { v := true, s := false, null := true, words := 1 }, cmdOk := o.cmdWithin 2 }
  | .popLeave o => .e o { eSpec 0x012 with xb := true, cmdOk := o.cmdWithin 1 }
  | .rsmp o => .e o { eSpec 0x013 with
      xb := true, src := .used .noLane 1,
      dst := { v := true, s := false, null := true, words := 1 }, cmdOk := o.cmdWithin 1, xbMax := 14 }
  | .popStat o => .e o { eSpec 0x014 with
      xb := true, dst := { v := true, s := true, null := false, words := 1 },
      cmdOk := o.cmdWithin 6 }
  | .spawn o => .e o { eSpec 0x018 with xb := true, src := .used .uniform 1, cmdOk := o.cmdWithin 1 }
  | .uintArm o => .e o { eSpec 0x019 with cmdOk := o.cmdWithin 2 }
  -- the steps that no slot issues
  | .bundle _ => .none
  | .leafInstall _ => .none
  | .replicaInstall _ _ => .none
  | .resultDataArrival _ _ => .none
  | .issuePick _ => .none
  | .firmwareCredit _ _ => .none
  | .sysAnswer _ => .none
  | .gridReleaseWindow _ _ => .none
  | .issueChecksDone _ => .none
  | .loadResponse _ _ _ => .none
  | .storeAtHomeSlice _ _ => .none
  | .matrixKstep _ => .none
  | .ringCfgTakeEffect _ => .none
  | .ringRstTakeEffect _ => .none
  | .copyRecordFetch _ => .none
  | .copyOwnershipGrant _ _ => .none
  | .copyLineWrite _ _ => .none
  | .uintEntry _ => .none
  | .cipherOperation _ => .none
  | .rsmpEvaluate _ => .none
  | .pageFaultRepair _ => .none
  | .segmentAbsentRepair _ => .none
  | .repairTimeout _ => .none
  | .autoBankFlip _ => .none
  | .teamMigrate _ _ _ => .none
  | .teamSwapOut _ => .none
  | .saveFramePush _ _ => .none
  | .gctlStop _ _ => .none
  | .gctlResume _ _ => .none
  | .gctlResumePast _ _ => .none
  | .gctlHandleKindL _ _ => .none
  | .rdataWrite _ _ _ => .none
  | .bankFlip _ => .none
  | .bankDrain _ => .none
  | .bankFill _ => .none
  | .segmentInvalidate _ _ => .none
  | .segmentInvalidateAll _ => .none
  | .invalidationDone _ => .none
  | .segmentMigrate _ _ _ => .none
  | .uncorrectableError _ => .none
  | .l2EvictUncorrectable _ => .none
  | .injectorControlWrite _ _ => .none
  | .teamRetire _ => .none
  | .globalDispatchBatch _ => .none
  | .seedPlace _ => .none
  | .cpNop _ _ => .none
  | .launch _ _ => .none
  | .ib _ _ _ => .none
  | .pred _ _ _ => .none
  | .cpLoop _ _ _ => .none
  | .wait _ _ => .none
  | .waitTestHolds _ => .none
  | .write _ _ _ => .none
  | .signal _ _ _ _ _ => .none
  | .copy _ _ => .none
  | .popDesc _ _ => .none
  | .ctxsw _ _ => .none
  | .timestamp _ _ _ => .none
  | .fetchFence _ => .none
  | .notify _ _ => .none
  | .ringBaseWrite _ _ => .none
  | .ringSizeWrite _ _ => .none
  | .errorLogClear _ _ => .none
  | .partitionCreate _ _ _ => .none
  | .partitionDestroy _ _ => .none
  | .partitionSuspend _ => .none
  | .partitionResume _ => .none
  | .partitionTurnover _ _ => .none
  | .resetFirmwareContexts _ => .none
  | .lockInterfaceRequest _ => .none
  | .startInterfaceRequest _ => .none
  | .stopInterface _ _ => .none
  | .registerWrite _ _ => .none
  | .partitionCapWrite _ _ => .none
  | .keySlotProvision _ _ _ => .none
  | .getMeasurements _ => .none
  | .currentLimitExceeded _ => .none
  | .currentBelowLimit _ => .none
  | .slewInterval _ => .none
  | .levelChangeDone _ => .none
  | .heatMapUpdate _ => .none
  | .dieGate _ => .none
  | .dieUngate _ => .none
  | .moduleReset _ => .none
  | .linkTrainingRequest _ _ => .none
  | .linkKeyProvision _ _ _ _ _ => .none
  | .keyMarkerSend _ => .none
  | .flitReceive _ _ => .none
  | .keyMarkerReceive _ _ => .none
  | .flitAcknowledge _ _ _ => .none
  | .replayRequest _ _ => .none
  | .remoteWrite _ _ => .none
  | .readRequest _ _ => .none
  | .readData _ _ => .none
  | .writeCompletion _ _ => .none
  | .hostIngressAccess _ _ _ _ => .none
  | .copySourceLineRead _ _ => .none
  | .debuggerAttach _ _ => .none

def Guard.lane (g : Guard) : Bool :=
  match g.sel with
  | .p _ => true
  | _ => false

/-- 02 R47 to R50: a drive is enabled exactly where there is a result, on a bus of the slot. A disabled drive is null where the function
does not use the field; where it does, its bus is 0 or one of the slot's, whatever the leaf's destinations are (log entry 31, DEDUCED). -/
def Drive.ok (d : Drive) (used need : Bool) (lo hi : Nat) : Bool :=
  let allotted := decide (lo ≤ d.bus.toNat) && decide (d.bus.toNat ≤ hi)
  if need then d.en && allotted else !d.en && (d.bus == 0 || (used && allotted))

/-- Whether a function can have a register result, so that it uses its drive field (02 R47, R49). -/
def DstUse.drives (u : DstUse) : Bool := u.v || u.s

def CSpec.ok (sp : CSpec) (o : COp) : Bool :=
  !o.guard.lane && (!sp.barrier || (o.guard.sel == .none && !o.guard.neg)) &&
  sp.d.ok o.d && sp.pd.ok o.pd && sp.pa.ok o.pa && sp.pb.ok o.pb && sp.sa.ok o.sa && sp.immOk

def VSpec.ok (sp : VSpec) (o : VOp) : Bool :=
  let preds := o.pd != .none || o.pc2 != .none
  let lo := if o.slot = .v0 then 0 else 3
  sp.types.contains o.type && (sp.rm || o.rm == .near) &&
  sp.a.ok o.sa && sp.b.ok o.sb && sp.c.ok o.sc && sp.immOk && sp.subOk &&
  (sp.predB || ((sp.look || o.look == 0) && (sp.sat || !o.sat))) &&
  sp.dst.ok o.dst && (sp.pred || !preds) && (o.dst != .null || preds || sp.noResult) &&
  o.drv1.ok sp.dst.drives (o.dst != .null) lo (lo + 2) && o.drv2.ok (sp.pred || sp.predBus) (preds || sp.predBus) lo (lo + 2) &&
  !(o.drv1.en && o.drv2.en && o.drv1.bus == o.drv2.bus)

def MSpec.ok (sp : MSpec) (o : MOp) : Bool :=
  sp.sizes.contains o.size && (sp.anyCls || o.cls == 0) && (sp.anyScope || o.scope == .grp) &&
  sp.orders.contains o.order && (sp.anyCPol || o.cpol == .normal) && sp.dst.ok o.dst &&
  sp.aa.ok o.aa && sp.ab.ok o.ab && sp.da.ok o.da && sp.db.ok o.db && (sp.buf || o.buf == 0) && sp.ofsOk &&
  o.drv.ok (sp.dst.drives || sp.recResult) (o.dst != .null || sp.recResult) 6 6

def ESpec.ok (sp : ESpec) (o : EOp) : Bool :=
  !o.guard.lane && (sp.acc || o.acc == 0) && (sp.ka || o.ka == 0) && (sp.kb || o.kb == 0) && (sp.xb || o.xb == 0) &&
  sp.src.ok o.src && sp.dst.ok o.dst && sp.cmdOk && (!sp.kaQueue || decide (o.ka.toNat < 4)) &&
  decide (o.xb.toNat ≤ sp.xbMax) && o.drv.ok sp.dst.drives (o.dst != .null) 7 7

/-- The hazard filter (02 R50) on the fields of a leaf: true when it admits the leaf. -/
def Leaf.admitted : Leaf → Bool
  | .c o sp => sp.ok o
  | .v o sp => sp.ok o
  | .m o sp => sp.ok o
  | .e o sp => sp.ok o
  | .none => true

/-- 25 R447: a 57-bit virtual address. -/
def va57 (a : DWord) : Bool := a.toNat < 2 ^ 57

def va57Aligned (a : DWord) (n : Nat) : Bool := va57 a && a.toNat % n == 0

/-- 25 R445, R448: streams 0 to 3 are context streams, stream 4 is the control stream. -/
def Stream.isCtx (st : Stream) : Bool := st.idx < 4
def Stream.isCtl (st : Stream) : Bool := st.idx == 4
def Stream.ok (st : Stream) : Bool := st.idx < 5

/-- The packet conditions of 25 R448 and the ranges of the steps that come from outside. -/
def Instr.packetOk : Instr → Bool
  | .cpNop st dw => st.ok && decide (1 ≤ dw.toNat)
  | .launch st k => st.isCtx && va57 k.spine && va57Aligned k.completion 8 && decide (k.args.length ≤ 64)
  | .ib st a n => st.ok && va57Aligned a 4 && decide (1 ≤ n.toNat) && decide (n.toNat ≤ 2 ^ 20)
  | .pred st t skip => st.ok && va57Aligned t.addr 4 && decide (1 ≤ skip.toNat)
  | .cpLoop st passes range =>
    st.ok && decide (1 ≤ passes.toNat) && decide (passes.toNat ≤ 65535) && decide (1 ≤ range.toNat) &&
      decide (range.toNat ≤ 125)
  | .wait st t => st.ok && va57Aligned t.addr 4
  | .write st a data => st.ok && va57Aligned a 4 && decide (1 ≤ data.length) && decide (data.length + 3 < 2 ^ 16)
  | .signal st a _ _ _ => st.ok && va57Aligned a 8
  | .copy st rec => st.isCtx && decide (rec.length = 16)
  | .popDesc st a => st.isCtx && va57 a
  | .ctxsw st _ => st.isCtl
  | .timestamp st a _ => st.ok && va57Aligned a 8
  | .fetchFence st => st.ok
  | _ => true

/-- A well-formed instruction: a slot operation the hazard filter admits, a packet the command processor accepts. -/
def Instr.wf (i : Instr) : Bool := i.leaf.admitted && i.packetOk

end Sys2Proof
end

