-- ==== Sys2Proof/Decode.lean ====
section
/-!
DEFINITION. Decoding: the leaves of each slot class (02 R33 to R46, the opcode maps R78 to R83), the bundle stream
(02 R52 to R56) and the command packets (25 R447, R448). Every decoder is total and rejects by name. The encoder, written
from the same tables, follows.
-/
namespace Sys2Proof

/-- Why bits are no instruction. The first eight are refusals of a leaf (02 R50); the others are errors of a packet
(25 R449). -/
inductive Reject where
  | guard
  | function
  | operand
  | destination
  | predicate
  | codeValue
  | admission
  | length
  | reservedCode
  | packetLength
  | loopRange
  | notAllowed
  | misaligned
  deriving DecidableEq, Repr

/-- The stream error code of a rejected packet (25 R449). -/
def Reject.streamErr : Reject → Nat
  | .packetLength | .length => 2
  | .loopRange => 4
  | .notAllowed => 5
  | .misaligned => 6
  | _ => 1

/-- Bits [lo + len - 1 : lo] of a number. -/
def natBits (w lo len : Nat) : Nat := w / 2 ^ lo % 2 ^ len

-- the fields shared by the slot classes

/-- 02 R39 and the guard selectors of chapter 01: 24 to 30 are reserved. -/
def PredRef.ofCode (c : BitVec 5) : Option PredRef :=
  if c.toNat < 16 then some (.p (c.setWidth 4))
  else if c.toNat < 24 then some (.q (c.setWidth 3))
  else if c.toNat = 31 then some .none
  else Option.none

def PredRef.code : PredRef → BitVec 5
  | .p n => n.setWidth 5
  | .q n => 16#5 ||| n.setWidth 5
  | .none => 31#5

def Guard.ofCode (c : BitVec 6) : Option Guard :=
  match PredRef.ofCode (c.setWidth 5) with
  | some sel => some { neg := c.getLsbD 5, sel }
  | none => none

def Guard.code (g : Guard) : BitVec 6 := BitVec.ofBool g.neg ++ g.sel.code

/-- 02 R35. -/
def Operand.ofCode (c : BitVec 10) : Option Operand :=
  let n := c.toNat
  if n < 0x100 then some (.v (c.setWidth 8))
  else if n < 0x140 then some (.s (c.setWidth 6))
  else if n = 0x140 then some .k0
  else if n = 0x141 then some .k1
  else if n = 0x150 then some .zero
  else if n = 0x151 then some .lane
  else if 0x180 ≤ n ∧ n < 0x200 then some (.const (c.setWidth 7))
  else none

def Operand.code : Operand → BitVec 10
  | .v n => n.setWidth 10
  | .s n => 0x100#10 ||| n.setWidth 10
  | .k0 => 0x140#10
  | .k1 => 0x141#10
  | .zero => 0x150#10
  | .lane => 0x151#10
  | .const c => 0x180#10 ||| c.setWidth 10

/-- 02 R37. -/
def Dst.ofCode (c : BitVec 10) : Option Dst :=
  let n := c.toNat
  if n < 0x100 then some (.v (c.setWidth 8))
  else if n < 0x140 then some (.s (c.setWidth 6))
  else if n = 0x200 then some .null
  else none

def Dst.code : Dst → BitVec 10
  | .v n => n.setWidth 10
  | .s n => 0x100#10 ||| n.setWidth 10
  | .null => 0x200#10

/-- 02 R42. -/
def CDst.ofCode (c : BitVec 8) : Option CDst :=
  let n := c.toNat
  if n = 0 then some .none
  else if 0x40 ≤ n ∧ n < 0x80 then some (.s (c.setWidth 6))
  else if 0x80 ≤ n ∧ n < 0x90 then some (.x (c.setWidth 4))
  else Option.none

def CDst.code : CDst → BitVec 8
  | .none => 0#8
  | .s n => 0x40#8 ||| n.setWidth 8
  | .x n => 0x80#8 ||| n.setWidth 8

def Drive.ofCode (c : BitVec 4) : Drive := { en := c.getLsbD 3, bus := c.setWidth 3 }
def Drive.code (d : Drive) : BitVec 4 := BitVec.ofBool d.en ++ d.bus

def VType.code : VType → BitVec 4
  | .i32 => 0 | .n32 => 1 | .f32 => 2 | .bf16x2 => 3 | .i16x2 => 4 | .n16x2 => 5 | .i8x4 => 6 | .n8x4 => 7
  | .i64 => 8 | .n64 => 9 | .e4m3 => 10 | .e5m2 => 11 | .e2m1 => 12 | .lg6 => 13 | .b128 => 14

def Rm.ofCode (c : BitVec 2) : Rm :=
  match c.toNat with
  | 0 => .near | 1 => .zero | 2 => .down | _ => .up

def Rm.code : Rm → BitVec 2
  | .near => 0 | .zero => 1 | .down => 2 | .up => 3

def MSize.ofCode (c : BitVec 4) : Option MSize := MSize.all[c.toNat]?

def MSize.code : MSize → BitVec 4
  | .n8 => 0 | .n16 => 1 | .b32 => 2 | .b64 => 3 | .b128 => 4 | .i8 => 5 | .i16 => 6 | .i32 => 7 | .i64 => 8 | .f32 => 9

def Scope.ofCode (c : BitVec 3) : Option Scope := [Scope.grp, .team, .core, .die, .dev, .sys][c.toNat]?

def Scope.code : Scope → BitVec 3
  | .grp => 0 | .team => 1 | .core => 2 | .die => 3 | .dev => 4 | .sys => 5

def MOrder.ofCode (c : BitVec 2) : MOrder :=
  match c.toNat with
  | 0 => .relaxed | 1 => .acquire | 2 => .release | _ => .acqRel

def MOrder.code : MOrder → BitVec 2
  | .relaxed => 0 | .acquire => 1 | .release => 2 | .acqRel => 3

def CPol.ofCode (c : BitVec 2) : Option CPol := [CPol.normal, .streaming, .bypass][c.toNat]?

def CPol.code : CPol → BitVec 2
  | .normal => 0 | .streaming => 1 | .bypass => 2

/-- A value, or the named refusal. -/
def need {α : Type} (o : Option α) (r : Reject) : Except Reject α :=
  match o with
  | some a => .ok a
  | none => .error r

-- the opcode maps

/-- 02 R80: the C map; SYS is divided by its service, the low byte of IMM15 (04 R120). -/
def cCtor (func : Nat) (imm : BitVec 15) : Option (COp → Instr) :=
  match func with
  | 0x001 => some .nop
  | 0x002 => some .bra
  | 0x003 => some .brd
  | 0x004 => some .bri
  | 0x005 => some .join
  | 0x006 => some .call
  | 0x007 => some .ret
  | 0x008 => some .loop
  | 0x009 => some .lend
  | 0x00A => some .exit
  | 0x00B => some .halt
  | 0x00C => some .yield
  | 0x010 => some .setfmt
  | 0x011 => some .getfmt
  | 0x012 => some .perfSet
  | 0x014 => some .trap
  | 0x016 => some .bkpt
  | 0x017 => some .iret
  | 0x018 => some .waitb
  | 0x019 => some .barArrive
  | 0x01A => some .barWait
  | 0x01B => some .barTeam
  | 0x01C => some .barGrid
  | 0x020 => some .qand
  | 0x021 => some .qor
  | 0x022 => some .qxor
  | 0x023 => some .qnot
  | 0x024 => some .qmov
  | 0x028 => some .xmov
  | 0x029 => some .xli
  | 0x015 =>
    if imm.toNat % 256 = 1 then some .sysProgress
    else if imm.toNat % 256 = 2 then some .sysPageIn
    else if imm.toNat % 256 = 3 then some .sysGroupCount
    else some .sysRoundTrip
  | _ => none

/-- 02 R78: the V map. -/
def vCtor (func : Nat) : Option (VOp → Instr) :=
  match func with
  | 0x001 => some .mov
  | 0x002 => some .iadd
  | 0x003 => some .isub
  | 0x004 => some .iaddc
  | 0x005 => some .isubb
  | 0x006 => some .imul
  | 0x007 => some .imulh
  | 0x008 => some .imad
  | 0x009 => some .imadw
  | 0x00A => some .imin
  | 0x00B => some .imax
  | 0x00C => some .iabs
  | 0x00D => some .ineg
  | 0x00E => some .icmp
  | 0x00F => some .sel
  | 0x010 => some .bitAnd
  | 0x011 => some .bitOr
  | 0x012 => some .bitXor
  | 0x013 => some .andn
  | 0x014 => some .orn
  | 0x015 => some .bitNot
  | 0x016 => some .bmix
  | 0x017 => some .idp4
  | 0x018 => some .shl
  | 0x019 => some .shr
  | 0x01A => some .sar
  | 0x01B => some .shf
  | 0x01C => some .rot
  | 0x01D => some .popc
  | 0x01E => some .clz
  | 0x01F => some .ctz
  | 0x020 => some .brev
  | 0x021 => some .bfx
  | 0x022 => some .bfi
  | 0x023 => some .bperm
  | 0x024 => some .readl
  | 0x025 => some .rdsys
  | 0x026 => some .wrsys
  | 0x027 => some .rand
  | 0x040 => some .fadd
  | 0x041 => some .fsub
  | 0x042 => some .fmul
  | 0x043 => some .ffma
  | 0x044 => some .fmin
  | 0x045 => some .fmax
  | 0x046 => some .fcmp
  | 0x047 => some .frnd
  | 0x048 => some .fclass
  | 0x049 => some .fscale
  | 0x04A => some .pkadd
  | 0x04B => some .pkmul
  | 0x04C => some .pkfma
  | 0x04D => some .pkmin
  | 0x04E => some .pkmax
  | 0x04F => some .pkcmp
  | 0x050 => some .frcp
  | 0x051 => some .frsq
  | 0x052 => some .fsqrt
  | 0x053 => some .fex2
  | 0x054 => some .flg2
  | 0x055 => some .fsin
  | 0x056 => some .fcos
  | 0x058 => some .cvt
  | 0x059 => some .scaleMx
  | 0x05A => some .lgmul
  | 0x05B => some .lgadd
  | 0x05C => some .cvtMx
  | 0x080 => some .xlGet
  | 0x081 => some .xlUp
  | 0x082 => some .xlDn
  | 0x083 => some .xlBfly
  | 0x084 => some .ballot
  | 0x085 => some .voteAny
  | 0x086 => some .voteAll
  | 0x087 => some .voteEq
  | 0x088 => some .lfold
  | 0x089 => some .pand
  | 0x08A => some .por
  | 0x08B => some .pxor
  | 0x08C => some .pnot
  | 0x08D => some .pmov
  | 0x08E => some .p2v
  | 0x08F => some .v2p
  | _ => none

/-- 02 R81: the M map; L1INV is divided by SIZE (14 R313). -/
def mCtor (func : Nat) (size : MSize) : Option (MOp → Instr) :=
  match func with
  | 0x001 => some .ldG
  | 0x002 => some .stG
  | 0x003 => some .ldS
  | 0x004 => some .stS
  | 0x005 => some .fence
  | 0x006 => some .pref
  | 0x008 => some .tld
  | 0x009 => some .tst
  | 0x00A => some .recLd
  | 0x00B => some .recMk
  | 0x00C => some .spgOut
  | 0x00D => some .spgIn
  | 0x010 => some .atomGAdd
  | 0x011 => some .atomGMin
  | 0x012 => some .atomGMax
  | 0x013 => some .atomGAnd
  | 0x014 => some .atomGOr
  | 0x015 => some .atomGXor
  | 0x016 => some .atomGXchg
  | 0x017 => some .atomGCas
  | 0x018 => some .atomGInc
  | 0x019 => some .atomGDec
  | 0x01A => some .atomGFadd
  | 0x020 => some .atomSAdd
  | 0x021 => some .atomSMin
  | 0x022 => some .atomSMax
  | 0x023 => some .atomSAnd
  | 0x024 => some .atomSOr
  | 0x025 => some .atomSXor
  | 0x026 => some .atomSXchg
  | 0x027 => some .atomSCas
  | 0x028 => some .atomSInc
  | 0x029 => some .atomSDec
  | 0x02A => some .atomSFadd
  | 0x007 =>
    if size = .n16 then some .l1invAll
    else if size = .b32 then some .l1invRec
    else some .l1inv
  | _ => none

/-- 02 R82: the E map. -/
def eCtor (func : Nat) : Option (EOp → Instr) :=
  match func with
  | 0x001 => some .mma
  | 0x002 => some .mmaSp
  | 0x003 => some .accZero
  | 0x004 => some .accRd
  | 0x005 => some .accWr
  | 0x006 => some .ringCfg
  | 0x007 => some .ringRst
  | 0x008 => some .ringStat
  | 0x009 => some .sqCfg
  | 0x00A => some .copyKick
  | 0x00B => some .sealTile
  | 0x00C => some .openTile
  | 0x010 => some .popInit
  | 0x011 => some .popJoin
  | 0x012 => some .popLeave
  | 0x013 => some .rsmp
  | 0x014 => some .popStat
  | 0x018 => some .spawn
  | 0x019 => some .uintArm
  | _ => none

-- the leaves

/-- 02 R41. -/
def decodeC (w : BitVec 64) : Except Reject Instr := do
  let guard ← need (Guard.ofCode (w.extractLsb' 58 6)) .guard
  let imm := w.extractLsb' 0 15
  let mk ← need (cCtor (w.extractLsb' 48 10).toNat imm) .function
  let d ← need (CDst.ofCode (w.extractLsb' 40 8)) .destination
  let pd ← need (PredRef.ofCode (w.extractLsb' 35 5)) .predicate
  let pa ← need (PredRef.ofCode (w.extractLsb' 30 5)) .predicate
  let pb ← need (PredRef.ofCode (w.extractLsb' 25 5)) .predicate
  let sa ← need (Operand.ofCode (w.extractLsb' 15 10)) .operand
  return mk { guard, d, pd, pa, pb, sa, imm }

def COp.bits (o : COp) (func : BitVec 10) : BitVec 64 :=
  o.guard.code ++ func ++ o.d.code ++ o.pd.code ++ o.pa.code ++ o.pb.code ++ o.sa.code ++ o.imm

/-- 02 R34. -/
def decodeV (slot : VSlot) (w : BitVec 96) : Except Reject Instr := do
  let guard ← need (Guard.ofCode (w.extractLsb' 90 6)) .guard
  let mk ← need (vCtor (w.extractLsb' 80 10).toNat) .function
  let type ← need (VType.ofCode (w.extractLsb' 76 4).toNat) .codeValue
  let dst ← need (Dst.ofCode (w.extractLsb' 64 10)) .destination
  let sa ← need (Operand.ofCode (w.extractLsb' 54 10)) .operand
  let sb ← need (Operand.ofCode (w.extractLsb' 44 10)) .operand
  let sc ← need (Operand.ofCode (w.extractLsb' 34 10)) .operand
  let pd ← need (PredRef.ofCode (w.extractLsb' 21 5)) .predicate
  let pc2 ← need (PredRef.ofCode (w.extractLsb' 16 5)) .predicate
  return mk { slot, guard, type, rm := Rm.ofCode (w.extractLsb' 74 2), dst, sa, sb, sc,
              drv1 := Drive.ofCode (w.extractLsb' 30 4), drv2 := Drive.ofCode (w.extractLsb' 26 4), pd, pc2,
              imm8 := w.extractLsb' 8 8, look := w.extractLsb' 4 4, sat := w.getLsbD 3, sub := w.extractLsb' 0 3 }

def VOp.bits (o : VOp) (func : BitVec 10) : BitVec 96 :=
  o.guard.code ++ func ++ o.type.code ++ o.rm.code ++ o.dst.code ++ o.sa.code ++ o.sb.code ++ o.sc.code ++
    o.drv1.code ++ o.drv2.code ++ o.pd.code ++ o.pc2.code ++ o.imm8 ++ o.look ++ BitVec.ofBool o.sat ++ o.sub

/-- 02 R44. -/
def decodeM (w : BitVec 96) : Except Reject Instr := do
  let guard ← need (Guard.ofCode (w.extractLsb' 90 6)) .guard
  let size ← need (MSize.ofCode (w.extractLsb' 76 4)) .codeValue
  let mk ← need (mCtor (w.extractLsb' 80 10).toNat size) .function
  let scope ← need (Scope.ofCode (w.extractLsb' 71 3)) .codeValue
  let cpol ← need (CPol.ofCode (w.extractLsb' 67 2)) .codeValue
  let dst ← need (Dst.ofCode (w.extractLsb' 57 10)) .destination
  let aa ← need (Operand.ofCode (w.extractLsb' 47 10)) .operand
  let ab ← need (Operand.ofCode (w.extractLsb' 37 10)) .operand
  let da ← need (Operand.ofCode (w.extractLsb' 27 10)) .operand
  let db ← need (Operand.ofCode (w.extractLsb' 17 10)) .operand
  return mk { guard, size, cls := w.extractLsb' 74 2, scope, order := MOrder.ofCode (w.extractLsb' 69 2), cpol, dst,
              aa, ab, da, db, buf := w.extractLsb' 12 5, drv := Drive.ofCode (w.extractLsb' 8 4),
              ofs := w.extractLsb' 0 8 }

def MOp.bits (o : MOp) (func : BitVec 10) : BitVec 96 :=
  o.guard.code ++ func ++ o.size.code ++ o.cls ++ o.scope.code ++ o.order.code ++ o.cpol.code ++ o.dst.code ++
    o.aa.code ++ o.ab.code ++ o.da.code ++ o.db.code ++ o.buf ++ o.drv.code ++ o.ofs

/-- 02 R46. -/
def decodeE (w : BitVec 64) : Except Reject Instr := do
  let guard ← need (Guard.ofCode (w.extractLsb' 58 6)) .guard
  let mk ← need (eCtor (w.extractLsb' 48 10).toNat) .function
  let src ← need (Operand.ofCode (w.extractLsb' 22 10)) .operand
  let dst ← need (Dst.ofCode (w.extractLsb' 12 10)) .destination
  return mk { guard, acc := w.extractLsb' 44 4, ka := w.extractLsb' 40 4, kb := w.extractLsb' 36 4,
              xb := w.extractLsb' 32 4, src, dst, drv := Drive.ofCode (w.extractLsb' 8 4), cmd := w.extractLsb' 0 8 }

def EOp.bits (o : EOp) (func : BitVec 10) : BitVec 64 :=
  o.guard.code ++ func ++ o.acc ++ o.ka ++ o.kb ++ o.xb ++ o.src.code ++ o.dst.code ++ o.drv.code ++ o.cmd

/-- 02 R32: the width of a leaf in bytes. -/
def SlotClass.leafBytes : SlotClass → Nat
  | .c | .e => 8
  | .v0 | .v1 | .m => 12

/-- The fields of a leaf of a slot class, before the hazard filter. -/
def decodeLeafFields (cls : SlotClass) (w : Nat) : Except Reject Instr :=
  match cls with
  | .c => decodeC (BitVec.ofNat 64 w)
  | .v0 => decodeV .v0 (BitVec.ofNat 96 w)
  | .v1 => decodeV .v1 (BitVec.ofNat 96 w)
  | .m => decodeM (BitVec.ofNat 96 w)
  | .e => decodeE (BitVec.ofNat 64 w)

/-- A leaf through the hazard filter (02 R50, R51): an instruction, or the name of its refusal. -/
def decodeLeaf (cls : SlotClass) (w : Nat) : Except Reject Instr :=
  match decodeLeafFields cls w with
  | .ok i => if i.wf then .ok i else .error .admission
  | .error r => .error r

-- the bundle stream (02 R52 to R56)

/-- The fields of a bundle's header halfword (02 R52). -/
structure Header where
  len : Nat
  ew : Nat
  ck : Bool
  lits : Nat
  pres : BitVec 5
  deriving DecidableEq, Repr

def Header.ofHalf (h : Half) : Header :=
  { len := natBits h.toNat 12 4, ew := natBits h.toNat 8 4, ck := h.getLsbD 7, lits := natBits h.toNat 5 2,
    pres := h.setWidth 5 }

/-- A decoded bundle: the indices of its present slots, its lookaheads and its literals (02 R54). -/
structure Bundle where
  header : Header
  idx : List (SlotClass × Nat)
  lookM : Nat
  lookE : Nat
  lits : List Word
  deriving DecidableEq, Repr

/-- 02 R55: an index at bit position `at_` of the body, and the position after it. -/
def readIndex (body at_ : Nat) : Nat × Nat :=
  if natBits body at_ 1 = 0 then (natBits body (at_ + 1) 4, at_ + 5)
  else if natBits body (at_ + 1) 1 = 0 then (natBits body (at_ + 2) 7, at_ + 9)
  else if natBits body (at_ + 2) 1 = 0 then (natBits body (at_ + 3) 9, at_ + 12)
  else (natBits body (at_ + 3) 12, at_ + 15)

/-- The indices and lookahead fields of the present slots, in the order of 02 R54. -/
def readSlots (body : Nat) (pres : BitVec 5) :
    List (SlotClass × Nat) → Nat × Nat × List (SlotClass × Nat) × Nat → Nat × Nat × List (SlotClass × Nat) × Nat
  | [], acc => acc
  | (cls, k) :: rest, (lm, le, out, pos) =>
    if pres.getLsbD k then
      let (i, p) := readIndex body pos
      match cls with
      | .m => readSlots body pres rest (natBits body p 4, le, out ++ [(cls, i)], p + 4)
      | .e => readSlots body pres rest (lm, natBits body p 4, out ++ [(cls, i)], p + 4)
      | _ => readSlots body pres rest (lm, le, out ++ [(cls, i)], p)
    else readSlots body pres rest (lm, le, out, pos)

/-- The body's halfwords as one number, halfword 0 lowest (02 R53). -/
def bodyNat : List Half → Nat
  | [] => 0
  | h :: t => h.toNat + 2 ^ 16 * bodyNat t

def slotOrder : List (SlotClass × Nat) := [(.c, 0), (.v0, 1), (.v1, 2), (.m, 3), (.e, 4)]

/-- A bundle from exactly its LEN + 1 halfwords; none when it is malformed (02 R56). -/
def decodeBundle : List Half → Option Bundle
  | [] => none
  | h :: rest =>
    let hd := Header.ofHalf h
    let body := bodyNat rest
    let (lm, le, idx, pos) := readSlots body hd.pres slotOrder (0, 0, [], 0)
    let bits := pos + 32 * hd.lits
    if hd.lits = 3 ∨ rest.length ≠ hd.len ∨ (bits + 15) / 16 ≠ hd.len ∨ body / 2 ^ bits ≠ 0 then none
    else some { header := hd, idx, lookM := lm, lookE := le,
                lits := (List.range hd.lits).map (fun k => BitVec.ofNat 32 (natBits body (pos + 32 * k) 32)) }

-- the command packets (25 R447, R448)

/-- Two words as an address or value, low word first. -/
def pair64 (lo hi : Word) : DWord := hi ++ lo
def lo32 (d : DWord) : Word := d.setWidth 32
def hi32 (d : DWord) : Word := d.extractLsb' 32 32

/-- 25 R448: the length in words a packet of this OP has: least, and whether it is fixed; none for a reserved OP. -/
def packetDw (op : Nat) : Option (Nat × Bool) :=
  match op with
  | 0x00 => some (1, false)
  | 0x01 => some (7, false)
  | 0x02 => some (4, true)
  | 0x03 => some (6, true)
  | 0x04 => some (3, true)
  | 0x05 => some (6, true)
  | 0x06 => some (4, false)
  | 0x07 => some (6, true)
  | 0x08 => some (17, true)
  | 0x09 => some (3, true)
  | 0x0A => some (2, true)
  | 0x0B => some (5, true)
  | 0x0C => some (1, true)
  | _ => none

/-- 25 R448: the streams a packet is allowed in. -/
def packetAllowed (op : Nat) (st : Stream) : Bool :=
  match op with
  | 0x01 | 0x08 | 0x09 => st.isCtx
  | 0x0A => st.isCtl
  | _ => st.ok

/-- The header checks of 25 R449: the packet's OP and length in words. -/
def decodePacketHeader (st : Stream) (h : Word) : Except Reject (Nat × Nat) :=
  let op := natBits h.toNat 24 8
  let dw := natBits h.toNat 0 16
  match packetDw op with
  | none => .error .reservedCode
  | some (least, fixed) =>
    if natBits h.toNat 16 8 ≠ 0 then .error .reservedCode
    else if dw < least ∨ (fixed ∧ dw ≠ least) ∨ (op = 1 ∧ 71 < dw) then .error .packetLength
    else if packetAllowed op st = false then .error .notAllowed
    else .ok (op, dw)

/-- An address operand: 57 bits, aligned. -/
def addrOperand (lo hi : Word) (align : Nat) : Except Reject DWord :=
  let a := pair64 lo hi
  if va57 a = false then .error .reservedCode
  else if a.toNat % align ≠ 0 then .error .misaligned
  else .ok a

def TestOp.ofCode (c : Nat) : Option TestOp := [TestOp.eq, .ne, .below, .notBelow][c]?

def TestOp.code : TestOp → BitVec 32
  | .eq => 0 | .ne => 1 | .below => 2 | .notBelow => 3

/-- The payload of PRED and WAIT. -/
def decodeTest (p : List Word) : Except Reject (MemTest × Byte) :=
  match p with
  | [lo, hi, mask, value, c] => do
    let op ← need (TestOp.ofCode (natBits c.toNat 0 8)) .reservedCode
    if natBits c.toNat 16 16 ≠ 0 then .error .reservedCode
    else
      let addr ← addrOperand lo hi 4
      return ({ addr, mask, value, op }, c.extractLsb' 8 8)
  | _ => .error .packetLength

/-- A command packet from its words, header first; the words are as many as DW says. -/
def decodePacket (st : Stream) : List Word → Except Reject Instr
  | [] => .error .packetLength
  | h :: p => do
    let (op, dw) ← decodePacketHeader st h
    if p.length + 1 ≠ dw then .error .packetLength
    else
      match op, p with
      | 0x00, _ => return .cpNop st (BitVec.ofNat 16 dw)
      | 0x01, slo :: shi :: clo :: chi :: fl :: decl :: args =>
        let spine ← addrOperand slo shi 1
        let completion ← addrOperand clo chi 8
        if 2 ≤ fl.toNat then .error .reservedCode
        else return .launch st { spine, completion, rgrid := fl.getLsbD 0, declared := decl, args }
      | 0x02, [lo, hi, n] =>
        let a ← addrOperand lo hi 4
        if n.toNat = 0 ∨ 2 ^ 20 < n.toNat then .error .packetLength
        else return .ib st a n
      | 0x03, _ =>
        let (t, skip) ← decodeTest p
        if skip = 0 then .error .reservedCode
        else return .pred st t skip
      | 0x04, [passes, range] =>
        if passes.toNat = 0 ∨ 65535 < passes.toNat ∨ range.toNat = 0 ∨ 125 < range.toNat then .error .loopRange
        else return .cpLoop st passes range
      | 0x05, _ =>
        let (t, skip) ← decodeTest p
        if skip ≠ 0 then .error .reservedCode
        else return .wait st t
      | 0x06, lo :: hi :: data =>
        let a ← addrOperand lo hi 4
        return .write st a data
      | 0x07, [lo, hi, vlo, vhi, f] =>
        if natBits f.toNat 11 20 ≠ 0 then .error .reservedCode
        else
          let a ← addrOperand lo hi 8
          return .signal st a (pair64 vlo vhi) (f.setWidth 11) (f.getLsbD 31)
      | 0x08, _ => return .copy st p
      | 0x09, [lo, hi] =>
        let a ← addrOperand lo hi 1
        return .popDesc st a
      | 0x0A, [t] =>
        if 4 ≤ t.toNat then .error .reservedCode
        else return .ctxsw st (t.setWidth 2)
      | 0x0B, [lo, hi, tlo, thi] =>
        let a ← addrOperand lo hi 8
        return .timestamp st a (pair64 tlo thi)
      | 0x0C, [] => return .fetchFence st
      | _, _ => .error .packetLength

-- the encoder

def packetHeader (op dw : Nat) : Word := BitVec.ofNat 32 (op * 2 ^ 24 + dw)

def encodeTest (op : Nat) (t : MemTest) (skip : Byte) : List Word :=
  [packetHeader op 6, lo32 t.addr, hi32 t.addr, t.mask, t.value, t.op.code ||| (skip.setWidth 32 <<< 8)]

/-- The words of a command packet (25 R448); NOP's ignored payload is zeros. -/
def encodePacket : Instr → List Word
  | .cpNop _ dw => packetHeader 0 dw.toNat :: List.replicate (dw.toNat - 1) 0
  | .launch _ k =>
    [packetHeader 1 (7 + k.args.length), lo32 k.spine, hi32 k.spine, lo32 k.completion, hi32 k.completion,
      (BitVec.ofBool k.rgrid).setWidth 32, k.declared] ++ k.args
  | .ib _ a n => [packetHeader 2 4, lo32 a, hi32 a, n]
  | .pred _ t skip => encodeTest 3 t skip
  | .cpLoop _ passes range => [packetHeader 4 3, passes, range]
  | .wait _ t => encodeTest 5 t 0
  | .write _ a data => [packetHeader 6 (3 + data.length), lo32 a, hi32 a] ++ data
  | .signal _ a v vec irq =>
    [packetHeader 7 6, lo32 a, hi32 a, lo32 v, hi32 v, vec.setWidth 32 ||| ((BitVec.ofBool irq).setWidth 32 <<< 31)]
  | .copy _ rec => packetHeader 8 17 :: rec
  | .popDesc _ a => [packetHeader 9 3, lo32 a, hi32 a]
  | .ctxsw _ t => [packetHeader 10 2, t.setWidth 32]
  | .timestamp _ a t => [packetHeader 11 5, lo32 a, hi32 a, lo32 t, hi32 t]
  | .fetchFence _ => [packetHeader 12 1]
  | _ => []

/-- The bits of a slot operation's leaf, or none for the other steps. -/
def encodeLeaf (i : Instr) : Option Nat :=
  match i.leaf with
  | .c o sp => some (o.bits sp.func).toNat
  | .v o sp => some (o.bits sp.func).toNat
  | .m o sp => some (o.bits sp.func).toNat
  | .e o sp => some (o.bits sp.func).toNat
  | .none => none

/-- The slot class of a slot operation. -/
def Instr.slotClass (i : Instr) : Option SlotClass :=
  match i.leaf with
  | .c _ _ => some .c
  | .v o _ => some (if o.slot = .v0 then .v0 else .v1)
  | .m _ _ => some .m
  | .e _ _ => some .e
  | .none => none

/-- A number as `n` 32-bit words, lowest first. -/
def natWords : Nat → Nat → List Word
  | 0, _ => []
  | n + 1, w => BitVec.ofNat 32 w :: natWords n (w / 2 ^ 32)

/-- The 32-bit words of a well-formed instruction, lowest first: a leaf (02 R33) or a packet (25 R447). The steps that no
slot and no packet issues have no words. -/
def encode (i : Instr) : List Word :=
  match i.slotClass, encodeLeaf i with
  | some cls, some w => natWords (cls.leafBytes / 4) w
  | _, _ => encodePacket i

/-- The slot classes whose leaves have a number of bits (02 R32). -/
def classesOf (nbits : Nat) : List SlotClass := if nbits = 64 then [.c, .e] else if nbits = 96 then [.v0, .m] else []

/-- The class as whose leaf bits are read, if any admits them. -/
def tableClass (nbits w : Nat) : Option SlotClass := (classesOf nbits).find? (fun k => (decodeLeaf k w).toOption.isSome)

/-- The words of a packet whose header's DW counts them; those that `w` does not reach are 0. -/
def tablePacket (nbits w : Nat) : List Word := natWords (Nat.max (nbits / 32) (w % 2 ^ 16)) w

/-- The context stream 0 of partition 1, and its control stream. -/
def tableStream : Stream := { part := 1, idx := 0 }
def tableControl : Stream := { part := 1, idx := 4 }

/-- The instruction whose bits are `w` (bit 0 the least significant bit of its first word): 64 bits are a C leaf, or else an
E leaf; 96 bits a V leaf, or else an M leaf; anything else a command packet of context stream 0 of partition 1, or else of
its control stream. -/
def decodeTableWord (nbits w : Nat) : Option Instr :=
  match tableClass nbits w with
  | some k => (decodeLeaf k w).toOption
  | none =>
    match decodePacket tableStream (tablePacket nbits w) with
    | .ok i => some i
    | .error _ => (decodePacket tableControl (tablePacket nbits w)).toOption

end Sys2Proof
end

