-- ==== Sys2Proof/Machine/Numeric.lean ====
section
/-!
DEFINITION. Exact numbers, the element formats and every rounding of chapter 03: value (R85), round_fmt (R88 to R90),
round_lg6 (R91), the integer helpers (R93) and the counter mixer (R94).
-/
namespace Sys2Proof.Machine

-- 03 R93: the integer helpers

/-- wrap as a bit pattern: v modulo 2^w. -/
def wrapNat (v : Int) (w : Nat) : Nat := (v % (2 ^ w : Nat)).toNat

/-- sext: a w-bit pattern as a two's-complement integer; 0 for no bits. -/
def sextNat (x w : Nat) : Int :=
  let y := x % 2 ^ w
  if 2 ^ w ≤ 2 * y then (y : Int) - (2 ^ w : Nat) else y

def clampInt (v lo hi : Int) : Int := if v < lo then lo else if hi < v then hi else v

/-- sats: clamped to the signed range. -/
def satsInt (v : Int) (w : Nat) : Int := clampInt v (-(2 ^ (w - 1) : Nat)) ((2 ^ (w - 1) : Nat) - 1)

/-- satu: clamped to the unsigned range. -/
def satuInt (v : Int) (w : Nat) : Int := clampInt v 0 ((2 ^ w : Nat) - 1)

/-- A signed pattern as an integer, or an unsigned one. -/
def intOf (signed : Bool) (x w : Nat) : Int := if signed then sextNat x w else (x % 2 ^ w : Nat)

/-- The low bits of a product kept at 64 bits. -/
def mul64 (a b : Nat) : Nat := a * b % 2 ^ 64

/-- One round of the mixer of 03 R94. -/
def mixRound (x : Nat) : Nat :=
  let x := Nat.xor x (x / 2 ^ 29)
  let x := mul64 x 0x6E2DB1C9F0A73D45
  let x := Nat.xor x (x / 2 ^ 32)
  let x := mul64 x 0x9C7F14D3A26B58E1
  Nat.xor x (x / 2 ^ 27)

/-- 03 R94: the counter mixer. -/
def mix (key ctr : Nat) : Nat :=
  mixRound (mixRound (mixRound (Nat.xor (key % 2 ^ 64) (mul64 ctr 0x9C7F14D3A26B58E1))))

-- exact numbers

/-- An exact value: (−1)^neg × (m + a fraction when `more`) × 2^e. `more` says that the real value lies strictly between
m and m + 1 units; only roots, reciprocals and LG6 values need it. A zero keeps its sign. -/
inductive Exact where
  | nan
  | inf (neg : Bool)
  | num (neg : Bool) (m : Nat) (e : Int) (more : Bool)
  deriving DecidableEq, Repr

def Exact.zero (neg : Bool) : Exact := .num neg 0 0 false

def Exact.ofInt (v : Int) : Exact := .num (decide (v < 0)) v.natAbs 0 false

/-- An integer in units of 2^e. -/
def Exact.scaled (v e : Int) : Exact := .num (decide (v < 0)) v.natAbs e false

def Exact.isZero : Exact → Bool
  | .num _ m _ more => m == 0 && !more
  | _ => false

def Exact.isNan : Exact → Bool
  | .nan => true
  | _ => false

def Exact.isInf : Exact → Bool
  | .inf _ => true
  | _ => false

def Exact.neg : Exact → Exact
  | .nan => .nan
  | .inf n => .inf !n
  | .num n m e k => .num (!n) m e k

/-- v × 2^k. -/
def Exact.shift (v : Exact) (k : Int) : Exact :=
  match v with
  | .num n m e more => .num n m (e + k) more
  | v => v

/-- m × 2^e as an integer in units of 2^u, for u ≤ e. -/
def inUnits (m : Nat) (e u : Int) : Nat := m * 2 ^ (e - u).toNat

def signedNat (neg : Bool) (m : Nat) : Int := if neg then -(m : Int) else m

/-- The exact product (03 R89): zero times infinity is NaN. -/
def Exact.mul (a b : Exact) : Exact :=
  match a, b with
  | .nan, _ => .nan
  | _, .nan => .nan
  | .inf x, .inf y => .inf (x != y)
  | .inf x, .num y m _ _ => if m = 0 then .nan else .inf (x != y)
  | .num x m _ _, .inf y => if m = 0 then .nan else .inf (x != y)
  | .num x m e _, .num y n f _ => .num (x != y) (m * n) (e + f) false

/-- The exact sum; an exact zero is +0, or −0 in the downward mode, except that zeros of one sign keep it (03 R89). -/
def Exact.add (down : Bool) (a b : Exact) : Exact :=
  match a, b with
  | .nan, _ => .nan
  | _, .nan => .nan
  | .inf x, .inf y => if x = y then .inf x else .nan
  | .inf x, .num _ _ _ _ => .inf x
  | .num _ _ _ _, .inf y => .inf y
  | .num x m e _, .num y n f _ =>
    if m = 0 ∧ n = 0 then (if x = y then .num x 0 0 false else .num down 0 0 false)
    else
      let u := if e ≤ f then e else f
      let s := signedNat x (inUnits m e u) + signedNat y (inUnits n f u)
      if s = 0 then .num down 0 0 false else .scaled s u

/-- Whether a finite value is below another. -/
def finiteLt (x : Bool) (m : Nat) (e : Int) (y : Bool) (n : Nat) (f : Int) : Bool :=
  let u := if e ≤ f then e else f
  decide (signedNat x (inUnits m e u) < signedNat y (inUnits n f u))

/-- Less-than of values that are not NaN; −0 equals +0. -/
def Exact.lt (a b : Exact) : Bool :=
  match a, b with
  | .inf x, .inf y => x && !y
  | .inf x, .num _ _ _ _ => x
  | .num _ _ _ _, .inf y => !y
  | .num x m e _, .num y n f _ => finiteLt x m e y n f
  | _, _ => false

/-- Equality of exact values; NaN equals nothing, and a value with `more` is no dyadic number. -/
def Exact.same (a b : Exact) : Bool :=
  match a, b with
  | .inf x, .inf y => x == y
  | .num x m e k, .num y n f l => !k && !l && !finiteLt x m e y n f && !finiteLt y n f x m e
  | _, _ => false

def Exact.abs : Exact → Exact
  | .nan => .nan
  | .inf _ => .inf false
  | .num _ m e k => .num false m e k

-- the formats (03 R84)

/-- A binary floating-point format: fraction bits, bias, sign bit, the code of the largest finite magnitude, the code of
infinity where there is one, the NaN produced, and whether all exponent codes but NaN are finite. -/
structure FloatFmt where
  frac : Nat
  bias : Nat
  sign : Nat
  maxMag : Nat
  inf : Option Nat
  nan : Option Nat
  deriving DecidableEq, Repr

def fp32 : FloatFmt := { frac := 23, bias := 127, sign := 31, maxMag := 0x7F7FFFFF, inf := some 0x7F800000, nan := some 0x7FC00000 }
def bf16 : FloatFmt := { frac := 7, bias := 127, sign := 15, maxMag := 0x7F7F, inf := some 0x7F80, nan := some 0x7FC0 }
def e4m3 : FloatFmt := { frac := 3, bias := 7, sign := 7, maxMag := 0x7E, inf := none, nan := some 0x7F }
def e5m2 : FloatFmt := { frac := 2, bias := 15, sign := 7, maxMag := 0x7B, inf := some 0x7C, nan := some 0x7E }
def e2m1 : FloatFmt := { frac := 1, bias := 1, sign := 3, maxMag := 0x7, inf := none, nan := none }

/-- The finite value of a code (03 R85). -/
def FloatFmt.finite (f : FloatFmt) (code : Nat) : Exact :=
  let mag := code % 2 ^ f.sign
  let neg := decide (code / 2 ^ f.sign % 2 = 1)
  let e := mag / 2 ^ f.frac
  let fr := mag % 2 ^ f.frac
  if e = 0 then .num neg fr (1 - f.bias - f.frac : Int) false
  else .num neg (2 ^ f.frac + fr) ((e : Int) - f.bias - f.frac) false

/-- value(x) (03 R85). -/
def FloatFmt.value (f : FloatFmt) (code : Nat) : Exact :=
  let mag := code % 2 ^ f.sign
  if mag ≤ f.maxMag then f.finite code
  else if f.inf = some mag then .inf (decide (code / 2 ^ f.sign % 2 = 1))
  else .nan

/-- The rounding modes of fmt.RND (01 R12) and of RM. -/
inductive Rnd where
  | near | zero | down | up | stoch
  deriving DecidableEq, Repr

def rmRnd : Rm → Rnd
  | .near => .near | .zero => .zero | .down => .down | .up => .up

/-- fmt.RND; 5 to 7 are reserved and never held (01 R13). -/
def Rnd.ofCode (c : Nat) : Rnd :=
  match c with
  | 0 => .near | 1 => .zero | 2 => .down | 3 => .up | _ => .stoch

/-- Whether a mode is one of the "away" modes for a sign (03 R88, overflow table). -/
def Rnd.away (r : Rnd) (neg : Bool) : Bool :=
  match r with
  | .near | .stoch => true
  | .zero => false
  | .down => neg
  | .up => !neg

/-- Whether a directed mode moves this sign away from zero. -/
def Rnd.outward (r : Rnd) (neg : Bool) : Bool :=
  match r with
  | .down => neg
  | .up => !neg
  | _ => false

/-- 03 R88 step 3, R90: m × 2^e rounded to a whole number of units of 2^u. -/
def roundUnits (r : Rnd) (neg : Bool) (m : Nat) (e : Int) (more : Bool) (u : Int) (rbits : Nat) : Nat :=
  if u ≤ e then inUnits m e u
  else
    let d := (u - e).toNat
    let q := m / 2 ^ d
    let rest := m % 2 ^ d
    let up :=
      match r with
      | .near => decide (2 ^ d < 2 * rest) || (decide (2 * rest = 2 ^ d) && (more || q % 2 == 1))
      | .stoch => decide (2 ^ 32 ≤ rest * 2 ^ 32 / 2 ^ d + rbits)
      | .zero => false
      | .down | .up => r.outward neg && (rest != 0 || more)
    if up then q + 1 else q

def FloatFmt.withSign (f : FloatFmt) (neg : Bool) (mag : Nat) : Nat := if neg then 2 ^ f.sign + mag else mag

/-- 03 R88: the special-input code of an infinity. -/
def FloatFmt.infCode (f : FloatFmt) (neg sat : Bool) : Nat :=
  match f.inf, f.nan with
  | some i, _ => f.withSign neg (if sat then f.maxMag else i)
  | none, some n => if sat then f.withSign neg f.maxMag else n
  | none, none => f.withSign neg f.maxMag

/-- 03 R88 with a floating-point target. -/
def roundFloat (v : Exact) (f : FloatFmt) (r : Rnd) (sat : Bool) (rbits : Nat) : Nat :=
  match v with
  | .nan => f.nan.getD 0
  | .inf neg => f.infCode neg sat
  | .num neg m e more =>
    if m = 0 then f.withSign neg 0
    else
      let umin : Int := 1 - f.bias - f.frac
      let un : Int := (Nat.log2 m : Int) + e - f.frac
      let u := if un < umin then umin else un
      let mag := (u - umin).toNat * 2 ^ f.frac + roundUnits r neg m e more u rbits
      if mag ≤ f.maxMag then f.withSign neg mag
      else if r.away neg then f.infCode neg sat
      else f.withSign neg f.maxMag

/-- 03 R88 with an integer target of width w. -/
def roundInt (v : Exact) (signed : Bool) (w : Nat) (r : Rnd) (rbits : Nat) : Nat :=
  let lo : Int := if signed then -(2 ^ (w - 1) : Nat) else 0
  let hi : Int := if signed then (2 ^ (w - 1) : Nat) - 1 else (2 ^ w : Nat) - 1
  match v with
  | .nan => 0
  | .inf neg => wrapNat (if neg then lo else hi) w
  | .num neg m e more => wrapNat (clampInt (signedNat neg (roundUnits r neg m e more 0 rbits)) lo hi) w

-- LG6

/-- One bit of an integer square root, from bit k down. -/
def isqrtFrom (n : Nat) : Nat → Nat → Nat
  | 0, acc => acc
  | k + 1, acc =>
    let t := acc + 2 ^ k
    if t * t ≤ n then isqrtFrom n k t else isqrtFrom n k acc

/-- The integer square root. -/
def isqrt (n : Nat) : Nat := isqrtFrom n (Nat.log2 n / 2 + 1) 0

/-- 03 R85: the value of an LG6 code, 2^((L − 16)/4), with 64 bits below the leading one. -/
def lg6Value (code : Nat) : Exact :=
  let l := code % 32
  let neg := decide (code / 32 % 2 = 1)
  if l = 0 then .zero neg
  else
    let s : Int := (l : Int) - 16
    let k := s / 4
    let r := (s % 4).toNat
    if r = 0 then .num neg 1 k false
    else .num neg (isqrt (isqrt (2 ^ (r + 256)))) (k - 64) true

/-- 03 R91: round_lg6. -/
def roundLg6 (v : Exact) (r : Rnd) : Nat :=
  match v with
  | .nan => 0
  | .inf neg => (if neg then 32 else 0) + 31
  | .num neg m e _ =>
    let sg := if neg then 32 else 0
    if m = 0 then sg
    else
      let lg := Nat.log2 m
      let k : Int := (lg : Int) + e
      let m4 := m ^ 4
      let j : Nat := (if 2 ^ (4 * lg + 1) ≤ m4 then 1 else 0) + (if 2 ^ (4 * lg + 2) ≤ m4 then 1 else 0) +
        (if 2 ^ (4 * lg + 3) ≤ m4 then 1 else 0)
      let n0 : Int := 4 * k + j + 16
      let inc :=
        match r with
        | .near | .stoch => decide (2 ^ (8 * lg + 2 * j + 1) ≤ m4 * m4)
        | _ => r.outward neg && m4 != 2 ^ (4 * lg + j)
      let n : Int := if inc then n0 + 1 else n0
      let n : Int := if 31 < n then 31 else if n < 1 then (if r.outward neg then 1 else 0) else n
      sg + n.toNat

/-- The linear value of an LG6 step f in 2^-22 (03 R99, table LT). -/
def lgTable (f : Nat) : Nat := [4194304, 4987896, 5931642, 7053950].getD f 0

-- E8M0

/-- The value of a block scale as a power of two; none for NaN (03 R85). -/
def e8m0 (code : Nat) : Option Int := if code = 0xFF then none else some ((code : Int) - 127)

/-- 03 R97: scaled(S, ea, eb). -/
def scaledBy (s : Exact) (ea eb : Nat) : Exact :=
  match e8m0 ea, e8m0 eb with
  | some x, some y => s.shift (x + y)
  | _, _ => .nan

end Sys2Proof.Machine
end

