-- ==== Sys2Proof/Machine/Transc.lean ====
section
/-!
DEFINITION. The transcendental reference algorithms of chapter 03 (R102 to R106), with the tables and coefficients that
R103 defines (each the integer nearest to the named constant in its unit), and the table of 18 R376.
-/
namespace Sys2Proof.Machine

/-- 03 R103: TE[i], 2^(i/64) in units of 2^-30. -/
def tableTE : List Nat :=
  [1073741824, 1085434106, 1097253708, 1109202018, 1121280436, 1133490379, 1145833280, 1158310587, 1170923762, 1183674286, 1196563654, 1209593378, 1222764986, 1236080024, 1249540052, 1263146652] ++
  [1276901417, 1290805962, 1304861917, 1319070932, 1333434672, 1347954824, 1362633090, 1377471191, 1392470869, 1407633882, 1422962010, 1438457051, 1454120821, 1469955159, 1485961921, 1502142985] ++
  [1518500250, 1535035634, 1551751076, 1568648537, 1585730000, 1602997467, 1620452965, 1638098541, 1655936265, 1673968228, 1692196547, 1710623359, 1729250827, 1748081133, 1767116489, 1786359126] ++
  [1805811301, 1825475297, 1845353420, 1865448001, 1885761398, 1906295993, 1927054196, 1948038440, 1969251188, 1990694927, 2012372174, 2034285470, 2056437387, 2078830522, 2101467502, 2124350982]
/-- 03 R103: TR[i], 64/(64 + i) in units of 2^-30. -/
def tableTR : List Nat :=
  [1073741824, 1057222719, 1041204193, 1025663832, 1010580540, 995934445, 981706811, 967879954, 954437177, 941362695, 928641578, 916259690, 904203641, 892460737, 881018933, 869866794] ++
  [858993459, 848388602, 838042399, 827945503, 818089009, 808464432, 799063683, 789879043, 780903145, 772128952, 763549742, 755159085, 746950834, 738919105, 731058263, 723362913] ++
  [715827883, 708448214, 701219150, 694136129, 687194767, 680390859, 673720360, 667179386, 660764199, 654471207, 648296950, 642238100, 636291451, 630453915, 624722516, 619094385] ++
  [613566757, 608136962, 602802428, 597560667, 592409282, 587345955, 582368447, 577474594, 572662306, 567929560, 563274399, 558694933, 554189329, 549755814, 545392673, 541098242]
/-- 03 R103: TL[i], log2((64 + i)/64) in units of 2^-30. -/
def tableTL : List Nat :=
  [0, 24017256, 47667823, 70962728, 93912511, 116527248, 138816582, 160789745, 182455581, 203822568, 224898839, 245692198, 266210141, 286459867, 306448299, 326182095] ++
  [345667660, 364911162, 383918542, 402695523, 421247625, 439580170, 457698295, 475606957, 493310944, 510814882, 528123241, 545240343, 562170370, 578917365, 595485245, 611877800] ++
  [628098702, 644151509, 660039669, 675766525, 691335320, 706749198, 722011213, 737124328, 752091421, 766915285, 781598637, 796144114, 810554283, 824831638, 838978604, 852997541] ++
  [866890747, 880660455, 894308843, 907838029, 921250079, 934547002, 947730758, 960803257, 973766362, 986621888, 999371606, 1012017244, 1024560487, 1037002979, 1049346328, 1061592099]
/-- 03 R103: TS[j], sin(2 pi j/256) in units of 2^-30. -/
def tableTS : List Nat :=
  [0, 26350943, 52686014, 78989349, 105245103, 131437462, 157550647, 183568930, 209476638, 235258165, 260897982, 286380643, 311690799, 336813204, 361732726, 386434353] ++
  [410903207, 435124548, 459083786, 482766489, 506158392, 529245404, 552013618, 574449320, 596538995, 618269338, 639627258, 660599890, 681174602, 701339000, 721080937, 740388522] ++
  [759250125, 777654384, 795590213, 813046808, 830013654, 846480531, 862437520, 877875009, 892783698, 907154608, 920979082, 934248793, 946955747, 959092290, 970651112, 981625251] ++
  [992008094, 1001793390, 1010975242, 1019548121, 1027506862, 1034846671, 1041563127, 1047652185, 1053110176, 1057933813, 1062120190, 1065666786, 1068571464, 1070832474, 1072448455, 1073418433]
/-- 03 R103: TC[j], cos(2 pi j/256) in units of 2^-30. -/
def tableTC : List Nat :=
  [1073741824, 1073418433, 1072448455, 1070832474, 1068571464, 1065666786, 1062120190, 1057933813, 1053110176, 1047652185, 1041563127, 1034846671, 1027506862, 1019548121, 1010975242, 1001793390] ++
  [992008094, 981625251, 970651112, 959092290, 946955747, 934248793, 920979082, 907154608, 892783698, 877875009, 862437520, 846480531, 830013654, 813046808, 795590213, 777654384] ++
  [759250125, 740388522, 721080937, 701339000, 681174602, 660599890, 639627258, 618269338, 596538995, 574449320, 552013618, 529245404, 506158392, 482766489, 459083786, 435124548] ++
  [410903207, 386434353, 361732726, 336813204, 311690799, 286380643, 260897982, 235258165, 209476638, 183568930, 157550647, 131437462, 105245103, 78989349, 52686014, 26350943]
/-- 18 R376: TQ[f], 2^(-f/256) in units of 2^-31. -/
def tableTQ : List Nat :=
  [2147483648, 2141676973, 2135885998, 2130110682, 2124350982, 2118606857, 2112878262, 2107165158, 2101467502, 2095785251, 2090118366, 2084466803, 2078830522, 2073209480, 2067603638, 2062012954] ++
  [2056437387, 2050876895, 2045331439, 2039800978, 2034285470, 2028784876, 2023299156, 2017828268, 2012372174, 2006930832, 2001504204, 1996092249, 1990694927, 1985312200, 1979944027, 1974590370] ++
  [1969251188, 1963926443, 1958616096, 1953320108, 1948038440, 1942771053, 1937517909, 1932278970, 1927054196, 1921843549, 1916646992, 1911464486, 1906295993, 1901141476, 1896000896, 1890874216] ++
  [1885761398, 1880662405, 1875577199, 1870505744, 1865448001, 1860403934, 1855373507, 1850356681, 1845353420, 1840363688, 1835387448, 1830424663, 1825475297, 1820539314, 1815616678, 1810707353] ++
  [1805811301, 1800928489, 1796058879, 1791202437, 1786359126, 1781528911, 1776711757, 1771907628, 1767116489, 1762338305, 1757573041, 1752820662, 1748081133, 1743354420, 1738640488, 1733939301] ++
  [1729250827, 1724575029, 1719911875, 1715261330, 1710623359, 1705997930, 1701385007, 1696784557, 1692196547, 1687620943, 1683057710, 1678506817, 1673968228, 1669441912, 1664927835, 1660425963] ++
  [1655936265, 1651458706, 1646993254, 1642539877, 1638098541, 1633669214, 1629251865, 1624846459, 1620452965, 1616071351, 1611701585, 1607343634, 1602997467, 1598663052, 1594340357, 1590029350] ++
  [1585730000, 1581442275, 1577166143, 1572901575, 1568648537, 1564406999, 1560176931, 1555958300, 1551751076, 1547555228, 1543370725, 1539197537, 1535035634, 1530884983, 1526745556, 1522617322] ++
  [1518500250, 1514394310, 1510299473, 1506215708, 1502142985, 1498081275, 1494030547, 1489990772, 1485961921, 1481943963, 1477936870, 1473940611, 1469955159, 1465980482, 1462016553, 1458063343] ++
  [1454120821, 1450188960, 1446267730, 1442357104, 1438457051, 1434567544, 1430688553, 1426820052, 1422962010, 1419114401, 1415277195, 1411450365, 1407633882, 1403827719, 1400031848, 1396246240] ++
  [1392470869, 1388705706, 1384950723, 1381205894, 1377471191, 1373746586, 1370032052, 1366327563, 1362633090, 1358948606, 1355274085, 1351609500, 1347954824, 1344310030, 1340675091, 1337049980] ++
  [1333434672, 1329829140, 1326233356, 1322647296, 1319070932, 1315504238, 1311947188, 1308399756, 1304861917, 1301333643, 1297814910, 1294305692, 1290805962, 1287315695, 1283834865, 1280363448] ++
  [1276901417, 1273448747, 1270005413, 1266571390, 1263146652, 1259731174, 1256324931, 1252927899, 1249540052, 1246161366, 1242791816, 1239431376, 1236080024, 1232737732, 1229404479, 1226080238] ++
  [1222764986, 1219458698, 1216161350, 1212872918, 1209593378, 1206322705, 1203060876, 1199807867, 1196563654, 1193328213, 1190101520, 1186883552, 1183674286, 1180473697, 1177281762, 1174098458] ++
  [1170923762, 1167757650, 1164600099, 1161451085, 1158310587, 1155178580, 1152055042, 1148939949, 1145833280, 1142735011, 1139645120, 1136563583, 1133490379, 1130425485, 1127368878, 1124320536] ++
  [1121280436, 1118248556, 1115224875, 1112209370, 1109202018, 1106202798, 1103211687, 1100228665, 1097253708, 1094286796, 1091327906, 1088377016, 1085434106, 1082499153, 1079572136, 1076653033]

def ce1 : Nat := 744261118
def ce2 : Nat := 257941248
def ce3 : Nat := 59597083
def gl1 : Nat := 1549082005
def gl2 : Nat := 774541002
def gl3 : Nat := 516360668
def gl4 : Nat := 387270501
def inv2pi : Nat := 2935890503282001226
def k2pi : Nat := 6746518852

def fpNan : Nat := 0x7FC00000
def fpInf (neg : Bool) : Nat := if neg then 0xFF800000 else 0x7F800000
def fpZero (neg : Bool) : Nat := if neg then 0x80000000 else 0

/-- The exact quotient 1/(m × 2^e) to more than 120 bits, with what is left over marked. -/
def recipExact (neg : Bool) (m : Nat) (e : Int) : Exact :=
  let k := Nat.log2 m + 120
  .num neg (2 ^ k / m) (-(k : Int) - e) (2 ^ k % m != 0)

/-- The exact square root of m × 2^e to more than 60 bits. -/
def sqrtExact (m : Nat) (e : Int) : Exact :=
  let odd := (e % 2).toNat
  let n := m * 2 ^ odd * 2 ^ 128
  let r := isqrt n
  .num false r ((e - odd) / 2 - 64) (r * r != n)

/-- The exact value of 1/√(m × 2^e) to more than 60 bits. -/
def rsqrtExact (m : Nat) (e : Int) : Exact :=
  let odd := (e % 2).toNat
  let n := m * 2 ^ odd
  let k := Nat.log2 n + 65
  let r := isqrt (2 ^ (2 * k) / n)
  .num false r (-(k : Int) - (e - odd) / 2) (r * r * n != 2 ^ (2 * k))

/-- 03 R102: FRCP. -/
def frcpRef (x : Nat) (r : Rnd) : Nat :=
  match fp32.value x with
  | .nan => fpNan
  | .inf neg => fpZero neg
  | .num neg m e _ => if m = 0 then fpInf neg else roundFloat (recipExact neg m e) fp32 r false 0

/-- 03 R102: FRSQ. -/
def frsqRef (x : Nat) (r : Rnd) : Nat :=
  match fp32.value x with
  | .nan => fpNan
  | .inf neg => if neg then fpNan else fpZero false
  | .num neg m e _ =>
    if m = 0 then fpInf neg
    else if neg then fpNan
    else roundFloat (rsqrtExact m e) fp32 r false 0

/-- 03 R102: FSQRT. -/
def fsqrtRef (x : Nat) (r : Rnd) : Nat :=
  match fp32.value x with
  | .nan => fpNan
  | .inf neg => if neg then fpNan else fpInf false
  | .num neg m e _ =>
    if m = 0 then fpZero neg
    else if neg then fpNan
    else roundFloat (sqrtExact m e) fp32 r false 0

/-- floor(v × 2^k) of a finite value. -/
def floorScaled (neg : Bool) (m : Nat) (e k : Int) : Int :=
  let s := signedNat neg m
  if 0 ≤ e + k then s * (2 ^ (e + k).toNat : Nat) else s / (2 ^ (-(e + k)).toNat : Nat)

/-- 03 R104: fex2_ref. -/
def fex2Ref (x : Nat) : Nat :=
  match fp32.value x with
  | .nan => fpNan
  | .inf neg => if neg then fpZero false else fpInf false
  | .num neg m e more =>
    let v := Exact.num neg m e more
    if v.lt (.ofInt 128) = false then fpInf false
    else if v.lt (.ofInt (-151)) then fpZero false
    else
      let xi := floorScaled neg m e 24
      let n := xi / (2 ^ 24 : Nat)
      let f := (xi % (2 ^ 24 : Nat)).toNat
      let i := f / 2 ^ 18
      let z := f % 2 ^ 18
      let t := ce3 * z / 2 ^ 24
      let t := (ce2 + t) * z / 2 ^ 24
      let t := (ce1 + t) * z / 2 ^ 24
      let w := tableTE.getD i 0 * (2 ^ 30 + t) / 2 ^ 30
      roundFloat (.num false w (n - 30) false) fp32 .near false 0

/-- The normalised significand M, 2^23 ≤ M < 2^24, and k with value M × 2^(k − 23). -/
def normalise (m : Nat) (e : Int) : Nat × Int :=
  let l := Nat.log2 m
  (m * 2 ^ (23 - l), e + l)

/-- 03 R105: flg2_ref. -/
def flg2Ref (x : Nat) : Nat :=
  match fp32.value x with
  | .nan => fpNan
  | .inf neg => if neg then fpNan else fpInf false
  | .num neg m e _ =>
    if m = 0 then fpInf true
    else if neg then fpNan
    else
      let (mm, k) := normalise m e
      let i := mm / 2 ^ 17 % 64
      let d := mm % 2 ^ 17
      let y := d * tableTR.getD i 0 / 2 ^ 23
      let g := gl3 - y * gl4 / 2 ^ 30
      let g := gl2 - y * g / 2 ^ 30
      let g := gl1 - y * g / 2 ^ 30
      let q : Nat := y * g / 2 ^ 30
      roundFloat (.scaled (k * (2 ^ 30 : Nat) + tableTL.getD i 0 + q) (-30)) fp32 .near false 0

/-- The quadrant reduction of 03 R106: P × 2^(k − 55) modulo 2^32. -/
def trigFr (mm : Nat) (k : Int) : Nat :=
  let p := mm * inv2pi
  if 55 ≤ k then p * 2 ^ (k - 55).toNat % 2 ^ 32 else p / 2 ^ (55 - k).toNat % 2 ^ 32

/-- 03 R106: trig_ref. -/
def trigRef (x : Nat) (cosine : Bool) : Nat :=
  match fp32.value x with
  | .nan | .inf _ => fpNan
  | .num neg m e _ =>
    if cosine = false ∧ (m = 0 ∨ (Exact.num false m e false).lt (.scaled 1 (-12))) then x
    else if m = 0 then 0x3F800000
    else
      let (mm, k) := normalise m e
      let fr := trigFr mm k
      let qd := (fr / 2 ^ 30 + (if cosine then 1 else 0)) % 4
      let j := fr / 2 ^ 24 % 64
      let h := fr % 2 ^ 24
      let angle : Nat := h * k2pi / 2 ^ 32
      let a : Int := (angle : Int)
      let u : Int := (2 ^ 30 : Nat)
      let a2 := a * a / u
      let a3 := a2 * a / u
      let a4 := a2 * a2 / u
      let sn := a - a3 / 6
      let cs := u - a2 / 2 + a4 / 24
      let ts : Int := (tableTS.getD j 0 : Nat)
      let tc : Int := (tableTC.getD j 0 : Nat)
      let sv := (ts * cs + tc * sn) / u
      let cv := (tc * cs - ts * sn) / u
      let res := if qd = 0 then sv else if qd = 1 then cv else if qd = 2 then -sv else -cv
      let res := if cosine = false ∧ neg then -res else res
      let out := roundFloat (.scaled res (-30)) fp32 .near false 0
      if out % 2 ^ 31 = 0 then fpZero (!cosine && neg) else out

end Sys2Proof.Machine
end

