-- ==== Sys2Proof/Machine/FloatOps.lean ====
section
/-!
DEFINITION. The floating-point, conversion and logarithmic functions of chapter 06 on codes, one lane at a time.
-/
namespace Sys2Proof.Machine

/-- An arithmetic result rounded once; every NaN is the format's own code (03 R89). -/
def FloatFmt.result (f : FloatFmt) (r : Rnd) (v : Exact) : Nat := roundFloat v f r false 0

/-- 06 R159, R166: FADD and PKADD. -/
def FloatFmt.add (f : FloatFmt) (r : Rnd) (a b : Nat) : Nat :=
  f.result r ((f.value a).add (r == .down) (f.value b))

/-- 06 R159: FSUB. -/
def FloatFmt.sub (f : FloatFmt) (r : Rnd) (a b : Nat) : Nat :=
  f.result r ((f.value a).add (r == .down) (f.value b).neg)

/-- 06 R159, R166: FMUL and PKMUL. -/
def FloatFmt.mul (f : FloatFmt) (r : Rnd) (a b : Nat) : Nat := f.result r ((f.value a).mul (f.value b))

/-- 06 R159, R166: FFMA and PKFMA round once. -/
def FloatFmt.fma (f : FloatFmt) (r : Rnd) (a b c : Nat) : Nat :=
  f.result r (((f.value a).mul (f.value b)).add (r == .down) (f.value c))

def FloatFmt.nanCode (f : FloatFmt) : Nat := f.nan.getD 0

/-- Whether a code is −0 or +0. -/
def FloatFmt.zeroCode (f : FloatFmt) (a : Nat) : Bool := a % 2 ^ f.sign == 0

/-- 06 R160: the lesser or the greater operand code. -/
def FloatFmt.pick (f : FloatFmt) (greater : Bool) (a b : Nat) : Nat :=
  let x := f.value a
  let y := f.value b
  if x.isNan then (if y.isNan then f.nanCode else b)
  else if y.isNan then a
  else if f.zeroCode a && f.zeroCode b then
    (if greater then (if a = 0 then a else b) else (if a = 0 then b else a))
  else if greater then (if x.lt y then b else a)
  else (if y.lt x then b else a)

/-- 06 R161: the eight conditions. -/
def FloatFmt.cond (f : FloatFmt) (c : Nat) (a b : Nat) : Bool :=
  let x := f.value a
  let y := f.value b
  if x.isNan || y.isNan then c == 1 || c == 6
  else
    match c with
    | 0 => x.same y
    | 1 => !x.same y
    | 2 => x.lt y
    | 3 => !y.lt x
    | 4 => y.lt x
    | 5 => !x.lt y
    | 6 => false
    | _ => true

/-- 06 R162: FRND. -/
def frndCode (r : Rnd) (a : Nat) : Nat :=
  match fp32.value a with
  | .nan => fpNan
  | .inf _ => a
  | .num neg m e more =>
    if 0 ≤ e then a else roundFloat (.num neg (roundUnits r neg m e more 0 0) 0 false) fp32 r false 0

/-- 06 R163: the class bit of a code. -/
def fclassBit (a : Nat) : Nat :=
  let neg := decide (a / 2 ^ 31 % 2 = 1)
  let e := a / 2 ^ 23 % 2 ^ 8
  let fr := a % 2 ^ 23
  if e = 255 then
    (if fr = 0 then (if neg then 0 else 7) else if fr < 2 ^ 22 then 8 else 9)
  else if e = 0 then
    (if fr = 0 then (if neg then 3 else 4) else if neg then 2 else 5)
  else if neg then 1 else 6

/-- 06 R163: FCLASS. -/
def fclassCode (a mask : Nat) : Nat := Nat.land (2 ^ fclassBit a) (mask % 2 ^ 32)

/-- 06 R164: FSCALE; an infinity and a zero come back unchanged. Every exponent beyond ±1000 rounds as ±1000 does. -/
def fscaleCode (r : Rnd) (a : Nat) (n : Int) : Nat :=
  match fp32.value a with
  | .nan => fpNan
  | .inf _ => a
  | v => if v.isZero then a else roundFloat (v.shift (clampInt n (-1000) 1000)) fp32 r false 0

-- conversions (06 R168 to R173)

/-- The floating-point format of a type. -/
def typeFmt : VType → FloatFmt
  | .bf16x2 => bf16
  | .e4m3 => e4m3
  | .e5m2 => e5m2
  | .e2m1 => e2m1
  | _ => fp32

/-- The width in bits of one element of a type. -/
def elemBits : VType → Nat
  | .bf16x2 | .i16x2 | .n16x2 => 16
  | .i8x4 | .n8x4 | .e4m3 | .e5m2 => 8
  | .e2m1 => 4
  | .lg6 => 6
  | .i64 | .n64 => 64
  | .b128 => 128
  | _ => 32

def typeSigned : VType → Bool
  | .i32 | .i64 | .i16x2 | .i8x4 => true
  | _ => false

/-- Element k of a packed value (03 R86). -/
def elemOf (x w k : Nat) : Nat := x / 2 ^ (w * k) % 2 ^ w

/-- A packed value with element k replaced. -/
def setElem (x w k y : Nat) : Nat := x - elemOf x w k * 2 ^ (w * k) + y % 2 ^ w * 2 ^ (w * k)

/-- The exact value of a code of a type (03 R85). -/
def codeValue (t : VType) (code : Nat) : Exact :=
  match t with
  | .i32 | .i64 => .ofInt (sextNat code (elemBits t))
  | .n32 | .n64 => .ofInt (code % 2 ^ (elemBits t) : Nat)
  | .lg6 => lg6Value code
  | _ => (typeFmt t).value code

/-- 06 R170: one code of the destination type. -/
def convertTo (t : VType) (v : Exact) (r : Rnd) (sat : Bool) (rbits : Nat) : Nat :=
  match t with
  | .lg6 => roundLg6 v r
  | .i32 | .i64 => roundInt v true (elemBits t) r rbits
  | .n32 | .n64 => roundInt v false (elemBits t) r rbits
  | _ => roundFloat v (typeFmt t) r sat rbits

/-- A 32-bit value rotated right. -/
def rotr32 (x n : Nat) : Nat := x % 2 ^ 32 / 2 ^ (n % 32) + x * 2 ^ (32 - n % 32) % 2 ^ 32

/-- 06 R170: the source value under the block scale in bits [7:0] of SC. -/
def blockScaled (toNarrow : Bool) (v : Exact) (scale : Nat) : Exact :=
  match e8m0 (scale % 256), v with
  | none, _ => .nan
  | some k, .num _ _ _ _ => v.shift (if toNarrow then -k else k)
  | some _, v => v

/-- 06 R171: whether a conversion was inexact. -/
def cvtInexact (t : VType) (v : Exact) (code : Nat) : Bool :=
  let w := codeValue t code
  !(w.same v || (w.isNan && v.isNan))

/-- 06 R170: both CVT codes: the result and the inexact predicate. `rnd` and `sat` are fmt.RND and fmt.SAT. -/
def cvtCode (block : Bool) (src dst : VType) (srcElem dstElem : Nat) (rnd : Rnd) (sat : Bool) (a merge sc : Nat) :
    Nat × Bool :=
  let v0 := codeValue src (elemOf a (elemBits src) srcElem)
  let v := if block then blockScaled (src == .f32) v0 sc else v0
  let r := if block then sc % 2 ^ 32 - sc % 256 else sc % 2 ^ 32
  let code := convertTo dst v rnd sat (rotr32 r (4 * dstElem))
  let res :=
    if dst.elems = 1 then code
    else
      let x := setElem merge (elemBits dst) dstElem code
      if dst = .lg6 then x % 2 ^ 30 else x
  (res, cvtInexact dst v code)

/-- emax of 06 R173. -/
def scaleEmax : VType → Int
  | .e4m3 => 8
  | .e5m2 => 15
  | .e2m1 => 2
  | _ => 3

/-- 06 R173: SCALE.MX over the codes of the active lanes. -/
def scaleMxCode (t : VType) (codes : List Nat) : Nat :=
  let vals := codes.map fp32.value
  if vals.any (fun v => v.isNan || v.isInf) then 0xFF
  else
    let amax := vals.foldl (fun (m : Exact) v => if m.lt v.abs then v.abs else m) (.zero false)
    match amax with
    | .num _ m e _ =>
      if m = 0 then 0x7F
      else (clampInt ((Nat.log2 m : Int) + e - scaleEmax t + 127) 0 254).toNat
    | _ => 0xFF

-- logarithmic arithmetic (06 R174 to R176)

/-- 06 R174: the linear value of a code. -/
def lg6Lin (x : Nat) : Exact :=
  let l := x % 32
  let neg := decide (x / 32 % 2 = 1)
  if l = 0 then .zero neg
  else
    let s : Int := (l : Int) - 16
    .num neg (lgTable (s % 4).toNat) (s / 4 - 22) false

/-- 06 R175: LGMUL of one pair of codes. -/
def lgmulCode (r : Rnd) (a b : Nat) : Nat :=
  let neg := decide (a / 32 % 2 ≠ b / 32 % 2)
  let sg := if neg then 32 else 0
  if a % 32 = 0 ∨ b % 32 = 0 then sg
  else
    let l : Int := (a % 32 : Nat) + (b % 32 : Nat) - 16
    sg + (if 31 < l then 31 else if l < 1 then (if r.outward neg then 1 else 0) else l.toNat)

/-- 06 R176: LGADD of one pair of codes; an exact-zero sum is −0 when both are −0. -/
def lgaddCode (r : Rnd) (a b : Nat) : Nat := roundLg6 ((lg6Lin a).add false (lg6Lin b)) r

/-- A function applied to each element of packed operands. -/
def mapElems (w : Nat) (f : Nat → Nat → Nat → Nat) (a b c : Nat) : Nat → Nat
  | 0 => 0
  | n + 1 => mapElems w f a b c n + f (elemOf a w n) (elemOf b w n) (elemOf c w n) % 2 ^ w * 2 ^ (w * n)

end Sys2Proof.Machine
end

