-- ==== Sys2Proof/Machine/IntOps.lean ====
section
/-!
DEFINITION. The integer, logical and bit-field functions of chapter 05, one lane at a time, on operands that are already
numbers of their stated width (R134).
-/
namespace Sys2Proof.Machine

/-- The operands of one lane: SA, SB and SC at their widths, and the predicate that IMM8 names. -/
structure LaneIn where
  a : Nat
  b : Nat
  c : Nat
  p : Bool
  deriving DecidableEq, Repr

/-- The result of one lane: the destination value and the primary predicate. -/
structure LaneOut where
  val : Nat
  prim : Bool
  deriving DecidableEq, Repr

/-- The width in bits of the whole operand of a type. -/
def typeBits (t : VType) : Nat := 32 * t.words

/-- The number of elements of a packed or plain integer type. -/
def intElems (t : VType) : Nat := typeBits t / elemBits t

/-- 05 R136: the predicate "result ≠ 0". -/
def outNonZero (v : Nat) : LaneOut := { val := v, prim := v != 0 }

/-- wrap, or saturation under the type's signedness (05 R137). -/
def finish (o : VOp) (w : Nat) (x : Int) : Nat :=
  if o.sat then wrapNat (if typeSigned o.type then satsInt x w else satuInt x w) w else wrapNat x w

/-- An exact two-operand function on each element of the operands (05 R135). -/
def perElem (o : VOp) (f : Int → Int → Int) (a b : Nat) : Nat :=
  let w := elemBits o.type
  let s := typeSigned o.type
  mapElems w (fun x y _ => finish o w (f (intOf s x w) (intOf s y w))) a b 0 (intElems o.type)

-- 05 R137

def iaddLane (o : VOp) (x : LaneIn) : LaneOut :=
  { val := perElem o (fun a b => a + b) x.a x.b, prim := decide (2 ^ typeBits o.type ≤ x.a + x.b) }

def isubLane (o : VOp) (x : LaneIn) : LaneOut :=
  { val := perElem o (fun a b => a - b) x.a x.b, prim := decide (x.a < x.b) }

def iaddcLane (o : VOp) (x : LaneIn) : LaneOut :=
  { val := perElem o (fun a b => a + b + x.p.toNat) x.a x.b, prim := decide (2 ^ typeBits o.type ≤ x.a + x.b + x.p.toNat) }

def isubbLane (o : VOp) (x : LaneIn) : LaneOut :=
  { val := perElem o (fun a b => a - b - x.p.toNat) x.a x.b, prim := decide (x.a < x.b + x.p.toNat) }

-- 05 R138

def imulLane (o : VOp) (x : LaneIn) : LaneOut := outNonZero (perElem o (fun a b => a * b) x.a x.b)

def imulhLane (o : VOp) (x : LaneIn) : LaneOut :=
  let w := typeBits o.type
  let s := typeSigned o.type
  outNonZero (wrapNat (intOf s x.a w * intOf s x.b w / (2 ^ w : Nat)) w)

def imadLane (o : VOp) (x : LaneIn) : LaneOut :=
  let w := typeBits o.type
  let s := typeSigned o.type
  outNonZero (finish o w (intOf s x.a w * intOf s x.b w + intOf s x.c w))

def imadwLane (o : VOp) (x : LaneIn) : LaneOut :=
  let s := typeSigned o.type
  outNonZero (finish o 64 (intOf s x.a 32 * intOf s x.b 32 + intOf s x.c 64))

-- 05 R139

def iminLane (o : VOp) (x : LaneIn) : LaneOut := outNonZero (perElem o (fun a b => if b < a then b else a) x.a x.b)
def imaxLane (o : VOp) (x : LaneIn) : LaneOut := outNonZero (perElem o (fun a b => if a < b then b else a) x.a x.b)
def iabsLane (o : VOp) (x : LaneIn) : LaneOut := outNonZero (perElem o (fun a _ => if a < 0 then -a else a) x.a 0)
def inegLane (o : VOp) (x : LaneIn) : LaneOut := outNonZero (perElem o (fun a _ => -a) x.a 0)

/-- 05 R140: the conditions of ICMP. -/
def intCond (c : Nat) (a b : Int) : Bool :=
  match c with
  | 0 => decide (a = b)
  | 1 => decide (a ≠ b)
  | 2 => decide (a < b)
  | 3 => decide (a ≤ b)
  | 4 => decide (b < a)
  | _ => decide (b ≤ a)

def icmpLane (o : VOp) (x : LaneIn) : LaneOut :=
  let w := typeBits o.type
  let s := typeSigned o.type
  { val := 0, prim := intCond o.sub.toNat (intOf s x.a w) (intOf s x.b w) }

/-- 05 R141. -/
def selLane (_o : VOp) (x : LaneIn) : LaneOut := outNonZero (if x.p then x.a else x.b)

-- 05 R142

/-- The complement of a w-bit pattern. -/
def notNat (w x : Nat) : Nat := 2 ^ w - 1 - x % 2 ^ w

def andLane (_o : VOp) (x : LaneIn) : LaneOut := outNonZero (Nat.land x.a x.b)
def orLane (_o : VOp) (x : LaneIn) : LaneOut := outNonZero (Nat.lor x.a x.b)
def xorLane (_o : VOp) (x : LaneIn) : LaneOut := outNonZero (Nat.xor x.a x.b)
def andnLane (o : VOp) (x : LaneIn) : LaneOut := outNonZero (Nat.land x.a (notNat (typeBits o.type) x.b))
def ornLane (o : VOp) (x : LaneIn) : LaneOut := outNonZero (Nat.lor x.a (notNat (typeBits o.type) x.b))
def notLane (o : VOp) (x : LaneIn) : LaneOut := outNonZero (notNat (typeBits o.type) x.a)

/-- Bit i of a number. -/
def bitOf (x i : Nat) : Nat := x / 2 ^ i % 2

/-- A number built bit by bit. -/
def bitsFrom (f : Nat → Nat) : Nat → Nat
  | 0 => 0
  | n + 1 => bitsFrom f n + f n % 2 * 2 ^ n

def bmixLane (o : VOp) (x : LaneIn) : LaneOut :=
  outNonZero (bitsFrom (fun i => bitOf o.imm8.toNat (bitOf x.a i + 2 * bitOf x.b i + 4 * bitOf x.c i)) (typeBits o.type))

/-- 05 R148. -/
def idp4Lane (o : VOp) (x : LaneIn) : LaneOut :=
  let s := typeSigned o.type
  let term (k : Nat) : Int := intOf s (elemOf x.a 8 k) 8 * intOf s (elemOf x.b 8 k) 8
  outNonZero (finish o 32 (intOf s x.c 32 + term 0 + term 1 + term 2 + term 3))

-- 05 R143, R144

def shlLane (o : VOp) (x : LaneIn) : LaneOut :=
  let w := typeBits o.type
  outNonZero (if x.b < w then x.a * 2 ^ x.b % 2 ^ w else 0)

def shrLane (o : VOp) (x : LaneIn) : LaneOut :=
  outNonZero (if x.b < typeBits o.type then x.a / 2 ^ x.b else 0)

def sarLane (o : VOp) (x : LaneIn) : LaneOut :=
  let w := typeBits o.type
  outNonZero (wrapNat (sextNat x.a w / (2 ^ (if x.b < w then x.b else w) : Nat)) w)

/-- A w-bit pattern rotated right by n < w. -/
def rotrNat (w x n : Nat) : Nat := x / 2 ^ n + x % 2 ^ n * 2 ^ (w - n)

def rotLane (o : VOp) (x : LaneIn) : LaneOut :=
  let w := typeBits o.type
  let n := x.b % w
  outNonZero (if o.sub = 0 then rotrNat w x.a n else rotrNat w x.a ((w - n) % w))

def shfLane (o : VOp) (x : LaneIn) : LaneOut :=
  let n := if x.c < 32 then x.c else 32
  let f := x.b * 2 ^ 32 + x.a
  outNonZero (if o.sub = 0 then f / 2 ^ n % 2 ^ 32 else f * 2 ^ n / 2 ^ 32 % 2 ^ 32)

-- 05 R145

/-- The number of 1 bits below bit n. -/
def popCount (x : Nat) : Nat → Nat
  | 0 => 0
  | n + 1 => popCount x n + bitOf x n

/-- The number of 0 bits below the lowest 1 bit, w for none. -/
def trailZeros (x : Nat) : Nat → Nat → Nat
  | 0, k => k
  | n + 1, k => if bitOf x k = 1 then k else trailZeros x n (k + 1)

def popcLane (o : VOp) (x : LaneIn) : LaneOut := outNonZero (popCount x.a (typeBits o.type))
def clzLane (o : VOp) (x : LaneIn) : LaneOut :=
  outNonZero (if x.a = 0 then typeBits o.type else typeBits o.type - 1 - Nat.log2 x.a)
def ctzLane (o : VOp) (x : LaneIn) : LaneOut := outNonZero (trailZeros x.a (typeBits o.type) 0)
def brevLane (o : VOp) (x : LaneIn) : LaneOut :=
  outNonZero (bitsFrom (fun i => bitOf x.a (typeBits o.type - 1 - i)) (typeBits o.type))

-- 05 R146

/-- The position and length of a field control, each at most 32. -/
def fieldPos (c : Nat) : Nat := Nat.min (c % 256) 32
def fieldLen (c : Nat) : Nat := Nat.min (c / 256 % 256) 32

def bfxLane (o : VOp) (x : LaneIn) : LaneOut :=
  let len := fieldLen x.b
  let t := x.a / 2 ^ fieldPos x.b % 2 ^ len
  outNonZero (if len = 0 then 0 else if o.type = .i32 then wrapNat (sextNat t len) 32 else t)

def bfiLane (_o : VOp) (x : LaneIn) : LaneOut :=
  let pos := fieldPos x.c
  let m := (2 ^ fieldLen x.c - 1) * 2 ^ pos % 2 ^ 32
  outNonZero (Nat.lor (Nat.land x.b (notNat 32 m)) (Nat.land (x.a * 2 ^ pos) m))

-- 05 R147

/-- Byte k of the result of BPERM before any reversal. -/
def bpermByte (a b c k : Nat) : Nat :=
  let nib := c / 2 ^ (4 * k) % 16
  let src := elemOf (a + b * 2 ^ 32) 8 (nib % 8)
  if nib < 8 then src else if 128 ≤ src then 255 else 0

def bpermLane (o : VOp) (x : LaneIn) : LaneOut :=
  let byte (k : Nat) := bpermByte x.a x.b x.c (if o.sub = 0 then k else 3 - k)
  outNonZero (byte 0 + byte 1 * 2 ^ 8 + byte 2 * 2 ^ 16 + byte 3 * 2 ^ 24)

/-- 05 R149. -/
def movLane (_o : VOp) (x : LaneIn) : LaneOut := outNonZero x.a

-- chapter 06, as lane functions

/-- 06 R158: "result not ±0". -/
def outNotZero (v : Nat) : LaneOut := { val := v, prim := v % 2 ^ 31 != 0 }

def faddLane (o : VOp) (x : LaneIn) : LaneOut := outNotZero (fp32.add (rmRnd o.rm) x.a x.b)
def fsubLane (o : VOp) (x : LaneIn) : LaneOut := outNotZero (fp32.sub (rmRnd o.rm) x.a x.b)
def fmulLane (o : VOp) (x : LaneIn) : LaneOut := outNotZero (fp32.mul (rmRnd o.rm) x.a x.b)
def ffmaLane (o : VOp) (x : LaneIn) : LaneOut := outNotZero (fp32.fma (rmRnd o.rm) x.a x.b x.c)
def fminLane (_o : VOp) (x : LaneIn) : LaneOut := outNotZero (fp32.pick false x.a x.b)
def fmaxLane (_o : VOp) (x : LaneIn) : LaneOut := outNotZero (fp32.pick true x.a x.b)
def fcmpLane (o : VOp) (x : LaneIn) : LaneOut := { val := 0, prim := fp32.cond o.sub.toNat x.a x.b }
def frndLane (o : VOp) (x : LaneIn) : LaneOut := outNotZero (frndCode (rmRnd o.rm) x.a)
def fclassLane (_o : VOp) (x : LaneIn) : LaneOut := outNonZero (fclassCode x.a x.b)
def fscaleLane (o : VOp) (x : LaneIn) : LaneOut := outNotZero (fscaleCode (rmRnd o.rm) x.a (sextNat x.b 32))

/-- 06 R166: a packed BF16 function. -/
def pkLane (f : Nat → Nat → Nat → Nat) (x : LaneIn) : LaneOut := { val := mapElems 16 f x.a x.b x.c 2, prim := false }

def pkaddLane (o : VOp) (x : LaneIn) : LaneOut := pkLane (fun a b _ => bf16.add (rmRnd o.rm) a b) x
def pkmulLane (o : VOp) (x : LaneIn) : LaneOut := pkLane (fun a b _ => bf16.mul (rmRnd o.rm) a b) x
def pkfmaLane (o : VOp) (x : LaneIn) : LaneOut := pkLane (fun a b c => bf16.fma (rmRnd o.rm) a b c) x
def pkminLane (_o : VOp) (x : LaneIn) : LaneOut := pkLane (fun a b _ => bf16.pick false a b) x
def pkmaxLane (_o : VOp) (x : LaneIn) : LaneOut := pkLane (fun a b _ => bf16.pick true a b) x

/-- 06 R167. -/
def pkcmpLane (o : VOp) (x : LaneIn) : LaneOut :=
  let v := mapElems 16 (fun a b _ => if bf16.cond o.sub.toNat a b then 0xFFFF else 0) x.a x.b 0 2
  { val := v, prim := v == 0xFFFFFFFF }

def frcpLane (o : VOp) (x : LaneIn) : LaneOut := outNotZero (frcpRef x.a (rmRnd o.rm))
def frsqLane (o : VOp) (x : LaneIn) : LaneOut := outNotZero (frsqRef x.a (rmRnd o.rm))
def fsqrtLane (o : VOp) (x : LaneIn) : LaneOut := outNotZero (fsqrtRef x.a (rmRnd o.rm))
def fex2Lane (_o : VOp) (x : LaneIn) : LaneOut := outNotZero (fex2Ref x.a)
def flg2Lane (_o : VOp) (x : LaneIn) : LaneOut := outNotZero (flg2Ref x.a)
def fsinLane (_o : VOp) (x : LaneIn) : LaneOut := outNotZero (trigRef x.a false)
def fcosLane (_o : VOp) (x : LaneIn) : LaneOut := outNotZero (trigRef x.a true)

/-- fmt.RND and fmt.SAT (01 R12). -/
def fmtRnd (fmt : Nat) : Rnd := Rnd.ofCode (fmt / 2 ^ 10 % 8)
def fmtSat (fmt : Nat) : Bool := fmt / 2 ^ 13 % 2 == 1

def cvtLane (block : Bool) (fmt : Nat) (o : VOp) (x : LaneIn) : LaneOut :=
  let (v, inexact) := cvtCode block (o.cvtSrc.getD .f32) o.type o.sub.toNat (o.imm8.toNat / 16 % 8) (fmtRnd fmt)
    (fmtSat fmt) x.a x.b x.c
  { val := v, prim := inexact }

def lgmulLane (fmt : Nat) (_o : VOp) (x : LaneIn) : LaneOut :=
  { val := mapElems 6 (fun a b _ => lgmulCode (fmtRnd fmt) a b) x.a x.b 0 5, prim := false }

def lgaddLane (fmt : Nat) (_o : VOp) (x : LaneIn) : LaneOut :=
  { val := mapElems 6 (fun a b _ => lgaddCode (fmtRnd fmt) a b) x.a x.b 0 5, prim := false }

end Sys2Proof.Machine
end

