-- ==== Sys2Proof/Machine/State.lean ====
section
/-!
DEFINITION. The state of the module as plain data: group registers and checkpoints, teams, launches, cores, dies,
partitions, the hub, memory, and the model's own fields (the agenda, the open bundle, counters). A table (`Tbl`) lists
only what differs from its default value; the accessors of Machine/Ops.lean name the defaults.
-/
namespace Sys2Proof.Machine

/-- What stops the machine. -/
inductive Fault where
  /-- Raised by a slot operation executed with no bundle open: slot operations run only inside BUNDLE (01 R14; log entry 10, DEDUCED). Safe: the
  hardware has no such step. -/
  | noBundle
  deriving DecidableEq, Repr

/-- What the model declines. -/
inductive Refusal where
  /-- Raised by an arm of exec that has no meaning yet. Safe. -/
  | notModelled (mnemonic : String)
  deriving DecidableEq, Repr

-- the group

/-- The state of a program-counter slot (07 R182). -/
inductive PcState where
  | idle | issuing | joining
  deriving DecidableEq, Repr

/-- A program-counter slot (07 R182): its path, while joining its rejoin mask and the bundle after the JOIN, and the object and
parity of a WAITB that holds it. -/
structure PcSlot where
  st : PcState
  pc : DWord
  next : DWord
  lanes : LaneMask
  fmt : Word
  mask : LaneMask
  held : Option (Nat × Bool)
  deriving DecidableEq, Repr

/-- A reconvergence-stack entry (07 R188). -/
structure StackEntry where
  w : Bool
  fmt : Word
  lanes : LaneMask
  pc : DWord
  deriving DecidableEq, Repr

/-- A lane's population state (18 R367). -/
inductive PopState where
  | none
  | member (pop id parent gen : Nat)
  | reserve (pop : Nat)
  deriving DecidableEq, Repr

/-- One byte a store or a TST writes: global (with its physical address) or scratchpad; the operation, bundle and lane that wrote it
name a deferred trap (14 R301). A TST's bytes take no hamper entry (13 R291). -/
structure ByteWrite where
  op : Nat
  glob : Bool
  addr : Nat
  pa : Nat
  val : Byte
  bpc : DWord
  slotB : Bool
  lane : Nat
  tst : Bool
  deriving DecidableEq, Repr

/-- The destination of a pending result. -/
inductive PendDst where
  | none
  | v (n words : Nat)
  | s (n words : Nat)
  | rcd (n : Nat)
  | rsmp (dst : Dst) (pop round : Nat)
  deriving DecidableEq, Repr

/-- One lane's part of a global load; `fwd` holds the bytes that it has read already, since a later write of its group has overtaken it
(13 R283). -/
structure LaneLoad where
  lane : Nat
  va : Nat
  pa : Nat
  size : Nat
  fwd : Tbl Byte
  deriving DecidableEq, Repr

/-- A result that lands by lookahead (01 R23), one entry for each path that holds lanes of it (21 R410). An operation with
results of both kinds has an entry for its lanes and one, `uni`, for its uniform destinations, which follows all the lanes
of its path (07 R184). `rem` bundles of the path remain; `vals` holds the words of each lane, or under lane 0; `prim` is the
primary predicate by lane and `lead` the lowest lane active at issue; `lines` are the line requests not yet answered, `cls`
the alias class, `acq` whether the load is an acquire and `after` the number that the operations before the latest class-0 access stay
below (13 R276); `scr` are scratchpad reads (lane, address) that an earlier acquire keeps back; `bad` is the lowest lane whose line has failed, with its
cause and address (11 R246); `cut` are words a debugger cancelled (21 R421); `pages` are pinned until the landing (12 R267). -/
structure Pending where
  op : Nat
  uni : Bool
  lead : Nat
  lanes : LaneMask
  rem : Nat
  dst : PendDst
  vals : Tbl (List Word)
  pd : PredRef
  pc2 : PredRef
  prim : LaneMask
  arrived : Bool
  loads : List LaneLoad
  lines : List Nat
  msize : MSize
  scope : Scope
  cpol : CPol
  cls : Nat
  acq : Bool
  after : Nat
  scr : List (Nat × Nat)
  bad : Option (Nat × Nat × Nat)
  cut : List (Nat × Nat)
  pages : List Nat
  bpc : DWord
  slotB : Bool
  deriving DecidableEq, Repr

/-- A TLD into, or a TST from, an accumulator tile that waits its turn on the tile scoreboard (16 R321): the rows a TLD
writes, or the bytes a TST reads out, as (element index, address, physical address, lane). -/
structure TilePend where
  op : Nat
  tile : Nat
  load : Bool
  rows : Tbl Word
  outs : List (Nat × Nat × Nat × Nat)
  bpc : DWord
  slotB : Bool
  deriving DecidableEq, Repr

/-- A FENCE whose condition does not hold yet (14 R306): whether it acquires and releases, and whether its scope is die or wider. -/
structure FenceWait where
  op : Nat
  acq : Bool
  rel : Bool
  wide : Bool
  deriving DecidableEq, Repr

/-- An uncommitted push by TLD: the ring, its position and the tile's bytes (16 R323). -/
structure RingPush where
  ring : Nat
  pos : Nat
  data : List Byte
  deriving DecidableEq, Repr

/-- What a user-level interrupt handler holds (16 R333). -/
structure Handler where
  slotA : PcSlot
  slotB : PcSlot
  turnB : Bool
  stack : List StackEntry
  /-- the first operation number of the handler: its results land before IRET completes (16 R334) -/
  firstOp : Nat
  deriving DecidableEq, Repr

/-- The checkpointed state of a group (20 R391). Defaults of the tables are 0 and "no population". Keys: v and acc as in
the accessors; p by predicate, holding one bit per lane; b by record number and word; x by register. `stack` has its top
first. -/
structure GCore where
  v : Tbl Word
  p : Tbl LaneMask
  s : Tbl Word
  q : BitVec 8
  b : Tbl Word
  x : Tbl DWord
  acc : Tbl Word
  slotA : PcSlot
  slotB : PcSlot
  turnB : Bool
  stack : List StackEntry
  live : LaneMask
  perf : Tbl (BitVec 4)
  pop : Tbl PopState
  pend : List Pending
  tiles : List TilePend
  /-- FENCEs that wait for their condition, and one more than the number of the latest access of alias class 0 (13 R276) -/
  fences : List FenceWait
  zeroOp : Nat
  pushes : List RingPush
  pops : List (Nat × Nat)
  handler : Option Handler
  shadowS : Tbl Word
  shadowQ : BitVec 3
  deriving DecidableEq, Repr

/-- Why a group is parked between two bundles (02 R64, 04 R120). -/
inductive Park where
  | none
  | quire (missing : List (SlotClass × Nat))
  | sys (service : Nat) (value : Word) (dst : CDst)
  deriving DecidableEq, Repr

/-- The barrier phase a group waits for (04 R123, R124); the wait goes on while a handler runs (16 R333). -/
inductive BarWait where
  | none
  | barrier (which phase : Nat)
  | grid (phase : Nat)
  deriving DecidableEq, Repr

/-- A completion queued for a user-level interrupt (16 R333): the record's address and the fault cause or 0. -/
structure Completion where
  record : Nat
  cause : Nat
  deriving DecidableEq, Repr

/-- A trap to be recorded (20 R394); the fields that the record takes from the group are added when it is filled. -/
structure TrapInfo where
  cause : Nat
  code : Nat
  lane : Option Nat
  addr : Nat
  slot : Nat
  write : Bool
  bpc : DWord
  slotB : Bool
  defer : Bool
  deriving DecidableEq, Repr

/-- What a group is: a user group of a team, or the firmware context of a sequencer (21 R416). -/
inductive GroupKind where
  | user (team : Nat)
  | firmware (core quad : Nat)
  deriving DecidableEq, Repr

/-- A group: its state, its state at the last checkpoint, and what no rollback restores (20 R391). -/
structure Group where
  kind : GroupKind
  index : Nat
  producer : Bool
  quad : Nat
  pos : Nat
  core : GCore
  ck : GCore
  hamper : List ByteWrite
  /-- committed stores that are not visible yet: an earlier acquire has not read (13 R276), or their segment migrates (11 R254) -/
  waiting : List ByteWrite
  flight : List ByteWrite
  /-- the core that the stores in flight left, also when the group's team has gone from it (13 R280) -/
  flightCore : Nat
  spanV : List Nat
  /-- bundles committed since the checkpoint -/
  spanLen : Nat
  nextOp : Nat
  /-- the cycle of its core in which its last bundle issued; a team that comes to a core counts from there (01 R19) -/
  lastIssue : Option Nat
  /-- the core's cycle counter in the cycle of the last pick (05 R151) -/
  issueCycle : DWord
  /-- a page of its reconvergence stack is still to be brought in and the stack written: it issues nothing (07 R187) -/
  stackWait : Bool
  /-- the population and round for which firmware has still to hold its members' windows: it issues nothing (18 R381) -/
  holdWait : Option (Nat × Nat)
  armed : Bool
  uq : List Completion
  park : Park
  waits : BarWait
  abandon : Bool
  /-- issued accesses whose translation still waits on a migrating segment (11 R254): virtual address, rights needed -/
  checks : List (Nat × Bool × Bool × TrapInfo)
  trapRec : BitVec 256
  trapSet : Bool
  deferred : Option TrapInfo
  past : Option DWord
  /-- stopped with its team (20 R396, 21 R409): every step of the model ends at a bundle boundary -/
  stopped : Bool
  retired : Bool
  halted : Bool
  deriving DecidableEq, Repr

-- the team

/-- Who owns a ring's pushes or pops (16 R323). -/
inductive Owner where
  | group (id : Nat)
  | copy (req : Nat)
  deriving DecidableEq, Repr

/-- The configuration of a ring or queue (16 R322); `tsize` in 64-byte units, 1 to 256. -/
structure RingConf where
  base : Nat
  tsize : Nat
  tcount : Nat
  deriving DecidableEq, Repr

/-- A tile ring or sparsity queue (16 R322, R323); counts are not reduced modulo 256. `view` is the port view while a
RING.CFG or SQ.CFG waits to take effect; `waiting` counts the matrix-port ring commands of this ring not yet in effect. -/
structure Ring where
  conf : Option RingConf
  tail : Nat
  head : Nat
  /-- positions above `head` whose pops are committed: HEAD advances in ascending order (16 R324) -/
  popDone : List Nat
  rtail : Nat
  rhead : Nat
  pushOwner : Option Owner
  popOwner : Option Owner
  view : Option RingConf
  waiting : Nat
  deriving DecidableEq, Repr

/-- A named or team barrier, or the grid barrier (04 R123 to R125). `role` says that the expected count follows the
unretired groups of a role (true the producer's), `all` those of the team or grid. -/
structure Barrier where
  phase : Nat
  expected : Option Nat
  role : Option Bool
  all : Bool
  arrived : List Nat
  /-- the role whose one group filled the latest phase alone with a count of 0 (08 R214, row 3; log entry 27) -/
  solo : Option Bool
  deriving DecidableEq, Repr

/-- A team (07 R178). `spt` lists the entries that are not "out with the zero slot" (12 R263); rings 0 to 15 are k0 to
k15, 16 to 19 are sq0 to sq3; barrier 16 is the team barrier. -/
structure Team where
  launch : Nat
  index : Word
  place : Option (Nat × Nat)
  saved : Bool
  groups : List Nat
  /-- initial state of a team not yet placed (08 R217): entry, SBASE values and index register -/
  entry : DWord
  inits : List (Nat × Word)
  seed : Bool
  spt : Tbl DWord
  /-- the resident pages, the longest resident first: firmware's choice of a victim (log entry 8, DESIGN CHOICE) -/
  fifo : List Nat
  rings : Tbl Ring
  bars : Tbl Barrier
  retired : Bool
  /-- save frames the team holds or has gathered (20 R402), and whether its drain waits for more (R404) -/
  frames : List Nat
  starved : Bool
  /-- the die the team last sat on (20 R401) -/
  home : Nat
  /-- a debugger or the hypervisor's suspend stopped the team; it resumes only by command -/
  heldBy : Bool
  /-- what the scratchpad of a team that has retired held (15 R319) -/
  last : List Host.Cell
  /-- the pages that SYS 0x02 has asked for and that wait for a frame (04 R120, 12 R269) -/
  pageIns : List Nat
  deriving DecidableEq, Repr

-- the launch

/-- The spine (02 R68). -/
structure Spine where
  counts : List Nat
  caps : List Nat
  lat : List Nat
  tgroups : Nat
  pgroups : Nat
  pvbud : Nat
  psbud : Nat
  cvbud : Nat
  csbud : Nat
  pool : Nat
  fmt : Word
  entry : DWord
  uvec : DWord
  places : List (Nat × Nat × Nat)
  deriving DecidableEq, Repr

/-- A launch (07 R194 to R198, 25 R450). `leaves` holds the image's leaves under class and index. -/
structure Launch where
  part : Nat
  stream : Nat
  spine : Spine
  grants : List Nat
  leaves : Tbl Nat
  replicas : List Nat
  counter : Nat
  rgrid : Bool
  /-- the cores on which a resident grid keeps the bank of its context (07 R198) -/
  reserved : List Nat
  /-- a grid release under way: the die its walk goes on at, and its admission count (09 R234) -/
  slew : Option (Nat × Nat)
  declared : Nat
  spawned : Nat
  grid : Barrier
  /-- cores that wait for the slew limiter after a grid phase completed (09 R234) -/
  releasing : List Nat
  placement : Option Nat
  completion : Nat
  /-- 0 running, else the STATUS of 25 R450 reached so far -/
  status : Nat
  code : Nat
  cause : Nat
  seq : Option Nat
  done : Bool
  pops : List Nat
  deriving DecidableEq, Repr

-- the core

/-- A matrix-port command (17 R338). Reservation positions are fixed when the command passes the port, or when a ring
command ahead of it takes effect (17 R351). -/
inductive MxKind where
  | mma (sparse : Bool) (ka kb sq count : Nat)
  | accZero
  | accRd (chunk pendOp : Nat)
  | accWr (chunk : Nat) (vals : Tbl (List Word))
  | ringCfg (ring : Nat) (conf : RingConf)
  | ringRst (ring : Nat)
  | ringStat (ring pendOp : Nat)
  /-- no command: the place in port order at which a group's arrival at a round takes its accumulator rows (18 R375) -/
  | arrival (pop round : Nat)
  /-- no command: the place in port order at which a clone's lane takes its rows (18 R378), with its RSMP's operation number -/
  | cloneRows (rsmp lane : Nat) (acc : Tbl Word)
  deriving DecidableEq, Repr

structure MxCmd where
  group : Nat
  team : Nat
  kind : MxKind
  tile : Nat
  rows : LaneMask
  fmt : Word
  /-- K-steps done; reserved first positions on A, B and the queue -/
  step : Nat
  resA : Option Nat
  resB : Option Nat
  resQ : Option Nat
  zero : Bool
  bpc : DWord
  slotB : Bool
  op : Nat
  deriving DecidableEq, Repr

/-- A COPY.KICK whose record is not yet fetched (17 R354). `bytes` are the record's as they stood at the KICK, since a later write to
the record changes nothing (16 R329); none when a word of it was poisoned. -/
structure Kick where
  group : Nat
  team : Nat
  record : Nat
  bytes : Option (List Byte)
  bpc : DWord
  slotB : Bool
  deriving DecidableEq, Repr

/-- A request record's fields (17 R355). -/
structure CopyRec where
  skind : Nat
  dkind : Nat
  count : Bool
  uint : Bool
  form : Bool
  peer : Nat
  x0 : Nat
  x1 : Nat
  x2 : Nat
  saddr : Nat
  daddr : Nat
  bobj : Nat
  sstr1 : Int
  sstr2 : Int
  dstr1 : Int
  dstr2 : Int
  akey : DWord
  deriving DecidableEq, Repr

/-- A running copy request: the bytes done, those of the next destination line in hand with their form bit, whether it owns its ring. A
command processor's COPY has no group (25 R454). -/
structure CopyReq where
  id : Nat
  kick : Option Kick
  stream : Option Stream
  part : Nat
  rcd : CopyRec
  n : Nat
  buf : List Byte
  sealedLine : Bool
  owner : Bool
  /-- waiting for read data or a write completion of a peer: port and tag (27 R474) -/
  peerTag : Option (Nat × Nat)
  /-- the port it runs on, chosen when it starts (27 R475) -/
  port : Option Nat
  /-- the cause and address of the fault that stopped it, until it is recorded (16 R332) -/
  fault : Option (Nat × Nat)
  deriving DecidableEq, Repr

/-- A SEAL or OPEN (17 R361). -/
structure CipherOp where
  group : Nat
  team : Nat
  isSeal : Bool
  src : Nat
  dst : Nat
  obj : Nat
  tag : Nat
  iv : List Byte
  key : Nat
  bpc : DWord
  slotB : Bool
  deriving DecidableEq, Repr

/-- A decode-table entry (02 R64, R65). -/
structure TabEntry where
  index : Nat
  leaf : Option Instr
  used : Nat
  pins : List Nat
  deriving DecidableEq, Repr

/-- A decode table: of a bank, quadrant and slot class, serving one launch (02 R62). -/
structure DecTab where
  launch : Nat
  entries : Tbl TabEntry
  deriving DecidableEq, Repr

/-- A sequencer's firmware registers (09 R230, R231; 21 R418, R419). -/
structure Seqr where
  share : Word
  credits : Nat
  creditAt : Nat
  lastIssue : Option Nat
  gsel : Word
  rsel : Word
  deriving DecidableEq, Repr

/-- Frames of one bank (12 R262): bytes, reference counts, poisoned 8-byte words (22 R425). -/
structure BankMem where
  bytes : Tbl Byte
  refs : Tbl Nat
  poison : List Nat
  deriving DecidableEq, Repr

/-- How a back bank stands (21 R420). -/
inductive Drain where
  | idle | draining | waiting | filling
  deriving DecidableEq, Repr

structure Core where
  cycle : DWord
  front : Bool
  flipPend : Bool
  /-- the cycle of the last flip (25 R457) -/
  flipAt : Nat
  drain : Drain
  missCount : Nat
  stallCount : Nat
  faultCount : Nat
  weights : List (Nat × Nat)
  /-- cycles since reset as the scheduler counts them; RDSYS CYCLE reads `cycle` -/
  now : Nat
  budget : Nat
  /-- age order, oldest first, under 2 × bank + pair -/
  ages : Tbl (List Nat)
  picked : List Nat
  /-- the quadrants that a firmware bundle has taken in this cycle, and the engine ports (09 R228, R231) -/
  fwPicked : List Nat
  fwPorts : List Nat
  tabs : Tbl DecTab
  l1 : Tbl (List Byte)
  /-- the lines marked to be evicted first (11 R255) -/
  l1First : List Nat
  stb : Tbl DWord
  mq : List MxCmd
  kicks : List Kick
  reqs : List CopyReq
  ciphers : List CipherOp
  banks : Tbl BankMem
  seqs : Tbl Seqr
  /-- a firmware context fault stopped the core (20 R405) -/
  fwFault : Bool
  /-- a planted residue mismatch waits for the next K-step; true when it persists (16 R327) -/
  residue : Option Bool
  deriving DecidableEq, Repr

-- the die

structure Die where
  rways : Nat
  sways : Nat
  level : Nat
  target : Nat
  limit : Bool
  gated : Bool
  changing : Option Nat
  heat : List Nat
  absent : Bool
  corrected : Nat
  segCache : Tbl (BitVec 128)
  /-- the world the last scrub wrote into the tag bytes of the die's stack (26 R469) -/
  scrubWorld : Nat
  deriving DecidableEq, Repr

-- the partition

/-- A level's loop (25 R453). -/
structure CpLoop where
  start : Nat
  stop : Nat
  passes : Nat
  deriving DecidableEq, Repr

/-- A nesting level of a stream (25 R451): where its buffer starts and its size in bytes (`stop` none at level 0, whose positions wrap
modulo the ring size), the packet's position, its window by position (25 R455), its loop, and packets still to skip (25 R452). -/
structure CpLevel where
  start : Nat
  stop : Option Nat
  pos : Nat
  window : Tbl Byte
  loop : Option CpLoop
  skip : Nat
  deriving DecidableEq, Repr

/-- What a stream waits for inside a packet. -/
inductive CpWait where
  | none
  | launch (id : Nat)
  | seed (id : Nat)
  | test (t : MemTest)
  | copy (req : Nat)
  /-- a COPY that touches a migrating segment, before it starts (11 R254) -/
  | segment
  /-- with the cores that have not flipped yet and the front banks they had (25 R457) -/
  | switch (target : Nat) (left : List (Nat × Bool))
  deriving DecidableEq, Repr

/-- A command stream (25 R445, R446; 26 R463); `len` is the length in bytes of the packet being executed, 0 between packets. -/
structure StreamSt where
  base : Nat
  log2 : Nat
  wptr : Nat
  cause : Nat
  err : Nat
  stop : Bool
  wait : CpWait
  len : Nat
  /-- level 0 first; none while the ring stands at its offset 0 with nothing read -/
  levels : List CpLevel
  pops : List Nat
  writes : Nat
  value : Word
  deriving DecidableEq, Repr

/-- An error-log entry (22 R428). -/
structure LogEntry where
  addr : DWord
  seq : Nat
  cause : Nat
  world : Nat
  src : Nat
  die : Nat
  core : Option Nat
  group : Nat
  phys : Bool
  trec : Option (BitVec 256)
  deriving DecidableEq, Repr

inductive TdiState where
  | unlocked | locked | run | error
  deriving DecidableEq, Repr

/-- A member's register image, taken at its arrival (18 R375). -/
structure Image where
  v : Tbl Word
  p : Tbl Bool
  perf : BitVec 4
  acc : Tbl Word
  deriving DecidableEq, Repr

/-- An arrival at a round: group, lane, identity (none for a reserve lane), weight and N (18 R375), the window's entries as
held at the arrival with the bank they name (R381), and whether the lane has retired or been killed since. -/
structure Arrival where
  group : Nat
  lane : Nat
  id : Option Nat
  gen : Nat
  weight : Nat
  n : Nat
  image : Image
  window : List DWord
  place : Nat × Nat
  gone : Bool
  /-- its accumulator rows have been taken: the arrival is complete -/
  ready : Bool
  deriving DecidableEq, Repr

/-- What a clone takes from its parent (18 R376, R378): identity, the image and the held pages. -/
structure CloneOf where
  id : Nat
  parent : Nat
  gen : Nat
  image : Image
  window : List DWord
  place : Nat × Nat
  deriving DecidableEq, Repr

/-- What a lane takes at its landing (18 R378). -/
structure LaneOutcome where
  group : Nat
  lane : Nat
  killed : Bool
  status : Word
  clone : Option CloneOf
  deriving DecidableEq, Repr

/-- A round (18 R375 to R378; `copies` names the slot of each held frame copied for clones elsewhere, 12 R273): the descriptor as read when it opened, the members (group, lane, identity) and reserve lanes
still to arrive, the arrivals, and the outcome once evaluated. `landed` lists the group and lane of each landing made. -/
structure Round where
  desc : BitVec 1024
  members : List (Nat × Nat × Nat)
  reserves : List (Nat × Nat)
  arrived : List Arrival
  errdep : Bool
  outcome : Option (List LaneOutcome)
  short : Bool
  landed : List (Nat × Nat)
  copies : Tbl Nat
  deriving DecidableEq, Repr

/-- The descriptor fields the hardware sets, as the port holds them (18 R365, R366). -/
structure PopHeld where
  live : Nat
  reserve : Nat
  round : Nat
  nextId : Nat
  lastStat : Nat
  logPos : Nat
  deriving DecidableEq, Repr

/-- A live population (18 R365, R370), kept under its descriptor's address: the launch that activated it (none for POP.DESC
until the stream's next LAUNCH), the round that is open, and the rounds whose outcome some group may still land. -/
structure Popul where
  launch : Option Nat
  /-- the descriptor as the port read it last: at the activation, or when a round began (18 R366) -/
  desc : BitVec 1024
  held : PopHeld
  current : Option Nat
  rounds : Tbl Round
  nextRound : Nat
  deriving DecidableEq, Repr

/-- The injector (22 R430). -/
structure Injector where
  rate : Nat
  count : Nat
  double : Bool
  en : Bool
  targets : BitVec 4
  seed : DWord
  n : Nat
  deriving DecidableEq, Repr

/-- The measurement inputs of a partition (26 R467): the locked configuration, turnovers and the last health result. -/
structure Measured where
  locked : Option (List DWord)
  turnovers : Nat
  health : Bool
  answer : List (List DWord)
  deriving DecidableEq, Repr

structure Part where
  dies : BitVec 16
  state : Nat
  test : Bool
  conf : Bool
  prot : Bool
  res : Bool
  cap : Nat
  /-- DIES, TEST, CONF and PROT of the partition control register as last written (26 R461) -/
  ctl : DWord
  segBase : Nat
  /-- an invalidation in progress: the segments, or all when none -/
  inval : Option (Option Nat)
  /-- segments being migrated with their targets (11 R254), and those whose copy waits -/
  moving : List (Nat × Nat)
  streams : Tbl StreamSt
  active : Nat
  bankCtx : Tbl Nat
  gq : List Nat
  log : List LogEntry
  lost : Word
  nextSeq : Nat
  msix : Tbl Word
  pba : Tbl Bool
  tdi : TdiState
  keys : Tbl (BitVec 256)
  inj : Injector
  /-- the save frame free list's HEAD and COUNT, and the frames that are off the list (20 R402, R403) -/
  saveHead : Nat
  saveCount : Nat
  offList : List Nat
  debugger : Bool
  exportBase : Nat
  pops : Tbl Popul
  meas : Measured
  susp : Bool
  /-- a suspend that takes effect when the CTXSW in progress has finished, with the STATE it leads to (25 R458) -/
  suspDue : Option Nat
  /-- a turnover that runs: whether it frees the dies at its end, and the dies that fail its health test (26 R469) -/
  turn : Option (Bool × List Nat)
  /-- MMIO writes of the function answered with an Unsupported Request completion (26 R465, R469) -/
  unsupported : Nat
  deriving DecidableEq, Repr

-- the hub

/-- A link key slot (27 R471). -/
structure LinkKey where
  valid : Bool
  key : BitVec 256
  salt : Word
  deriving DecidableEq, Repr

/-- A flit the sender keeps for replay (27 R473). -/
structure SentFlit where
  slot : Nat
  ctr : Nat
  marker : Bool
  bytes : List Byte
  deriving DecidableEq, Repr

structure Port where
  up : Bool
  failed : Bool
  partner : Nat
  txKeys : Tbl LinkKey
  rxKeys : Tbl LinkKey
  txSlot : Nat
  txCtr : Nat
  rxSlot : Nat
  rxCtr : Nat
  replay : List SentFlit
  queue : List (List Byte)
  naks : Nat
  nakAt : Nat
  nextTag : Nat
  /-- the counter the receiver asks the sender to resend from, and the slot and counter it acknowledged last (27 R473) -/
  wantReplay : Option Nat
  acked : Option (Nat × Nat)
  /-- the flits that the last replay request sent out again -/
  resent : List SentFlit
  deriving DecidableEq, Repr

/-- The tag byte of a line (11 R260) and the cause a poisoned line holds (22 R426). -/
structure Tag where
  world : Nat
  poison : Bool
  form : Bool
  cause : Nat
  deriving DecidableEq, Repr

/-- Memory outside the cores. `hbm` holds bytes by physical address and `host` by host address in canonical form; tags and
planted symbol errors go by line; `staging` and `stagingForm` by die, slice and offset (11 R257). -/
structure Mem where
  hbm : List Host.Cell
  tags : Tbl Tag
  planted : Tbl (List (Nat × Byte))
  host : List Host.Cell
  staging : List Host.Cell
  stagingForm : List Nat
  /-- the staging lines that an uncorrectable error has poisoned (22 R425, R426) -/
  stagingPoison : List Nat
  /-- backing slots of 2 KiB (12 R264): bytes, poisoned 8-byte words, the die of each slot in reserved staging ways (the others lie in
  HBM), the die from which each slot was filled, reference counts of shared-out slots, the next fresh slot -/
  slots : List Host.Cell
  slotPoison : List Nat
  slotDies : Tbl Nat
  slotHome : Tbl Nat
  slotRefs : Tbl Nat
  nextSlot : Nat
  deriving DecidableEq, Repr

/-- What a trace record tells: a quire miss (02 R66), or a page fault of cause 0x28 or 0x29 at a scratchpad address (12 R271). -/
inductive Traced where
  | miss (cls : SlotClass) (index : Nat)
  | fault (cause addr : Nat)
  deriving DecidableEq, Repr

/-- A trace record (02 R66, 12 R271). -/
structure TraceRec where
  core : Nat
  quad : Nat
  bank : Nat
  what : Traced
  cycle : DWord
  deriving DecidableEq, Repr

/-- What a fault that the injector plants does (22 R430): a corrected error on a die, an uncorrectable line, or a poisoned pool word of
a core's bank. -/
inductive Planted where
  | corrected (die : Nat)
  | line (line : Nat)
  | word (core bank word : Nat)
  deriving DecidableEq, Repr

/-- An MSI-X message that has left for the host (26 R463): the function, and the address and data of the vector's table entry. -/
structure Message where
  part : Nat
  addr : DWord
  data : Word
  deriving DecidableEq, Repr

/-- Everything the spec gives the module. -/
structure Device where
  bringUp : Nat
  parts : Tbl Part
  dies : Tbl Die
  cores : Tbl Core
  launches : Tbl Launch
  teams : Tbl Team
  groups : Tbl Group
  fw : Tbl Group
  ports : Tbl Port
  mem : Mem
  pfLog : List LogEntry
  /-- whether tracing is on, and the records emitted (02 R66): no step of the manual turns it on or off -/
  tracing : Bool
  trace : List TraceRec
  /-- the MSI-X messages sent -/
  msgs : List Message
  /-- the die of the first core admitted at the last grid release (09 R234) -/
  slewDie : Nat
  /-- free values drawn so far; fresh numbers for teams, launches, groups and requests -/
  drawn : Nat
  /-- the faults planted since the last bundle opened: they stand though the bundle traps or waits (22 R430) -/
  hits : List Planted
  nextTeam : Nat
  nextLaunch : Nat
  nextGroup : Nat
  nextReq : Nat
  deriving DecidableEq, Repr

-- the model's own

/-- Which group of the device a bundle belongs to. -/
inductive Gid where
  | user (id : Nat)
  | fw (key : Nat)
  deriving DecidableEq, Repr

/-- What a bundle's C slot asks of the bundle's end. -/
inductive Redirect where
  | next
  | jump (pc : DWord)
  | split (target : DWord) (taken : LaneMask)
  | join (mask : LaneMask)
  | iret
  | exit
  deriving DecidableEq, Repr

/-- The open bundle: the device as it was when the bundle began (what a trap or a wait returns to), the group as it stood
(what every slot reads, 01 R15), and what the slots leave to the bundle's end. -/
structure OpenBundle where
  start : Device
  gid : Gid
  slotB : Bool
  pc : DWord
  npc : DWord
  /-- the quire indices it names, and the cycle of its pick -/
  idx : List (SlotClass × Nat)
  cycle : Nat
  lits : List Word
  lookM : Nat
  lookE : Nat
  ew : Nat
  regs : GCore
  lanes : LaneMask
  fmt : Word
  redirect : Redirect
  /-- lanes that POP.LEAVE retires, with the population -/
  leave : Option Nat
  /-- the population and round at which RSMP arrives: the members' windows are held at the bundle's end (18 R381) -/
  hold : Option (Nat × Nat)
  /-- the pages of the bundle's frame demand so far (12 R268) -/
  demand : List Nat
  /-- the bundle commits as a checkpoint; it is a commit point -/
  ckAfter : Bool
  parkAs : Park
  deriving DecidableEq, Repr

/-- A step to come: an event, the next packet of a stream, or the end of a turnover. -/
inductive Turn where
  | event (i : Instr)
  | packet (at_ : Stream)
  /-- a turnover that runs goes through its remaining steps -/
  | turnover (part : Nat)
  deriving DecidableEq, Repr

/-- The machine: the device, the open bundle, the steps to come in their order, and the number of steps that the scheduler of
Machine/Schedule.lean has chosen. -/
structure State where
  dev : Device
  opn : Option OpenBundle
  agenda : List Turn
  tick : Nat
  deriving DecidableEq, Repr

/-- A hub that has just come out of power-on or module reset (24 R444): nothing trained, no partition, no work. -/
def Device.reset : Device :=
  { bringUp := 0, parts := [], dies := [], cores := [], launches := [], teams := [], groups := [], fw := [], ports := [],
    mem := { hbm := [], tags := [], planted := [], host := [], staging := [], stagingForm := [], stagingPoison := [], slots := [],
             slotPoison := [], slotDies := [], slotHome := [], slotRefs := [], nextSlot := 0 },
    pfLog := [], tracing := false, trace := [], msgs := [], slewDie := 15, drawn := 0, nextTeam := 0,
    hits := [], nextLaunch := 0, nextGroup := 0, nextReq := 0 }

/-- The machine right after reset: every table at its default. -/
def State.reset : State := { dev := Device.reset, opn := none, agenda := [], tick := 0 }

end Sys2Proof.Machine
end

