-- ==== Sys2Proof/Machine/Access.lean ====
section
/-!
DEFINITION. Tables, the reset values of the parts of the device, and the accessors of registers and of the parts.
-/
namespace Sys2Proof.Machine

-- tables: keys strictly rising

/-- The value under a key, if any. -/
def tget {α : Type} : Tbl α → Nat → Option α
  | [], _ => none
  | (k, v) :: t, i => if k = i then some v else tget t i

/-- A table with a value under a key. -/
def tput {α : Type} : Tbl α → Nat → α → Tbl α
  | [], i, v => [(i, v)]
  | (k, w) :: t, i, v =>
    if i < k then (i, v) :: (k, w) :: t
    else if i = k then (i, v) :: t
    else (k, w) :: tput t i v

/-- A table with nothing under a key. -/
def tdel {α : Type} : Tbl α → Nat → Tbl α
  | [], _ => []
  | (k, w) :: t, i => if k = i then tdel t i else (k, w) :: tdel t i

/-- The value under a key, or the default of unlisted keys. -/
def tgetD {α : Type} (t : Tbl α) (k : Nat) (d : α) : α := (tget t k).getD d

/-- A table that lists a key only where its value differs from the default: the canonical form. -/
def tputD {α : Type} [DecidableEq α] (t : Tbl α) (k : Nat) (v d : α) : Tbl α := if v = d then tdel t k else tput t k v

/-- Keys strictly rising. -/
def sortedKeys {α : Type} : Tbl α → Bool
  | [] => true
  | [_] => true
  | (a, _) :: (b, v) :: t => decide (a < b) && sortedKeys ((b, v) :: t)

/-- What an unlisted byte of HBM, host memory, staging or a frame reads as. -/
def emptyByte : Byte := 0

/-- The canonical form of a memory: addresses strictly rising, and no entry equal to what an unlisted address reads as. -/
def memoryWf (m : List Host.Cell) : Bool := sortedKeys m && m.all (fun c => c.2 != emptyByte)

/-- The memories outside the cores are in canonical form. -/
def Mem.wf (m : Mem) : Bool := memoryWf m.hbm && memoryWf m.host && memoryWf m.staging && memoryWf m.slots

def readByte (m : List Host.Cell) (a : Nat) : Byte := tgetD m a emptyByte
def writeByte (m : List Host.Cell) (a : Nat) (b : Byte) : List Host.Cell := tputD m a b emptyByte

def readBytes (m : List Host.Cell) (a : Nat) : Nat → List Byte
  | 0 => []
  | n + 1 => readByte m a :: readBytes m (a + 1) n

def writeBytes (m : List Host.Cell) (a : Nat) : List Byte → List Host.Cell
  | [] => m
  | b :: t => writeBytes (writeByte m a b) (a + 1) t

/-- Little-endian value of bytes (00 R3). -/
def bytesNat : List Byte → Nat
  | [] => 0
  | b :: t => b.toNat + 256 * bytesNat t

/-- A number as n bytes, the lowest first (00 R3). -/
def natBytes : Nat → Nat → List Byte
  | 0, _ => []
  | n + 1, x => BitVec.ofNat 8 x :: natBytes n (x / 256)

/-- 32-bit words as one number, lowest first. -/
def wordsNat : List Word → Nat
  | [] => 0
  | w :: t => w.toNat + 2 ^ 32 * wordsNat t

-- lanes

/-- The 32 lanes in ascending order. -/
def lanes : List Nat := List.range 32

def allLanes : LaneMask := BitVec.allOnes 32

def lanesOf (m : LaneMask) : List Nat := lanes.filter (fun l => m.getLsbD l)

def firstLane (m : LaneMask) : Option Nat := (lanesOf m).head?

/-- The mask of one lane. -/
def laneBit (l : Nat) : LaneMask := BitVec.ofNat 32 (2 ^ l)

/-- The mask of the lanes that satisfy a test. -/
def maskOf (f : Nat → Bool) : LaneMask := lanes.foldl (fun m l => if f l then m ||| laneBit l else m) 0

def subMask (a b : LaneMask) : Bool := a &&& ~~~b == 0

-- registers of a group (01 R9, R10)

def GCore.vAt (g : GCore) (n lane : Nat) : Word := tgetD g.v (32 * n + lane) 0
def GCore.setV (g : GCore) (n lane : Nat) (w : Word) : GCore := { g with v := tputD g.v (32 * n + lane) w 0 }
def GCore.sAt (g : GCore) (n : Nat) : Word := tgetD g.s n 0
def GCore.setS (g : GCore) (n : Nat) (w : Word) : GCore := { g with s := tputD g.s n w 0 }

/-- p15 reads as 1 (01 R10). -/
def GCore.pAt (g : GCore) (n : Nat) : LaneMask := if n = 15 then allLanes else tgetD g.p n 0

/-- A write to p15 is discarded (01 R10). -/
def GCore.setP (g : GCore) (n : Nat) (m : LaneMask) : GCore := if n = 15 then g else { g with p := tputD g.p n m 0 }

def GCore.setPLane (g : GCore) (n lane : Nat) (b : Bool) : GCore :=
  g.setP n (if b then g.pAt n ||| laneBit lane else g.pAt n &&& ~~~laneBit lane)

/-- q7 reads as 1 (01 R10). -/
def GCore.qAt (g : GCore) (n : Nat) : Bool := n == 7 || g.q.getLsbD n

/-- A write to q7 is discarded (01 R10). -/
def GCore.setQ (g : GCore) (n : Nat) (b : Bool) : GCore :=
  if n = 7 then g
  else { g with q := if b then g.q ||| BitVec.ofNat 8 (2 ^ n) else g.q &&& ~~~BitVec.ofNat 8 (2 ^ n) }

def GCore.bWord (g : GCore) (n k : Nat) : Word := tgetD g.b (4 * n + k) 0
def GCore.setBWord (g : GCore) (n k : Nat) (w : Word) : GCore := { g with b := tputD g.b (4 * n + k) w 0 }

/-- Buffer record n as 128 bits (11 R241). -/
def GCore.bAt (g : GCore) (n : Nat) : BitVec 128 := g.bWord n 3 ++ g.bWord n 2 ++ g.bWord n 1 ++ g.bWord n 0

def GCore.xAt (g : GCore) (n : Nat) : DWord := tgetD g.x n 0
def GCore.setX (g : GCore) (n : Nat) (d : DWord) : GCore := { g with x := tputD g.x n d 0 }

/-- Element (row, column) of accumulator tile n. -/
def GCore.accAt (g : GCore) (n row col : Nat) : Word := tgetD g.acc (1024 * n + 32 * row + col) 0
def GCore.setAcc (g : GCore) (n row col : Nat) (w : Word) : GCore :=
  { g with acc := tputD g.acc (1024 * n + 32 * row + col) w 0 }

def GCore.perfAt (g : GCore) (lane : Nat) : BitVec 4 := tgetD g.perf lane 0
def GCore.popAt (g : GCore) (lane : Nat) : PopState := tgetD g.pop lane .none
def GCore.setPop (g : GCore) (lane : Nat) (p : PopState) : GCore := { g with pop := tputD g.pop lane p .none }

def GCore.slot (g : GCore) (b : Bool) : PcSlot := if b then g.slotB else g.slotA
def GCore.setSlot (g : GCore) (b : Bool) (p : PcSlot) : GCore := if b then { g with slotB := p } else { g with slotA := p }

/-- The words of a v register operand. -/
def GCore.vWords (g : GCore) (n lane : Nat) : Nat → List Word
  | 0 => []
  | k + 1 => g.vAt n lane :: g.vWords (n + 1) lane k

def GCore.sWords (g : GCore) (n : Nat) : Nat → List Word
  | 0 => []
  | k + 1 => g.sAt n :: g.sWords (n + 1) k

/-- Writes words to consecutive v registers of a lane. -/
def GCore.setVWords (g : GCore) (n lane : Nat) : List Word → GCore
  | [] => g
  | w :: t => (g.setV n lane w).setVWords (n + 1) lane t

def GCore.setSWords (g : GCore) (n : Nat) : List Word → GCore
  | [] => g
  | w :: t => (g.setS n w).setSWords (n + 1) t

def GCore.setBWords (g : GCore) (n k : Nat) : List Word → GCore
  | [] => g
  | w :: t => (g.setBWord n k w).setBWords n (k + 1) t

def idleSlot : PcSlot := { st := .idle, pc := 0, next := 0, lanes := 0, fmt := 0, mask := 0, held := none }

/-- A path that issues (07 R182). -/
def issuingSlot (pc : DWord) (lanes : LaneMask) (fmt : Word) : PcSlot :=
  { st := .issuing, pc, next := 0, lanes, fmt, mask := 0, held := none }

/-- A group's registers at its first bundle (01 R9, 07 R182). -/
def GCore.start (entry : DWord) (fmt : Word) (live : LaneMask) : GCore :=
  { v := [], p := [], s := [], q := 0, b := [], x := [], acc := [], slotA := issuingSlot entry live fmt, slotB := idleSlot,
    turnB := false, stack := [], live, perf := [], pop := [], pend := [], tiles := [], fences := [], zeroOp := 0, pushes := [],
    pops := [], handler := none, shadowS := [], shadowQ := 0 }

def Group.start (kind : GroupKind) (index : Nat) (producer : Bool) (quad pos : Nat) (c : GCore) : Group :=
  { kind, index, producer, quad, pos, core := c, ck := c, hamper := [], waiting := [], flight := [], flightCore := 0, spanV := [], spanLen := 0,
    nextOp := 0, lastIssue := none, issueCycle := 0#64, stackWait := false, holdWait := none, armed := false, uq := [], park := .none, waits := .none, abandon := false,
    checks := [], trapRec := 0, trapSet := false, deferred := none, past := none, stopped := false, retired := false,
    halted := false }

/-- A firmware context's registers at reset (21 R416): slot A idle until a firmware bundle is given. -/
def Group.firmware (core quad : Nat) : Group :=
  Group.start (.firmware core quad) 0 true quad 0 (GCore.start 0 0 allLanes)

-- parts of the device at their reset values

/-- A sequencer's registers (09 R230: BURST 1, INTERVAL 64). -/
def Seqr.reset : Seqr := { share := 0x140, credits := 0, creditAt := 0, lastIssue := none, gsel := 0, rsel := 0 }

def BankMem.reset : BankMem := { bytes := [], refs := [], poison := [] }

/-- A core (09 R233: the budget at which no stall occurs). -/
def Core.reset : Core :=
  { cycle := 0, front := false, flipPend := false, flipAt := 0, drain := .idle, missCount := 0, stallCount := 0, faultCount := 0,
    weights := [], now := 0, budget := 3840, ages := [], picked := [], fwPicked := [], fwPorts := [], tabs := [], l1 := [], l1First := [], stb := [],
    mq := [], kicks := [], reqs := [], ciphers := [], banks := [], seqs := [], fwFault := false, residue := none }

/-- A die (11 R256: RWAYS 2, SWAYS 4). -/
def Die.reset : Die :=
  { rways := 2, sways := 4, level := 0, target := 0, limit := false, gated := false, changing := none, heat := [],
    absent := false, corrected := 0, segCache := [], scrubWorld := 0 }

/-- A stream (26 R463: ring size 2^12). -/
def StreamSt.reset : StreamSt :=
  { base := 0, log2 := 12, wptr := 0, cause := 0, err := 0, stop := false, wait := .none, len := 0, levels := [], pops := [],
    writes := 0, value := 0 }

def Injector.reset : Injector :=
  { rate := 0, count := 0, double := false, en := false, targets := 0, seed := 0, n := 0 }

def Measured.reset : Measured := { locked := none, turnovers := 0, health := false, answer := [] }

/-- A partition not created (26 R461), with the power cap's reset value (24 R439). -/
def Part.reset : Part :=
  { dies := 0, state := 0, test := false, conf := false, prot := false, res := false, cap := 15, ctl := 0, segBase := 0,
    inval := none, moving := [], streams := [], active := 0, bankCtx := [], gq := [], log := [], lost := 0, nextSeq := 0,
    msix := [], pba := [], tdi := .unlocked, keys := [], inj := Injector.reset, saveHead := 0, saveCount := 0, offList := [],
    debugger := false, exportBase := 0, pops := [], meas := Measured.reset, susp := false, suspDue := none,
    turn := none, unsupported := 0 }

def Port.reset : Port :=
  { up := false, failed := false, partner := 0, txKeys := [], rxKeys := [], txSlot := 0, txCtr := 0, rxSlot := 0,
    rxCtr := 0, replay := [], queue := [], naks := 0, nakAt := 0, nextTag := 0, wantReplay := none, acked := none,
    resent := [] }

def Ring.reset : Ring :=
  { conf := none, tail := 0, head := 0, popDone := [], rtail := 0, rhead := 0, pushOwner := none, popOwner := none, view := none,
    waiting := 0 }

def Barrier.reset : Barrier := { phase := 0, expected := none, role := none, all := false, arrived := [], solo := none }

def Tag.reset : Tag := { world := 0, poison := false, form := false, cause := 0 }

-- accessors of the parts

def Device.core (d : Device) (c : Nat) : Core := tgetD d.cores c Core.reset
def Device.setCore (d : Device) (c : Nat) (x : Core) : Device := { d with cores := tputD d.cores c x Core.reset }
def Device.die (d : Device) (i : Nat) : Die := tgetD d.dies i Die.reset
def Device.setDie (d : Device) (i : Nat) (x : Die) : Device := { d with dies := tputD d.dies i x Die.reset }
def Device.part (d : Device) (p : Nat) : Part := tgetD d.parts p Part.reset
def Device.setPart (d : Device) (p : Nat) (x : Part) : Device := { d with parts := tputD d.parts p x Part.reset }
def Device.port (d : Device) (p : Nat) : Port := tgetD d.ports p Port.reset
def Device.setPort (d : Device) (p : Nat) (x : Port) : Device := { d with ports := tputD d.ports p x Port.reset }

/-- A core's number in the device is 160 × die + core (00 R1). -/
def dieOf (core : Nat) : Nat := core / 160

def Device.group (d : Device) : Gid → Option Group
  | .user id => tget d.groups id
  | .fw key => some ((tget d.fw key).getD (Group.firmware (key / 4) (key % 4)))

def Device.setGroup (d : Device) (g : Gid) (x : Group) : Device :=
  match g with
  | .user id => { d with groups := tput d.groups id x }
  | .fw key => { d with fw := tput d.fw key x }

def Device.modGroup (d : Device) (g : Gid) (f : Group → Group) : Device :=
  match d.group g with
  | some x => d.setGroup g (f x)
  | none => d

/-- The bytes of a request's box (17 R357). -/
def CopyRec.total (r : CopyRec) : Nat := r.x0 * r.x1 * r.x2

/-- The ring or queue a request pushes into (17 R356). -/
def CopyRec.ring (r : CopyRec) : Option Nat :=
  if r.dkind = 4 then some (r.daddr % 16) else if r.dkind = 5 then some (16 + r.daddr % 4) else none

/-- A request that has bytes to move. -/
def CopyReq.moving (r : CopyReq) : Bool := r.fault.isNone && decide (r.n < r.rcd.total)

/-- Whether a request waits for ownership of a team's ring (16 R323). -/
def CopyReq.awaits (r : CopyReq) (team ring : Nat) : Bool :=
  r.moving && !r.owner && r.rcd.ring == some ring && (match r.kick with | some k => k.team == team | none => false)

def Device.team (d : Device) (t : Nat) : Option Team := tget d.teams t
def Device.setTeam (d : Device) (t : Nat) (x : Team) : Device := { d with teams := tput d.teams t x }

def Device.modTeam (d : Device) (t : Nat) (f : Team → Team) : Device :=
  match d.team t with
  | some x => d.setTeam t (f x)
  | none => d

def Device.modCore (d : Device) (c : Nat) (f : Core → Core) : Device := d.setCore c (f (d.core c))
def Device.modPart (d : Device) (p : Nat) (f : Part → Part) : Device := d.setPart p (f (d.part p))
def Device.modDie (d : Device) (i : Nat) (f : Die → Die) : Device := d.setDie i (f (d.die i))
def Device.modPort (d : Device) (p : Nat) (f : Port → Port) : Device := d.setPort p (f (d.port p))

def Device.launch (d : Device) (l : Nat) : Option Launch := tget d.launches l
def Device.setLaunch (d : Device) (l : Nat) (x : Launch) : Device := { d with launches := tput d.launches l x }

def Device.modLaunch (d : Device) (l : Nat) (f : Launch → Launch) : Device :=
  match d.launch l with
  | some x => d.setLaunch l (f x)
  | none => d

def Device.modMem (d : Device) (f : Mem → Mem) : Device := { d with mem := f d.mem }

/-- The team of a user group. -/
def Device.teamOf (d : Device) (g : Gid) : Option (Nat × Team) :=
  match d.group g with
  | some x =>
    match x.kind with
    | .user t => (d.team t).map (fun tm => (t, tm))
    | .firmware _ _ => none
  | none => none

/-- The core a group sits on: a team's place, or a firmware context's own. -/
def Device.coreOf (d : Device) (g : Gid) : Option Nat :=
  match g with
  | .fw key => some (key / 4)
  | .user _ =>
    match d.teamOf g with
    | some (_, t) => t.place.map (fun p => p.1)
    | none => none

def Device.launchOf (d : Device) (g : Gid) : Option (Nat × Launch) :=
  match d.teamOf g with
  | some (_, t) => (d.launch t.launch).map (fun l => (t.launch, l))
  | none => none

/-- The partition that holds a die, 0 for none. -/
def Device.partOfDie (d : Device) (die : Nat) : Nat :=
  match d.parts.find? (fun p => p.2.dies.getLsbD die && p.2.state != 0) with
  | some p => p.1
  | none => 0

def Device.partOf (d : Device) (g : Gid) : Nat :=
  match d.launchOf g with
  | some (_, l) => l.part
  | none =>
    match d.coreOf g with
    | some c => d.partOfDie (dieOf c)
    | none => 0

def Team.ring (t : Team) (n : Nat) : Ring := tgetD t.rings n Ring.reset
def Team.setRing (t : Team) (n : Nat) (r : Ring) : Team := { t with rings := tputD t.rings n r Ring.reset }
def Team.bar (t : Team) (n : Nat) : Barrier := tgetD t.bars n Barrier.reset
def Team.setBar (t : Team) (n : Nat) (b : Barrier) : Team := { t with bars := tputD t.bars n b Barrier.reset }

def Core.bank (c : Core) (b : Nat) : BankMem := tgetD c.banks b BankMem.reset
def Core.setBank (c : Core) (b : Nat) (x : BankMem) : Core := { c with banks := tputD c.banks b x BankMem.reset }
def Core.seq (c : Core) (q : Nat) : Seqr := tgetD c.seqs q Seqr.reset
def Core.setSeq (c : Core) (q : Nat) (x : Seqr) : Core := { c with seqs := tputD c.seqs q x Seqr.reset }
def Core.age (c : Core) (bank pair : Nat) : List Nat := tgetD c.ages (2 * bank + pair) []
def Core.setAge (c : Core) (bank pair : Nat) (l : List Nat) : Core :=
  { c with ages := tputD c.ages (2 * bank + pair) l [] }

/-- Which physical bank is front. -/
def Core.frontBank (c : Core) : Nat := c.front.toNat
def Core.backBank (c : Core) : Nat := 1 - c.frontBank

def Part.stream (p : Part) (i : Nat) : StreamSt := tgetD p.streams i StreamSt.reset
def Part.setStream (p : Part) (i : Nat) (x : StreamSt) : Part := { p with streams := tputD p.streams i x StreamSt.reset }

/-- The dies of a partition in ascending order; the lowest is its lead die (26 R461). -/
def Part.dieList (p : Part) : List Nat := (List.range 16).filter (fun i => p.dies.getLsbD i)
def Part.lead (p : Part) : Nat := p.dieList.headD 0

/-- A table walk's keys. -/
def keysOf {α : Type} (t : Tbl α) : List Nat := t.map (fun x => x.1)

/-- A draw number for a free value (log entry 6, DESIGN CHOICE), and the device with the counter advanced. -/
def Device.draw (d : Device) : Nat × Device := (d.drawn, { d with drawn := d.drawn + 1 })

end Sys2Proof.Machine
end

