-- ==== Sys2Proof/Machine/Memory.lean ====
section
/-!
DEFINITION. Memory outside the registers: segments and translation (11 R249 to R254), L1 (R255), the tag byte and the codes
of a stored line (R258 to R261), and the scratchpad's pages and frames (12 R262 to R269).
-/
namespace Sys2Proof.Machine

-- segments (11 R249, R250)

def segSize : Nat := 2 ^ 21

def readHbm (d : Device) (pa n : Nat) : Nat := bytesNat (readBytes d.mem.hbm pa n)

/-- A segment entry's fields. -/
def segState (e : BitVec 128) : Nat := e.toNat % 4
def segLoc (e : BitVec 128) : Nat := e.toNat / 4 % 4
def segRead (e : BitVec 128) : Bool := e.getLsbD 4
def segWrite (e : BitVec 128) : Bool := e.getLsbD 5
def segExec (e : BitVec 128) : Bool := e.getLsbD 6
def segWorld (e : BitVec 128) : Nat := e.toNat / 2 ^ 8 % 32
def segBase (e : BitVec 128) : Nat := e.toNat / 2 ^ 21 % 2 ^ 43 * 2 ^ 21
def segPeer (e : BitVec 128) : Nat := e.toNat / 2 ^ 64 % 2 ^ 16

/-- 11 R251: a reserved code or a non-zero reserved bit counts as absent; so does a local segment outside the 1 TiB of
HBM (log entry 11, DEDUCED). -/
def segAbsent (e : BitVec 128) : Bool :=
  segState e == 0 || segState e == 3 || segLoc e == 3 || e.getLsbD 7 || decide (e.toNat / 2 ^ 13 % 2 ^ 8 ≠ 0) ||
    decide (e.toNat / 2 ^ 80 ≠ 0) || (segLoc e == 0 && decide (2 ^ 40 ≤ segBase e))

/-- The physical address of a segment's entry, if its level-1 entry is valid. Reserved bits of a level-1 entry are ignored (log entry 39,
DESIGN CHOICE: 11 R251 speaks of those of the segment's entry). -/
def segEntryAddr (d : Device) (part va : Nat) : Option Nat :=
  let l1 := readHbm d ((d.part part).segBase + 8 * (va / 2 ^ 39 % 2 ^ 18)) 8
  if l1 % 2 = 0 then none else some (l1 / 2 ^ 22 % 2 ^ 30 * 2 ^ 22 + 16 * (va / 2 ^ 21 % 2 ^ 18))

/-- A table walk. -/
def walkSegment (d : Device) (part va : Nat) : BitVec 128 :=
  match segEntryAddr d part va with
  | some a => BitVec.ofNat 128 (readHbm d a 16)
  | none => 0

/-- The entry a die uses: its cached one, else the table's (11 R252). -/
def segEntry (d : Device) (part die va : Nat) : BitVec 128 :=
  match tget (d.die die).segCache (va / segSize) with
  | some e => e
  | none => walkSegment d part va

/-- A die's cache holds 4096 present entries; the lowest is the victim (log entry 8, DESIGN CHOICE). -/
def cacheSegment (d : Device) (part die va : Nat) : Device :=
  let e := segEntry d part die va
  if segAbsent e || segState e != 1 || decide (2 ^ 57 ≤ va) then d
  else
    d.modDie die (fun x =>
      let c := if x.segCache.length < 4096 then x.segCache else x.segCache.drop 1
      { x with segCache := tput c (va / segSize) e })

/-- What translation answers (11 R251). -/
inductive Xlate where
  | local_ (pa : Nat)
  | host (a : Nat)
  | peer (n a : Nat)
  | waits
  | fault (cause : Nat)
  deriving DecidableEq, Repr

/-- The rights an access needs. -/
structure Needs where
  read : Bool
  write : Bool
  exec : Bool
  deriving DecidableEq, Repr

/-- 11 R251, rows from top to bottom; `thread` accesses reach local HBM only. A record whose index carries the address to 2^57 or above does
not wrap: the access takes 0x2A (log entry 39, DESIGN CHOICE). -/
def translate (d : Device) (part die va : Nat) (needs : Needs) (thread : Bool) : Xlate :=
  let e := segEntry d part die va
  if decide (2 ^ 57 ≤ va) || segAbsent e then .fault 0x2A
  else if segWorld e ≠ part then .fault 0x26
  else if thread && segLoc e != 0 then .fault 0x2E
  else if (needs.read && !segRead e) || (needs.write && !segWrite e) || (needs.exec && !segExec e) then .fault 0x2B
  else if segState e = 2 then .waits
  else
    let a := segBase e + va % segSize
    match segLoc e with
    | 0 => .local_ a
    | 1 => .host a
    | _ => .peer (segPeer e) a

/-- Translation for an agent whose access to a migrating segment waits: it acts at the old place, which nothing else reaches until
the copy of 11 R254 takes its effect along. -/
def heldXlate (d : Device) (part die va : Nat) (n : Needs) (thread : Bool) : Xlate :=
  match translate d part die va n thread with
  | .waits =>
    let e := segEntry d part die va
    let a := segBase e + va % segSize
    (match segLoc e with | 0 => .local_ a | 1 => .host a | _ => .peer (segPeer e) a)
  | x => x

-- lines in HBM (11 R258 to R261)

def lineOf (a : Nat) : Nat := a / 64

/-- The die whose stack holds a physical address (11 R250). -/
def homeDie (pa : Nat) : Nat := pa / 2 ^ 36

/-- The tag byte of a line; an unlisted line has the world of its die's last scrub (26 R469). -/
def tagOf (d : Device) (line : Nat) : Tag :=
  (tget d.mem.tags line).getD { Tag.reset with world := (d.die (homeDie (64 * line))).scrubWorld }

def setTag (d : Device) (line : Nat) (t : Tag) : Device := d.modMem (fun m => { m with tags := tput m.tags line t })

/-- 11 R246 step 6: what a requester of a world takes from a line's tag byte. -/
def tagCause (d : Device) (world line : Nat) : Option Nat :=
  let t := tagOf d line
  if t.world ≠ world then some 0x26
  else if t.form then some 0x2C
  else if t.poison then some t.cause
  else none

/-- Poisons a line (22 R426). -/
def poisonLine (d : Device) (line cause : Nat) : Device :=
  setTag d line { tagOf d line with poison := true, cause }

/-- Multiplication in GF(2^8) modulo 0x11D (11 R261). -/
def gfMul (a b : Nat) : Nat → Nat
  | 0 => 0
  | n + 1 =>
    let r := gfMul a b n
    let r2 := if 128 ≤ r then Nat.xor (r * 2) 0x11D else r * 2
    if b / 2 ^ (8 - (n + 1)) % 2 = 1 then Nat.xor r2 a else r2

def gf (a b : Nat) : Nat := gfMul a b 8

/-- α to the power n, α = 2. -/
def gfPow : Nat → Nat
  | 0 => 1
  | n + 1 => gf (gfPow n) 2

/-- Syndrome i of an error pattern; symbol 0 is the coefficient of x^74. -/
def syndrome (errs : List (Nat × Byte)) (i : Nat) : Nat :=
  errs.foldl (fun s e => Nat.xor s (gf e.2.toNat (gfPow (i * (74 - e.1) % 255)))) 0

/-- The inverse in GF(2^8). -/
def gfInv (a : Nat) : Nat := (List.range 254).foldl (fun r _ => gf r a) 1

/-- The errors a and b on symbols 2k and 2k + 1 that have syndromes 0 and 1 of the pattern; symbol 75 does not exist. -/
def pinGroupFit (errs : List (Nat × Byte)) (k : Nat) : List (Nat × Byte) :=
  let x := gfPow (74 - 2 * k)
  if k = 37 then [(74, BitVec.ofNat 8 (syndrome errs 0))]
  else
    let y := gfPow (74 - (2 * k + 1))
    let s0 := syndrome errs 0
    let s1 := syndrome errs 1
    let b := gf (Nat.xor s1 (gf s0 x)) (gfInv (Nat.xor x y))
    [(2 * k, BitVec.ofNat 8 (Nat.xor s0 b)), (2 * k + 1, BitVec.ofNat 8 b)]

/-- What the base die makes of a stored line's errors (11 R261). -/
inductive LineRead where
  | clean
  | corrected (errs : List (Nat × Byte))
  | bad
  deriving DecidableEq, Repr

def syndromes (errs : List (Nat × Byte)) : List Nat := (List.range 8).map (syndrome errs)

def lineRead (errs : List (Nat × Byte)) : LineRead :=
  let s := syndromes errs
  if s.all (· == 0) then .clean
  else
    match (List.range 38).find? (fun k => decide (syndromes (pinGroupFit errs k) = s)) with
    | some k => .corrected (pinGroupFit errs k)
    | none => .bad

/-- CRC-16 of one byte, most significant bit first, polynomial 0x8BB7 (11 R259). -/
def crcByte (crc : Nat) (b : Byte) : Nat :=
  (List.range 8).foldl
    (fun c i =>
      let top := c / 2 ^ 15 % 2
      let c2 := c * 2 % 2 ^ 16
      if top + b.toNat / 2 ^ (7 - i) % 2 = 1 then Nat.xor c2 0x8BB7 else c2)
    crc

/-- The line check of data bytes. -/
def lineCheck (data : List Byte) : Nat := data.foldl crcByte 0

/-- A line's 75 symbols apply an error pattern: the data bytes it changes, and its tag byte. A line that it marks poisoned holds cause 0xC1,
since no reserved code is raised (20 R408) (log entry 37, DESIGN CHOICE). -/
def applyErrors (d : Device) (line : Nat) (errs : List (Nat × Byte)) : Device :=
  errs.foldl
    (fun d e =>
      if e.1 < 64 then
        let a := 64 * line + e.1
        d.modMem (fun m => { m with hbm := writeByte m.hbm a (readByte m.hbm a ^^^ e.2) })
      else if e.1 = 66 then
        let t := tagOf d line
        let k := e.2.toNat
        let poison := t.poison != (k / 2 % 2 == 1)
        setTag d line { world := Nat.xor t.world (k / 4 % 32), form := t.form != (k % 2 == 1), poison
                        cause := if poison && !t.poison then 0xC1 else t.cause }
      else d)
    d

/-- An error pattern's value on a symbol. -/
def symbolAt (errs : List (Nat × Byte)) (i : Nat) : Byte := errs.foldl (fun b e => if e.1 = i then b ^^^ e.2 else b) 0

/-- What is left of an error pattern after a correction. -/
def netErrors (errs fixed : List (Nat × Byte)) : List (Nat × Byte) :=
  ((List.range 75).map (fun i => (i, symbolAt errs i ^^^ symbolAt fixed i))).filter (fun e => e.2 != 0)

/-- Whether the line check still holds under an error pattern; the code is linear (11 R259). -/
def checkHolds (net : List (Nat × Byte)) : Bool :=
  lineCheck ((List.range 64).map (symbolAt net)) == (symbolAt net 64).toNat + 256 * (symbolAt net 65).toNat

-- L1 (11 R255)

def l1Key (world va : Nat) : Nat := world * 2 ^ 51 + va / 64

/-- The line that a full L1 gives up: one marked to be evicted first, else the one with the lowest key (log entry 8, DESIGN CHOICE). -/
def l1Victim (c : Core) : Option Nat :=
  match c.l1First.find? (fun k => (tget c.l1 k).isSome) with
  | some k => some k
  | none => c.l1.head?.map (fun x => x.1)

/-- Fills a line into the 256 KiB of a core's L1; `first` marks it to be evicted first. -/
def l1Fill (d : Device) (core world va : Nat) (data : List Byte) (first : Bool) : Device :=
  d.modCore core (fun c =>
    let key := l1Key world va
    let t := if c.l1.length < 4096 || (tget c.l1 key).isSome then c.l1
      else match l1Victim c with | some k => tdel c.l1 k | none => c.l1
    let rest := c.l1First.filter (fun k => k != key && (tget t k).isSome)
    { c with l1 := tput t key data, l1First := if first then key :: rest else rest })

def l1Drop (d : Device) (core world va : Nat) : Device :=
  d.modCore core (fun c => { c with l1 := tdel c.l1 (l1Key world va) })

/-- Removes every line of a world (13 R280, 14 R313). -/
def l1DropWorld (d : Device) (core world : Nat) : Device :=
  d.modCore core (fun c => { c with l1 := c.l1.filter (fun x => x.1 / 2 ^ 51 != world) })

/-- A byte of an L1 line, when held. -/
def l1SetByte (d : Device) (core world va : Nat) (b : Byte) : Device :=
  d.modCore core (fun c =>
    match tget c.l1 (l1Key world va) with
    | some l => { c with l1 := tput c.l1 (l1Key world va) (l.set (va % 64) b) }
    | none => c)

-- the scratchpad page table (12 R264)

inductive PageState where
  | unmapped | resident | out | sharedOut
  deriving DecidableEq, Repr

/-- An SPT entry's fields; PINNED is computed. -/
structure SptEntry where
  state : PageState
  cow : Bool
  dirty : Bool
  bloc : Bool
  bvalid : Bool
  bslot : Nat
  frame : Nat
  deriving DecidableEq, Repr

def zeroSlot : Nat := 0xFFFFFFFF

/-- Out with the zero slot (12 R263). -/
def SptEntry.zeroOut : SptEntry :=
  { state := .out, cow := false, dirty := false, bloc := false, bvalid := true, bslot := zeroSlot, frame := 0 }

/-- An entry with a reserved bit or a frame out of range counts as unmapped; so does one whose FRAME is not 0 in another
state than resident. -/
def SptEntry.ofBits (e : DWord) : SptEntry :=
  let n := e.toNat
  let frame := n % 2 ^ 11
  let st := n / 2 ^ 62
  let bad := decide (n / 2 ^ 48 % 2 ^ 9 ≠ 0) || decide (n / 2 ^ 11 % 2 ^ 5 ≠ 0) || decide (1535 < frame) ||
    (st != 1 && frame != 0)
  { state := if bad then .unmapped else match st with | 0 => .unmapped | 1 => .resident | 2 => .out | _ => .sharedOut
    cow := e.getLsbD 61, dirty := e.getLsbD 60, bloc := e.getLsbD 58, bvalid := e.getLsbD 57, bslot := n / 2 ^ 16 % 2 ^ 32,
    frame }

def SptEntry.bits (e : SptEntry) : DWord :=
  let st := match e.state with | .unmapped => 0 | .resident => 1 | .out => 2 | .sharedOut => 3
  BitVec.ofNat 64 (st * 2 ^ 62 + e.cow.toNat * 2 ^ 61 + e.dirty.toNat * 2 ^ 60 + e.bloc.toNat * 2 ^ 58 +
    e.bvalid.toNat * 2 ^ 57 + e.bslot * 2 ^ 16 + e.frame)

def Team.page (t : Team) (page : Nat) : SptEntry := SptEntry.ofBits (tgetD t.spt page SptEntry.zeroOut.bits)
def Team.setPage (t : Team) (page : Nat) (e : SptEntry) : Team :=
  { t with spt := tputD t.spt page e.bits SptEntry.zeroOut.bits }

def pageSize : Nat := 2048
def stackBase : Nat := 0xFE0000

/-- 12 R266 step 2: the reconvergence-stack range. -/
def inStackRange (a : Nat) : Bool := decide (stackBase ≤ a) && decide (a < 2 ^ 24)

/-- 12 R266: a scratchpad access at a byte address. `prog` marks a program's access (step 2). The answer is the frame
byte, or the cause. -/
def scratchTranslate (t : Team) (addr : Int) (write prog : Bool) : Except Nat Nat :=
  if addr < 0 ∨ (2 ^ 24 : Int) ≤ addr then .error 0x23
  else
    let a := addr.toNat
    if prog && inStackRange a then .error 0x24
    else
      let e := t.page (a / pageSize)
      match e.state with
      | .unmapped => .error 0x23
      | .out | .sharedOut => .error 0x28
      | .resident => if write && e.cow then .error 0x29 else .ok (e.frame * pageSize + a % pageSize)

/-- A byte of a resident page. -/
def frameByte (d : Device) (place : Nat × Nat) (fb : Nat) : Byte := tgetD ((d.core place.1).bank place.2).bytes fb emptyByte

def setFrameByte (d : Device) (place : Nat × Nat) (fb : Nat) (b : Byte) : Device :=
  d.modCore place.1 (fun c =>
    let k := c.bank place.2
    c.setBank place.2 { k with bytes := tputD k.bytes fb b emptyByte })

/-- Bytes of a team's scratchpad, 0 where no frame holds them; of a team that has retired, as it left them (15 R319) (log entry 39, DESIGN
CHOICE). -/
def scratchBytes (d : Device) (t : Team) (addr : Nat) : Nat → List Byte
  | 0 => []
  | n + 1 =>
    (if t.retired then readByte t.last addr
     else match t.place, scratchTranslate t addr false false with
     | some p, .ok fb => frameByte d p fb
     | _, _ => emptyByte) :: scratchBytes d t (addr + 1) n

/-- Whether the 8-byte word of a byte is poisoned (22 R425). -/
def scratchPoisoned (d : Device) (t : Team) (addr : Nat) : Bool :=
  match t.place, scratchTranslate t addr false false with
  | some p, .ok fb => ((d.core p.1).bank p.2).poison.contains (fb / 8)
  | _, _ => false

/-- A store that covers all 8 bytes of a word clears its poison. -/
def clearPoison (d : Device) (t : Team) (addr : Nat) : Device :=
  match t.place, scratchTranslate t addr false false with
  | some p, .ok fb =>
    d.modCore p.1 (fun c =>
      let k := c.bank p.2
      c.setBank p.2 { k with poison := k.poison.filter (fun w => w != fb / 8) })
  | _, _ => d

-- frames and backing slots (12 R262, R264, R269)

/-- The pages a team holds resident. -/
def Team.residentPages (t : Team) : List Nat :=
  (keysOf t.spt).filter (fun p => decide ((t.page p).state = .resident))

def Team.frameCount (t : Team) : Nat := ((t.residentPages.map (fun p => (t.page p).frame)).eraseDups).length

def BankMem.ref (k : BankMem) (f : Nat) : Nat := tgetD k.refs f 0
def BankMem.setRef (k : BankMem) (f n : Nat) : BankMem := { k with refs := tputD k.refs f n 0 }

/-- A free frame of a bank. -/
def BankMem.free (k : BankMem) : Option Nat := (List.range 1536).find? (fun f => k.ref f == 0)

/-- What a page holds: its bytes, and its poisoned 8-byte words by their number in the page (22 R425). -/
structure PageData where
  bytes : List Byte
  poison : List Nat
  deriving DecidableEq, Repr

/-- Fills a frame with a page. -/
def fillFrame (d : Device) (place : Nat × Nat) (f : Nat) (x : PageData) : Device :=
  d.modCore place.1 (fun c =>
    let k := c.bank place.2
    let kept := k.bytes.filter (fun x => decide (x.1 / pageSize ≠ f))
    let clean := k.poison.filter (fun w => decide (w / 256 ≠ f))
    c.setBank place.2
      { k with bytes := writeBytes kept (f * pageSize) x.bytes, poison := clean ++ x.poison.map (256 * f + ·) })

/-- The page a frame holds. -/
def framePage (d : Device) (place : Nat × Nat) (f : Nat) : PageData :=
  let k := (d.core place.1).bank place.2
  { bytes := readBytes k.bytes (f * pageSize) pageSize
    poison := (k.poison.filter (fun w => w / 256 == f)).map (· % 256) }

-- the translation buffer (12 R265)

def stbKey (team page : Nat) : Nat := 8192 * team + page

def dropStb (d : Device) (team page : Nat) : Device :=
  match d.team team with
  | some t =>
    match t.place with
    | some p => d.modCore p.1 (fun c => { c with stb := tdel c.stb (stbKey team page) })
    | none => d
  | none => d

/-- Firmware changes an entry: the buffered copy goes first (12 R265). -/
def putPage (d : Device) (team page : Nat) (e : SptEntry) : Device := (dropStb d team page).modTeam team (fun t => t.setPage page e)

/-- When one mapping of a frame is left, its entry's COW is cleared (12 R269). -/
def clearLoneCow (d : Device) (place : Nat × Nat) (f : Nat) : Device :=
  if ((d.core place.1).bank place.2).ref f ≠ 1 then d
  else
    d.teams.foldl
      (fun d x =>
        if x.2.place = some place then
          x.2.residentPages.foldl
            (fun d p => if (x.2.page p).frame = f ∧ (x.2.page p).cow then putPage d x.1 p { x.2.page p with cow := false } else d) d
        else d)
      d

/-- Lowers a frame's count; the frame is free at 0. -/
def dropFrame (d : Device) (place : Nat × Nat) (f : Nat) : Device :=
  let d := d.modCore place.1 (fun c =>
    let k := c.bank place.2
    c.setBank place.2 (k.setRef f (k.ref f - 1)))
  clearLoneCow d place f

def takeFrame (d : Device) (place : Nat × Nat) (f : Nat) : Device :=
  d.modCore place.1 (fun c =>
    let k := c.bank place.2
    c.setBank place.2 (k.setRef f (k.ref f + 1)))

/-- The page a backing slot holds; the zero slot reads as zeros. -/
def slotPage (d : Device) (s : Nat) : PageData :=
  if s = zeroSlot then { bytes := List.replicate pageSize emptyByte, poison := [] }
  else
    { bytes := readBytes d.mem.slots (s * pageSize) pageSize
      poison := (d.mem.slotPoison.filter (fun w => w / 256 == s)).map (· % 256) }

/-- What a team's scratchpad holds: its frames, and the slots of its pages that are out. -/
def scratchContents (d : Device) (t : Team) : List Host.Cell :=
  (keysOf t.spt).foldl
    (fun m q =>
      let e := t.page q
      match e.state, t.place with
      | .resident, some p => writeBytes m (q * pageSize) (framePage d p e.frame).bytes
      | .out, _ | .sharedOut, _ => if e.bslot = zeroSlot then m else writeBytes m (q * pageSize) (slotPage d e.bslot).bytes
      | _, _ => m)
    []

/-- Whether a slot is one whose reference count firmware keeps (12 R264). -/
def sharedSlot (d : Device) (s : Nat) : Bool := tgetD d.mem.slotRefs s 0 != 0

def dropSlot (d : Device) (s : Nat) : Device :=
  if s = zeroSlot then d
  else d.modMem (fun m => { m with slotRefs := tputD m.slotRefs s (tgetD m.slotRefs s 0 - 1) 0 })

def refSlot (d : Device) (s n : Nat) : Device :=
  if s = zeroSlot then d
  else d.modMem (fun m => { m with slotRefs := tputD m.slotRefs s (tgetD m.slotRefs s 0 + n) 0 })

/-- The slots of a die's reserved staging ways that hold a page: an entry names them, or they are counted as shared. -/
def stagedSlots (d : Device) (die : Nat) : Nat :=
  let named := (d.teams.filter (fun t => !t.2.retired)).flatMap (fun t => t.2.spt.filterMap (fun e =>
    let x := SptEntry.ofBits e.2
    if x.bvalid then some x.bslot else none))
  (d.mem.slotDies.filter (fun s => s.2 == die && (named.contains s.1 || sharedSlot d s.1))).length

/-- Whether a die's reserved staging ways are full (11 R257): 256 slots in each way of 16 slices, of which each team's page table takes
32 (log entry 9, DESIGN CHOICE). -/
def stagingFull (d : Device) (die : Nat) : Bool :=
  decide (16 * 256 * (d.die die).rways ≤ stagedSlots d die + 32 * (d.teams.filter (fun t => !t.2.retired && t.2.home == die)).length)

/-- A fresh backing slot holding a page, in a die's staging ways or in HBM when those are full (12 R273, R274); slots are numbered in
one range (log entry 9, DESIGN CHOICE). -/
def newSlot (d : Device) (die : Nat) (x : PageData) : Nat × Device :=
  let s := d.mem.nextSlot
  let full := stagingFull d die
  (s, d.modMem (fun m =>
    { m with slots := writeBytes m.slots (s * pageSize) x.bytes, slotPoison := m.slotPoison ++ x.poison.map (256 * s + ·)
             slotDies := if full then m.slotDies else tput m.slotDies s die, slotHome := tput m.slotHome s die, nextSlot := s + 1 }))

/-- An entry as firmware writes it: BSLOT and BLOC follow the slot it names, and are 0 while BVALID is 0 (12 R264). -/
def SptEntry.backed (e : SptEntry) (d : Device) : SptEntry :=
  if e.bvalid then { e with bloc := e.bslot != zeroSlot && (tget d.mem.slotDies e.bslot).isNone }
  else { e with bloc := false, bslot := 0 }

/-- Firmware's write of an entry. -/
def writeEntry (d : Device) (team page : Nat) (e : SptEntry) : Device :=
  (putPage d team page (e.backed d)).modTeam team (fun t =>
    let rest := t.fifo.filter (· != page)
    { t with fifo := if e.state = .resident then rest ++ [page] else rest })

/-- The scratchpad pages that stores name. -/
def storePages (ws : List ByteWrite) : List Nat := ws.filterMap (fun w => if w.glob then none else some (w.addr / pageSize))

/-- 12 R267: pages that a hamper, or a load or atomic whose data are still to come, holds resident: data in the flask need no page (log entry
40, DEDUCED). -/
def groupPins (g : Group) : List Nat :=
  storePages (g.waiting ++ g.hamper) ++ g.core.pend.flatMap (fun p => if p.arrived then [] else p.pages)

/-- 12 R268: the pages of a group's frame demand at the start of a bundle. It depends on the group's own bundles alone, so a result counts
until its landing point (log entry 40, DEDUCED). -/
def demandPages (g : Group) : List Nat := storePages g.hamper ++ g.core.pend.flatMap (fun p => p.pages)

/-- The pages of the tiles that a group has pushed and not committed (12 R272). -/
def pushPages (t : Team) (g : Group) : List Nat :=
  g.core.pushes.flatMap (fun p =>
    match (t.ring p.ring).conf with
    | some c =>
      let a := c.base + p.pos % c.tcount * c.tsize * 64
      (List.range ((a + c.tsize * 64 - 1) / pageSize - a / pageSize + 1)).map (a / pageSize + ·)
    | none => [])

/-- Whether a group of a team, one left out, pins a page. -/
def pinnedBut (d : Device) (team : Nat) (but : Option Nat) (page : Nat) : Bool :=
  match d.team team with
  | some t =>
    t.groups.any (fun id => some id != but &&
      (match d.group (.user id) with
      | some g => (groupPins g).contains page || (pushPages t g).contains page
      | none => false))
  | none => false

def pinned (d : Device) (team page : Nat) : Bool := pinnedBut d team none page

/-- An entry as firmware, the debugger and the translation buffer read it: with PINNED, which a resident page alone can have (12 R264). -/
def sptWord (d : Device) (team page : Nat) : DWord :=
  match d.team team with
  | some t => (t.page page).bits ||| (if (t.page page).state = .resident ∧ pinned d team page then BitVec.ofNat 64 (2 ^ 59) else 0)
  | none => 0

/-- The buffer caches a translated entry, 2048 at most; the lowest is the victim (log entry 8, DESIGN CHOICE). -/
def cacheEntry (d : Device) (team page : Nat) : Device :=
  match d.team team with
  | some t =>
    match t.place with
    | some p =>
      d.modCore p.1 (fun c =>
        let s := if c.stb.length < 2048 then c.stb else c.stb.drop 1
        { c with stb := tput s (stbKey team page) (sptWord d team page) })
    | none => d
  | none => d

/-- A page-out (12 R269); the page is resident and not pinned. -/
def pageOut (d : Device) (team page : Nat) : Device :=
  match d.team team with
  | none => d
  | some t =>
    match t.place with
    | none => d
    | some p =>
      let e := t.page page
      if e.state ≠ .resident then d
      else if e.dirty || !e.bvalid then
        let old := if e.bvalid && sharedSlot d e.bslot then dropSlot d e.bslot else d
        let (s, d) := newSlot old (dieOf p.1) (framePage d p e.frame)
        let d := writeEntry d team page
          { e with state := .out, cow := false, dirty := false, bvalid := true, bslot := s, frame := 0 }
        dropFrame d p e.frame
      else
        let st := if sharedSlot d e.bslot then PageState.sharedOut else .out
        dropFrame (writeEntry d team page { e with state := st, cow := false, frame := 0 }) p e.frame

/-- Pages go out, the longest resident first (log entry 8, DESIGN CHOICE), until the team has a frame free of its 8 × `spu` (11 R238);
pinned pages and those in `keep` stay. None when every frame must stay. -/
def makeRoom (d : Device) (team spu : Nat) (keep : List Nat) : Nat → Option Device
  | 0 => none
  | n + 1 =>
    match d.team team with
    | none => none
    | some t =>
      if t.frameCount < 8 * spu then some d
      else
        match t.fifo.find? (fun q => !pinned d team q && !keep.contains q) with
        | some q => makeRoom (pageOut d team q) team spu keep n
        | none => none

/-- A free frame for a team, if one can be had. -/
def frameFor (d : Device) (team spu : Nat) (keep : List Nat) : Option (Nat × Device) :=
  match d.team team with
  | none => none
  | some t =>
    match t.place, makeRoom d team spu keep 8193 with
    | some p, some d => ((d.core p.1).bank p.2).free.map (fun f => (f, takeFrame d p f))
    | _, _ => none

/-- A page that is out or shared-out comes into a frame, for a read or a write (12 R269). -/
def bringIn (d : Device) (team spu page : Nat) (write : Bool) (keep : List Nat) : Option Device :=
  match (d.team team).bind (fun t => t.place.map (fun p => (t.page page, p))), frameFor d team spu keep with
  | some (e, p), some (f, d) =>
    let d := fillFrame d p f (slotPage d e.bslot)
    if e.state = .out then
      some (writeEntry d team page
        { e with state := .resident, cow := false, dirty := false, bvalid := e.bslot != zeroSlot, frame := f })
    else
      let d := if write then dropSlot d e.bslot else d
      some (writeEntry d team page { e with state := .resident, cow := !write, dirty := false, bvalid := !write, frame := f })
  | _, _ => none

/-- The copy of a page that shares its frame (12 R269). A pinned page stays; when every other frame is pinned the page itself goes out and
comes back alone. -/
def copyPage (d : Device) (team spu page : Nat) (p : Nat × Nat) (e : SptEntry) (keep : List Nat) : Option Device :=
  if pinned d team page then none
  else
    match frameFor d team spu (page :: keep) with
    | none => bringIn (pageOut d team page) team spu page true keep
    | some (f, d) =>
      let d := fillFrame d p f (framePage d p e.frame)
      let d := if e.bvalid && sharedSlot d e.bslot then dropSlot d e.bslot else d
      some (dropFrame (writeEntry d team page { e with frame := f, cow := false, dirty := false, bvalid := false }) p e.frame)

/-- 12 R269: the repair of an entry, for a read or a write; none while every frame is pinned or in `keep`. -/
def repairBut (d : Device) (team spu page : Nat) (write : Bool) (keep : List Nat) : Option Device :=
  match d.team team with
  | none => none
  | some t =>
    match t.place with
    | none => none
    | some p =>
      let e := t.page page
      match e.state with
      | .unmapped => some d
      | .resident =>
        if !(write && e.cow) then some d
        else if ((d.core p.1).bank p.2).ref e.frame ≤ 1 then some (putPage d team page { e with cow := false })
        else copyPage d team spu page p e keep
      | .out | .sharedOut => bringIn d team spu page write keep

def repairPage (d : Device) (team spu page : Nat) (write : Bool) : Option Device := repairBut d team spu page write []

/-- The scratchpad units of a team's launch. -/
def spuOf (d : Device) (team : Nat) : Nat :=
  match d.team team with
  | some t =>
    match d.launch t.launch with
    | some l => l.spine.pool / 2 ^ 8 % 2 ^ 8
    | none => 0
  | none => 0

/-- A store drains into a frame: the hardware sets DIRTY, in the buffered copy too (12 R264). -/
def markDirty (d : Device) (team page : Nat) : Device :=
  let d := d.modTeam team (fun t => t.setPage page { t.page page with dirty := true })
  match d.team team with
  | some t =>
    match t.place with
    | some p => if (tget (d.core p.1).stb (stbKey team page)).isSome then cacheEntry d team page else d
    | none => d
  | none => d

/-- Writes a byte into the frame that holds it and sets DIRTY; nothing where no frame holds it. A page shared
copy-on-write is made private first (12 R269, 17 R359). -/
def scratchPut (d : Device) (team addr : Nat) (b : Byte) : Device :=
  let page := addr / pageSize
  let d := match d.team team with
    | some t => if (t.page page).cow then (repairPage d team (spuOf d team) page true).getD d else d
    | none => d
  match d.team team with
  | none => d
  | some t =>
    match t.place, scratchTranslate t addr false false with
    | some p, .ok fb =>
      let d := setFrameByte d p fb b
      if (t.page page).dirty then d else markDirty d team page
    | _, _ => d

def scratchPutBytes (d : Device) (team addr : Nat) : List Byte → Device
  | [] => d
  | b :: t => scratchPutBytes (scratchPut d team addr b) team (addr + 1) t

/-- Bytes written at once: the words they cover whole lose their poison (22 R425). -/
def writeScratch (d : Device) (team a : Nat) (data : List Byte) : Device :=
  let d := scratchPutBytes d team a data
  (List.range data.length).foldl
    (fun d i =>
      if (a + i) % 8 = 0 ∧ i + 8 ≤ data.length then
        (match d.team team with | some t => clearPoison d t (a + i) | none => d)
      else d)
    d

/-- A range in ascending pieces of one page each. -/
def pagePieces (addr len : Nat) : List (Nat × Nat) :=
  if len = 0 then []
  else
    (List.range ((addr + len - 1) / pageSize - addr / pageSize + 1)).map (fun i =>
      let p := addr / pageSize + i
      let a := Nat.max addr (p * pageSize)
      (a, Nat.min (addr + len) ((p + 1) * pageSize) - a))

def rangePages (addr len : Nat) : List Nat := (pagePieces addr len).map (fun x => x.1 / pageSize)

/-- Brings pages in together, for a write or a read; none while a frame must be waited for (12 R269, R272). -/
def bringPages (d : Device) (team : Nat) (write : Bool) (keep : List Nat) : List Nat → Option Device
  | [] => some d
  | p :: t =>
    match repairBut d team (spuOf d team) p write keep with
    | some d => bringPages d team write keep t
    | none => none

def bringRange (d : Device) (team addr len : Nat) (write : Bool) : Option Device :=
  bringPages d team write (rangePages addr len) (rangePages addr len)

/-- What an engine reads of a range: its bytes, and the address of the first poisoned word. -/
structure Fetch where
  dev : Device
  bytes : List Byte
  poison : Option Nat
  deriving DecidableEq, Repr

/-- An engine's read, piece by piece: each page is brought in for its part (12 R272); none while a frame must be waited for. -/
def fetchPieces (d : Device) (team : Nat) : List (Nat × Nat) → Option Fetch
  | [] => some { dev := d, bytes := [], poison := none }
  | (a, n) :: rest =>
    match repairPage d team (spuOf d team) (a / pageSize) false with
    | none => none
    | some d =>
      match d.team team, fetchPieces d team rest with
      | some t, some r =>
        let bad := (List.range n).find? (fun i => scratchPoisoned d t (a + i))
        some { dev := r.dev, bytes := scratchBytes d t a n ++ r.bytes, poison := (bad.map (a + ·)).or r.poison }
      | _, _ => none

def fetchRange (d : Device) (team addr len : Nat) : Option Fetch := fetchPieces d team (pagePieces addr len)

/-- An engine's write, piece by piece. -/
def putPieces (d : Device) (team : Nat) (data : List Byte) : List (Nat × Nat) → Option Device
  | [] => some d
  | (a, n) :: rest =>
    match repairPage d team (spuOf d team) (a / pageSize) true with
    | none => none
    | some d => putPieces (writeScratch d team a (data.take n)) team (data.drop n) rest

def putRange (d : Device) (team addr : Nat) (data : List Byte) : Option Device := putPieces d team data (pagePieces addr data.length)

/-- Whether a range has an unmapped page. -/
def rangeUnmapped (t : Team) (addr len : Nat) : Bool :=
  (List.range ((addr + len - 1) / pageSize - addr / pageSize + 1)).any
    (fun i => decide ((t.page (addr / pageSize + i)).state = .unmapped))

end Sys2Proof.Machine
end

