-- ==== Sys2Proof/Machine/Members.lean ====
section
/-!
DEFINITION. The error log (22 R428), the population descriptor and what a lane's departure does to its population
(18 R365, R372, R383).
-/
namespace Sys2Proof.Machine

-- the error log

/-- The sources of an entry (22 R428). -/
def srcCore : Nat := 0
def srcCopy : Nat := 1
def srcCp : Nat := 2
def srcStack : Nat := 3
def srcLink : Nat := 5
def srcIngress : Nat := 6
def srcScrub : Nat := 7

/-- Appends an entry to a partition's log, or raises its lost-entry count when it holds 256; partition 0 is the physical
function's. The answer is the entry's SEQ, none when it was dropped. -/
def logEntry (d : Device) (part : Nat) (e : LogEntry) : Device × Option Nat :=
  if part = 0 then
    if d.pfLog.length < 256 then ({ d with pfLog := d.pfLog ++ [{ e with seq := d.pfLog.length }] }, some d.pfLog.length)
    else (d, none)
  else
    let p := d.part part
    if p.log.length < 256 then
      (d.setPart part { p with log := p.log ++ [{ e with seq := p.nextSeq }], nextSeq := p.nextSeq + 1 }, some p.nextSeq)
    else
      (d.setPart part { p with lost := if p.lost = BitVec.allOnes 32 then p.lost else p.lost + 1 }, none)

/-- An entry without a trap record. -/
def plainEntry (cause addr world src die : Nat) (core : Option Nat) (group : Nat) (phys : Bool) : LogEntry :=
  { addr := BitVec.ofNat 64 addr, seq := 0, cause, world, src, die, core := core.map (· % 160), group, phys,
    trec := none }

def logPlain (d : Device) (part : Nat) (e : LogEntry) : Device := (logEntry d part e).1

/-- The cause codes of 20 R407. -/
def listedCauses : List Nat :=
  [0x01, 0x02, 0x03, 0x04, 0x05, 0x06, 0x07, 0x08, 0x09, 0x0A, 0x0B, 0x0C, 0x0D, 0x0E, 0x0F, 0x10, 0x11, 0x12, 0x13, 0x14] ++
  [0x20, 0x21, 0x22, 0x23, 0x24, 0x25, 0x26, 0x27, 0x28, 0x29, 0x2A, 0x2B, 0x2C, 0x2D, 0x2E, 0x2F, 0x30, 0x41, 0x43] ++
  [0x60, 0x61, 0x62, 0x63, 0x64, 0x65, 0x66, 0x67, 0x68, 0x69, 0x6A, 0x6B, 0x80, 0x81, 0x82, 0x83, 0x84, 0x85, 0x86] ++
  [0xA0, 0xA2, 0xC0, 0xC1, 0xC2, 0xC4, 0xE0, 0xF0, 0xF3]

/-- The entry of an event to which the manual gives no cause: a free one of the listed codes, since no entry holds another (20 R408)
(log entry 37, DESIGN CHOICE). -/
def logEvent (d : Device) (part : Nat) (e : LogEntry) : Device :=
  let (n, d) := d.draw
  logPlain d part { e with cause := listedCauses.getD ((Config.sysWord n).toNat % listedCauses.length) 0x69 }

-- a line that the base die reads (11 R261)

def countCorrected (d : Device) (die : Nat) : Device := d.modDie die (fun x => { x with corrected := x.corrected + 1 })

/-- An uncorrectable line: it is poisoned with 0xC1 and logged for its owner (11 R261, 22 R425, R426). -/
def lineLost (d : Device) (line : Nat) : Device :=
  let w := (tagOf d line).world
  let die := homeDie (64 * line)
  logPlain (poisonLine d line 0xC1) w (plainEntry 0xC1 (64 * line) w srcStack die none 0 true)

/-- The base die reads a line that has taken symbol errors: it corrects them or reports them, and a line check that fails after a
wrong correction poisons the line (11 R259, R261). -/
def resolveLine (d : Device) (line : Nat) : Device :=
  match tget d.mem.planted line with
  | none => d
  | some errs =>
    let d := d.modMem (fun m => { m with planted := tdel m.planted line })
    let settle (d : Device) (fixed : List (Nat × Byte)) : Device :=
      let net := netErrors errs fixed
      let d := applyErrors d line net
      if checkHolds net then d else lineLost d line
    match lineRead errs with
    | .clean => settle d []
    | .corrected fixed => settle (countCorrected d (homeDie (64 * line))) fixed
    | .bad => lineLost d line

-- the requests of a die's teams (24 R438)

/-- The largest request of the live lanes of a group (04 R117). -/
def GCore.request (c : GCore) : Nat := (lanesOf c.live).foldl (fun m l => Nat.max m (c.perfAt l).toNat) 0

/-- REQ: the largest request of any team resident in either bank of the die's cores (24 R438). -/
def dieRequest (d : Device) (die : Nat) : Nat :=
  d.groups.foldl
    (fun m x =>
      match d.coreOf (.user x.1) with
      | some c => if dieOf c = die then Nat.max m x.2.core.request else m
      | none => m)
    0

/-- CAP: the cap of the die's partition, the reset value for a die in none. -/
def dieCap (d : Device) (die : Nat) : Nat := (d.part (d.partOfDie die)).cap

def dieGrant (d : Device) (die : Nat) : Nat := Nat.min (dieRequest d die) (dieCap d die)

/-- A fall is admitted at once; no change is queued (log entry 28, DEDUCED). -/
def Die.move (x : Die) : Die := if x.changing.isNone && decide (x.target < x.level) then { x with changing := some x.target } else x

/-- The target follows the grant, held below it while LIMIT is set. -/
def Die.aim (x : Die) (grant : Nat) : Die :=
  let t := if x.limit then Nat.min x.target grant else grant
  ({ x with target := t, limit := x.limit && decide (t < grant) }).move

/-- The power manager takes the die's single target from the final requests, cap and current. -/
def retarget (d : Device) (die : Nat) : Device :=
  let x := (d.die die).aim (dieGrant d die)
  if x = d.die die then d else d.modDie die (fun _ => x)

/-- A group's requests have changed: its die aims anew. -/
def retargetOf (d : Device) (gid : Gid) : Device :=
  match d.coreOf gid with
  | some c => retarget d (dieOf c)
  | none => d

-- the population descriptor

/-- Reads n bytes of a partition's local memory by virtual address, through its lead die's translation; an access to a migrating
segment waits (11 R254). -/
def readVirtual (d : Device) (part va n : Nat) : Except Nat Nat :=
  match heldXlate d part (d.part part).lead va { read := true, write := false, exec := false } true with
  | .local_ pa => .ok (readHbm d pa n)
  | .fault c => .error c
  | .waits | .host _ | .peer _ _ => .error 0x2E

/-- The population port writes bytes that lie in one line: the line takes the world tag of the partition's function (11 R260). No tag refuses
the port, whose accesses are checked by translation alone (18 R369) (log entry 18, DEDUCED). -/
def portWrite (d : Device) (part pa : Nat) (data : List Byte) : Device :=
  let d := (resolveLine d (lineOf pa)).modMem (fun m => { m with hbm := writeBytes m.hbm pa data })
  let t := tagOf d (lineOf pa)
  if t.world = part then d else setTag d (lineOf pa) { t with world := part }

/-- Writes n bytes of a number, dropped where translation fails. -/
def writeVirtual (d : Device) (part va n x : Nat) : Device :=
  match heldXlate d part (d.part part).lead va { read := false, write := true, exec := false } true with
  | .local_ pa => portWrite d part pa (natBytes n x)
  | _ => d

/-- The fields the hardware sets, written back (18 R366). -/
def writeHeld (d : Device) (part desc : Nat) (h : PopHeld) : Device :=
  let d := writeVirtual d part (desc + 0x0C) 4 h.live
  let d := writeVirtual d part (desc + 0x18) 8 h.round
  let d := writeVirtual d part (desc + 0x20) 8 h.nextId
  let d := writeVirtual d part (desc + 0x28) 4 h.reserve
  let d := writeVirtual d part (desc + 0x2C) 4 h.lastStat
  writeVirtual d part (desc + 0x38) 8 h.logPos

def writeLive (d : Device) (part desc : Nat) (h : PopHeld) : Device :=
  writeVirtual (writeVirtual d part (desc + 0x0C) 4 h.live) part (desc + 0x28) 4 h.reserve

def Part.popul (p : Part) (desc : Nat) : Option Popul := tget p.pops desc

def modPopul (d : Device) (part desc : Nat) (f : Popul → Popul) : Device :=
  d.modPart part (fun p =>
    match p.popul desc with
    | some x => { p with pops := tput p.pops desc (f x) }
    | none => p)

/-- WBASE and WPAGES of a descriptor. -/
def windowOf (desc : BitVec 1024) : Nat × Nat := (natBits desc.toNat (8 * 0x30) 16, natBits desc.toNat (8 * 0x32) 16)

/-- The pages of a member's window (18 R381). -/
def windowPages (w : Nat × Nat) (group lane : Nat) : List Nat :=
  (List.range w.2).map (fun i => w.1 + w.2 * (32 * group + lane) + i)

/-- What an entry names loses the entry's reference. -/
def dropMapping (d : Device) (place : Option (Nat × Nat)) (e : SptEntry) : Device :=
  match e.state, place with
  | .resident, some p =>
    let d := if e.bvalid && sharedSlot d e.bslot then dropSlot d e.bslot else d
    dropFrame d p e.frame
  | .sharedOut, _ => dropSlot d e.bslot
  | _, _ => d

/-- Releases what an entry names and leaves it unmapped or as given. -/
def releaseEntry (d : Device) (team page : Nat) (now : SptEntry) : Device :=
  match d.team team with
  | none => d
  | some t => dropMapping (writeEntry d team page now) t.place (t.page page)

def SptEntry.none : SptEntry := { SptEntry.zeroOut with state := .unmapped, bvalid := false, bslot := 0 }

def unmapPages (d : Device) (team : Nat) (pages : List Nat) : Device :=
  pages.foldl (fun d p => releaseEntry d team p SptEntry.none) d

/-- A round loses a lane: an arrived one takes part with zero weight, another is no longer awaited (18 R375, R383). -/
def Round.leave (r : Round) (group lane : Nat) (killed : Bool) : Round :=
  if r.outcome.isSome then r
  else
    { r with
      members := r.members.filter (fun m => !(m.1 == group && m.2.1 == lane))
      reserves := r.reserves.filter (fun m => !(m.1 == group && m.2 == lane))
      arrived := r.arrived.map (fun a => if a.group = group ∧ a.lane = lane then { a with gone := true } else a)
      errdep := r.errdep || killed }

/-- An RSMP result of a round of a population. -/
def Pending.ofRound (p : Pending) (desc k : Nat) : Bool :=
  match p.dst with
  | .rsmp _ ds n => ds == desc && n == k
  | _ => false

/-- The outcomes of a round that a lane's group has still to take: those that have not landed, and those that land again because a
rollback has brought the group back before its landing (18 R378). -/
def outcomesDue (d : Device) (desc k : Nat) (r : Round) : List LaneOutcome :=
  match r.outcome with
  | some out =>
    out.filter (fun o => !r.landed.contains (o.group, o.lane) ||
      (match d.group (.user o.group) with | some g => g.core.pend.any (fun p => p.ofRound desc k) | none => false))
  | none => []

/-- Whether a lane's departure lowers LIVE or RESERVE: not when an evaluated round has already counted it out or filled it (18
R376). -/
def Popul.counted (x : Popul) (d : Device) (desc group lane : Nat) : Bool :=
  !x.rounds.any (fun r =>
    (outcomesDue d desc r.1 r.2).any (fun o => o.group == group && o.lane == lane && (o.killed || o.clone.isSome)))

/-- The clones of a round that have not landed. -/
def Round.bound (r : Round) : List LaneOutcome :=
  match r.outcome with
  | some out => out.filter (fun o => o.clone.isSome && !r.landed.contains (o.group, o.lane))
  | none => []

/-- Whether a lane of a group awaits a clone (07 R181). -/
def awaitsClone (d : Device) (id : Nat) : Bool :=
  (d.part (d.partOf (.user id))).pops.any (fun x =>
    x.2.rounds.any (fun r => (outcomesDue d x.1 r.1 r.2).any (fun o => o.group == id && o.clone.isSome)))

/-- 18 R372: what the retirement of a lane does to its population. `killed`: by an uncorrectable error (R383). -/
def leavePopulation (d : Device) (id : Nat) (lane : Nat) (killed : Bool) : Device :=
  match d.group (.user id) with
  | none => d
  | some g =>
    let part := d.partOf (.user id)
    match g.core.popAt lane, g.kind with
    | .member desc _ _ _, .user team =>
      let d := modPopul d part desc (fun x =>
        let h := x.held
        { x with held := if x.counted d desc id lane then { h with live := h.live - 1 } else h
                 rounds := x.rounds.map (fun r => (r.1, r.2.leave id lane killed)) })
      match (d.part part).popul desc with
      | some x => unmapPages (writeLive d part desc x.held) team (windowPages (windowOf x.desc) g.index lane)
      | none => d
    | .reserve desc, _ =>
      let d := modPopul d part desc (fun x =>
        { x with held := if x.counted d desc id lane then { x.held with reserve := x.held.reserve - 1 } else x.held
                 rounds := x.rounds.map (fun r => (r.1, r.2.leave id lane killed)) })
      match (d.part part).popul desc with
      | some x => writeLive d part desc x.held
      | none => d
    | _, _ => d

/-- Retires lanes of a group (07 R181): they are live no more and their population state ends. -/
def retireLanes (d : Device) (id : Nat) (m : LaneMask) (killed : Bool) : Device :=
  let d := (lanesOf m).foldl (fun d l => leavePopulation d id l killed) d
  let d := d.modGroup (.user id) (fun g =>
    let c := (lanesOf m).foldl (fun c l => c.setPop l .none) g.core
    { g with core := { c with live := c.live &&& ~~~m } })
  retargetOf d (.user id)

-- holds (18 R381)

/-- One reference to each frame and slot that window entries name is given up. -/
def dropWindow (d : Device) (place : Nat × Nat) (window : List DWord) : Device :=
  window.foldl
    (fun d w =>
      let e := SptEntry.ofBits w
      match e.state with
      | .resident => dropFrame d place e.frame
      | .sharedOut => dropSlot d e.bslot
      | _ => d)
    d

/-- Changes a round. -/
def modRound (d : Device) (part desc k : Nat) (f : Round → Round) : Device :=
  modPopul d part desc (fun x =>
    match tget x.rounds k with
    | some r => { x with rounds := tput x.rounds k (f r) }
    | none => x)

/-- The holds of a round are released; a second release finds none. -/
def dropHolds (d : Device) (part desc k : Nat) (r : Round) : Device :=
  modRound (r.arrived.foldl (fun d a => dropWindow d a.place a.window) d) part desc k
    (fun r => { r with arrived := r.arrived.map (fun a => { a with window := [] }) })

/-- Clones that will never land give up the pages held for them. -/
def loseClones (d : Device) (part desc k : Nat) (lost : List LaneOutcome) : Device :=
  modRound
    (lost.foldl (fun d o => match o.clone with | some c => dropWindow d c.place c.window | none => d) d) part desc k
    (fun r => { r with landed := lost.map (fun o => (o.group, o.lane)) ++ r.landed })

/-- Whether every lane of a round has landed, or will not. -/
def roundLanded (d : Device) (r : Round) : Bool :=
  match r.outcome with
  | none => false
  | some out =>
    out.all (fun o => r.landed.contains (o.group, o.lane) ||
      (match d.group (.user o.group) with | some g => g.retired || g.halted | none => true))

/-- Every round of a partition that has landed whole releases its holds. -/
def settleHolds (d : Device) (part : Nat) : Device :=
  (d.part part).pops.foldl
    (fun d x => x.2.rounds.foldl (fun d r => if roundLanded d r.2 then dropHolds d part x.1 r.1 r.2 else d) d) d

/-- A halted group's lanes are no vacancies: clones bound for them are lost (18 R383). -/
def loseGroup (d : Device) (part id : Nat) : Device :=
  settleHolds
    ((d.part part).pops.foldl
      (fun d x => x.2.rounds.foldl
        (fun d r => loseClones d part x.1 r.1 (r.2.bound.filter (fun o => o.group == id))) d) d) part

/-- When a launch completes, the populations it activated become closed (18 R370). -/
def closePopulations (d : Device) (part : Nat) (pops : List Nat) : Device :=
  pops.foldl
    (fun d desc =>
      let d := match (d.part part).popul desc with
        | some x => x.rounds.foldl (fun d r => loseClones (dropHolds d part desc r.1 r.2) part desc r.1 r.2.bound) d
        | none => d
      let d := writeVirtual d part (desc + 4) 1 2
      d.modPart part (fun p => { p with pops := tdel p.pops desc }))
    d

end Sys2Proof.Machine
end

