-- ==== Sys2Proof/Machine/Landing.lean ====
section
/-!
DEFINITION. What happens at a bundle boundary of a group: results land (01 R23 to R26, 07 R184, 21 R411), RSMP outcomes apply
(18 R378), and paths rejoin (07 R189 to R192).
-/
namespace Sys2Proof.Machine

-- landing

/-- Writes a predicate result of one lane, or of the group from its lead lane (01 R10, 02 R38). -/
def GCore.landPred (c : GCore) (r : PredRef) (m prim : LaneMask) (lead : Nat) (compl : Bool) : GCore :=
  match r with
  | .p n => c.setP n.toNat ((c.pAt n.toNat &&& ~~~m) ||| ((if compl then ~~~prim else prim) &&& m))
  | .q n => c.setQ n.toNat (prim.getLsbD lead != compl)
  | .none => c

/-- The words of a result that a debugger has not cut, written from register n up. -/
def landWords (write : GCore → Nat → Word → GCore) (cut : List (Nat × Nat)) (lane n : Nat) :
    Nat → List Word → GCore → GCore
  | _, [], c => c
  | k, w :: t, c => landWords write cut lane n (k + 1) t (if cut.contains (lane, k) then c else write c (n + k) w)

/-- The word numbers under which a cut names the primary predicate and its complement (21 R421). -/
def cutPd : Nat := 100
def cutPc : Nat := 101

/-- Lands a predicate result but for the lanes a debugger has cut. -/
def GCore.landCut (c : GCore) (p : Pending) (r : PredRef) (k : Nat) (m : LaneMask) (compl : Bool) : GCore :=
  match r with
  | .q _ => if p.cut.contains (0, k) then c else c.landPred r m p.prim p.lead compl
  | _ => c.landPred r (maskOf (fun l => m.getLsbD l && !p.cut.contains (l, k))) p.prim p.lead compl

/-- Lands one entry (01 R23): its live lanes' values, or its uniform values. -/
def GCore.land (c : GCore) (p : Pending) : GCore :=
  let m := p.lanes &&& c.live
  let c :=
    match p.dst with
    | .v n _ =>
      (lanesOf m).foldl
        (fun c l =>
          match tget p.vals l with
          | some ws => landWords (fun c k w => c.setV k l w) p.cut l n 0 ws c
          | none => c)
        c
    | .s n _ =>
      match tget p.vals 0 with
      | some ws => landWords (fun c k w => c.setS k w) p.cut 0 n 0 ws c
      | none => c
    | .rcd n =>
      match tget p.vals 0 with
      | some ws => landWords (fun c k w => c.setBWord n k w) p.cut 0 0 0 ws c
      | none => c
    | .none | .rsmp _ _ _ => c
  (c.landCut p p.pd cutPd m false).landCut p p.pc2 cutPc m true

/-- The v registers an entry writes (20 R393). -/
def Pending.vregs (p : Pending) : List Nat :=
  match p.dst with
  | .v n k => (List.range k).map (n + ·)
  | _ => []

/-- Adds v registers to a span's distinct ones (20 R393). -/
def addSpan (span regs : List Nat) : List Nat := regs.foldl (fun s r => if s.contains r then s else s ++ [r]) span

/-- An entry whose landing point is this boundary. -/
def Pending.due (p : Pending) : Bool := p.rem == 0

/-- After a uniform entry lands, the copy the other half carries is discarded (07 R184). -/
def dropLanded (l : List Pending) (p : Pending) : List Pending :=
  if p.uni then l.filter (fun x => !(x.uni && x.op == p.op)) else l

/-- Inserts an entry by its operation number. -/
def insertByOp (p : Pending) : List Pending → List Pending
  | [] => [p]
  | x :: t => if p.op < x.op then p :: x :: t else x :: insertByOp p t

/-- Entries in the order their operations were issued (01 R26). -/
def byOp (l : List Pending) : List Pending := l.foldl (fun acc p => insertByOp p acc) []

/-- One entry for each uniform result, where two copies reach a boundary together. -/
def onceUni (l : List Pending) : List Pending :=
  l.foldl (fun acc p => if p.uni && acc.any (fun x => x.uni && x.op == p.op) then acc else acc ++ [p]) []

/-- Whether an entry is an RSMP's. -/
def Pending.isRsmp (p : Pending) : Bool := match p.dst with | .rsmp _ _ _ => true | _ => false

-- RSMP landings (18 R378)

/-- The evaluated round whose outcome an RSMP result takes: the descriptor's address, the round's number, the round, and the outcomes of
the result's lanes. -/
def rsmpRound (d : Device) (id : Nat) (p : Pending) : Option (Nat × Nat × Round × List LaneOutcome) :=
  match p.dst with
  | .rsmp _ desc k =>
    match (d.part (d.partOf (.user id))).popul desc with
    | some x =>
      (tget x.rounds k).bind (fun r =>
        r.outcome.map (fun out => (desc, k, r, out.filter (fun o => o.group == id && p.lanes.getLsbD o.lane))))
    | none => none
  | _ => none

/-- A lane takes its status word, unless a debugger has cut it. -/
def GCore.takeStatus (c : GCore) (p : Pending) (o : LaneOutcome) : GCore :=
  match p.dst with
  | .rsmp (.v n) _ _ => if p.cut.contains (o.lane, 0) then c else c.setV n.toNat o.lane o.status
  | _ => c

/-- The part of an RSMP landing that is a result: the status of the lanes that go on. -/
def GCore.landStatus (c : GCore) (p : Pending) (out : List LaneOutcome) : GCore :=
  out.foldl (fun c o => if o.clone.isNone && !o.killed && c.live.getLsbD o.lane then c.takeStatus p o else c) c

/-- A clone's window entry for a held page, on the bank its team is on (12 R273): of a page in another bank one copy serves every
clone of the round. -/
def cloneEntry (d : Device) (part desc k : Nat) (place : Nat × Nat) (o : CloneOf) (bits : DWord) : SptEntry × Device :=
  let e := SptEntry.ofBits bits
  if e.state = .resident ∧ place ≠ o.place then
    let key := 1536 * (2 * o.place.1 + o.place.2) + e.frame
    let made := match (d.part part).popul desc with
      | some x => (tget x.rounds k).bind (fun r => tget r.copies key)
      | none => none
    let (s, d) := match made with
      | some s => (s, d)
      | none =>
        let (s, d) := newSlot d (dieOf o.place.1) (framePage d o.place e.frame)
        (s, modRound d part desc k (fun r => { r with copies := tput r.copies key s }))
    ({ e with state := .sharedOut, cow := false, dirty := false, bvalid := true, bslot := s, frame := 0 },
      dropFrame (refSlot d s 1) o.place e.frame)
  else (e, d)

/-- A clone's window becomes its parent's; the frames it maps so may exceed its team's allotment until the team's next repair (12 R262,
R273) (log entry 39, DESIGN CHOICE). -/
def setWindow (d : Device) (part desc k team : Nat) (o : CloneOf) : List Nat → List DWord → Device
  | p :: ps, w :: ws =>
    match (d.team team).bind (fun t => t.place) with
    | some place =>
      let (e, d) := cloneEntry d part desc k place o w
      setWindow (releaseEntry d team p e) part desc k team o ps ws
    | none => d
  | _, _ => d

-- the windows of arrived members (18 R381)

/-- Holds one page: the entry it leaves, as the hold sees it. -/
def holdPage (d : Device) (team page : Nat) : Device × DWord :=
  match d.team team with
  | none => (d, SptEntry.none.bits)
  | some t =>
    let e := t.page page
    match e.state, t.place with
    | .resident, some p =>
      let e2 := { e with cow := true }
      (takeFrame (putPage d team page e2) p e.frame, ({ e2 with dirty := false, bvalid := false, bloc := false, bslot := 0 } : SptEntry).bits)
    | .out, _ =>
      let e2 := { e with state := .sharedOut }
      (refSlot (writeEntry d team page e2) e.bslot 2, e2.bits)
    | .sharedOut, _ => (refSlot d e.bslot 1, e.bits)
    | _, _ => (d, e.bits)

def holdPages (d : Device) (team : Nat) : List Nat → Device × List DWord
  | [] => (d, [])
  | p :: t =>
    let (d, w) := holdPage d team p
    let (d, ws) := holdPages d team t
    (d, w :: ws)

/-- An arrived member's window is held: the entries are kept with the arrival. -/
def holdArrival (part pop round id team : Nat) (window : Nat × Nat) (index : Nat) (d : Device) (a : Arrival) : Device :=
  if a.group ≠ id ∨ a.id.isNone then d
  else
    let (d, ws) := holdPages d team (windowPages window index a.lane)
    modRound d part pop round (fun r =>
      { r with arrived := r.arrived.map (fun y => if y.group = id ∧ y.lane = a.lane then { y with window := ws } else y) })

/-- Before a member's group issues its next bundle, firmware holds the windows of its arrived members for the round (18 R381). A page
that another group pins is waited for (12 R267); the group's own results in flight have read theirs (log entry 18, DEDUCED). -/
def holdGroup (d : Device) (id : Nat) : Device :=
  match d.group (.user id), d.teamOf (.user id) with
  | some g, some (team, _) =>
    match g.holdWait with
    | none => d
    | some (pop, round) =>
      let part := d.partOf (.user id)
      let free := d.modGroup (.user id) (fun g => { g with holdWait := none })
      match (d.part part).popul pop with
      | none => free
      | some x =>
        match tget x.rounds round with
        | none => free
        | some r =>
          let window := windowOf (if r.desc = 0 then x.desc else r.desc)
          let mine := r.arrived.filter (fun a => a.group == id && a.id.isSome)
          if mine.any (fun a => (windowPages window g.index a.lane).any (pinnedBut d team (some id))) then d
          else r.arrived.foldl (holdArrival part pop round id team window g.index) free
  | _, _ => d

/-- A lane that had retired joins the path it resumes in: the one that holds lanes of its RSMP, else the slot that issued it goes on
where it ended (log entry 18, DEDUCED). -/
def GCore.rejoinPath (c : GCore) (lane : Nat) (p : Pending) : GCore :=
  if c.live.getLsbD lane then c
  else
    let add (s : PcSlot) : PcSlot :=
      if s.st = .idle then issuingSlot s.pc (laneBit lane) s.fmt else { s with lanes := s.lanes ||| laneBit lane }
    if c.slotA.lanes &&& p.lanes != 0 then { c with slotA := add c.slotA }
    else if c.slotB.lanes &&& p.lanes != 0 then { c with slotB := add c.slotB }
    else c.setSlot p.slotB (add (c.slot p.slotB))

/-- The lane's registers become the image, but for its accumulator rows (18 R375, R378). -/
def GCore.becomeClone (c : GCore) (lane : Nat) (desc : Nat) (k : CloneOf) : GCore :=
  let v := k.image.v.foldl (fun v x => tputD v (32 * x.1 + lane) x.2 0) (c.v.filter (fun x => x.1 % 32 != lane))
  let c := { c with
    v
    live := c.live ||| laneBit lane
    perf := tputD c.perf lane k.image.perf 0
    pend := c.pend.map (fun (p : Pending) => if p.uni then p else { p with lanes := p.lanes &&& ~~~laneBit lane }) }
  let c := (List.range 14).foldl (fun c n => c.setPLane n lane (tgetD k.image.p n false)) c
  (c.setPLane 14 lane true).setPop lane (.member desc k.id k.parent k.gen)

/-- A lane's accumulator rows become the image's. -/
def GCore.cloneRows (c : GCore) (lane : Nat) (acc : Tbl Word) : GCore :=
  let others := c.acc.filter (fun x => x.1 / 32 % 32 != lane)
  { c with acc := acc.foldl (fun v x => tputD v (1024 * (x.1 / 32) + 32 * lane + x.1 % 32) x.2 0) others }

/-- A clone's accumulator rows are written in the group's matrix-port order (18 R378): behind its commands that are still queued. -/
def putRows (d : Device) (id lane : Nat) (p : Pending) (acc : Tbl Word) : Device :=
  match d.coreOf (.user id), d.group (.user id), d.teamOf (.user id) with
  | some core, some g, some (team, _) =>
    if (d.core core).mq.any (fun m => m.group == id) then
      let m : MxCmd :=
        { group := id, team, kind := .cloneRows p.op lane acc, tile := 16, rows := 0, fmt := 0, step := 0, resA := none, resB := none,
          resQ := none, zero := false, bpc := p.bpc, slotB := p.slotB, op := g.nextOp }
      d.modCore core (fun c => { c with mq := c.mq ++ [m] })
    else d.setGroup (.user id) { g with core := g.core.cloneRows lane acc }
  | _, _, _ => d

/-- A slot whose lanes have left keeps the place at which a clone would go on. -/
def PcSlot.without (s : PcSlot) (m : LaneMask) : PcSlot :=
  if s.st = .idle then s
  else
    let l := s.lanes &&& ~~~m
    if l = 0 then { idleSlot with pc := s.pc, fmt := s.fmt } else { s with lanes := l }

/-- Lanes leave every path, result and stack entry of a group (07 R181); an RSMP result keeps the lanes that took part, for a clone
may come to them. -/
def GCore.dropLanes (c : GCore) (m : LaneMask) : GCore :=
  let entry (e : StackEntry) : StackEntry := { e with lanes := e.lanes &&& ~~~m }
  { c with
    live := c.live &&& ~~~m
    slotA := c.slotA.without m
    slotB := c.slotB.without m
    stack := c.stack.map entry
    pend := (c.pend.map (fun p => if p.isRsmp then p else { p with lanes := p.lanes &&& ~~~m })).filter (fun p => p.lanes != 0)
    handler := c.handler.map (fun h =>
      { h with slotA := h.slotA.without m, slotB := h.slotB.without m, stack := h.stack.map entry }) }

/-- One lane's outcome; `first` when it has not landed before: window changes are made once, and what the group's hamper holds of the
pages goes with them (12 R267) (log entry 18, DEDUCED). -/
def landLane (d : Device) (id team k : Nat) (desc : Nat) (r : Round) (p : Pending) (o : LaneOutcome) : Device :=
  match d.group (.user id) with
  | none => d
  | some g =>
    let first := !r.landed.contains (id, o.lane)
    let pages := windowPages (windowOf r.desc) g.index o.lane
    let inPages (w : ByteWrite) : Bool := !w.glob && pages.contains (w.addr / pageSize)
    let forget (d : Device) : Device :=
      d.modGroup (.user id) (fun g => { g with hamper := g.hamper.filter (fun w => !inPages w), waiting := g.waiting.filter (fun w => !inPages w) })
    match o.clone with
    | some c =>
      let d := d.setGroup (.user id) { g with core := ((g.core.rejoinPath o.lane p).becomeClone o.lane desc c).takeStatus p o }
      let d := putRows d id o.lane p c.image.acc
      if first then setWindow (forget d) (d.partOf (.user id)) desc k team c pages c.window else d
    | none =>
      if o.killed then
        let d := if g.core.live.getLsbD o.lane then
            d.setGroup (.user id) { g with core := (g.core.setPop o.lane .none).dropLanes (laneBit o.lane) }
          else d
        if first then unmapPages (forget d) team pages else d
      else if g.core.live.getLsbD o.lane then d.setGroup (.user id) { g with core := g.core.setPLane 14 o.lane false }
      else d

/-- The landing of an RSMP result in one group, but for its status words: survivors, retirements and clones follow every result of the
boundary. It is an acquire (R382); after a shortfall the group takes 0x83 as a deferred trap. -/
def landRsmp (d : Device) (id : Nat) (p : Pending) : Device :=
  match rsmpRound d id p, d.teamOf (.user id) with
  | some (desc, k, r, out), some (team, _) =>
    let part := d.partOf (.user id)
    let d := out.foldl (fun d o => landLane d id team k desc r p o) d
    let d := modRound d part desc k (fun x =>
      { x with landed := out.foldl (fun l o => if l.contains (id, o.lane) then l else (id, o.lane) :: l) x.landed })
    let d := retargetOf (settleHolds d part) (.user id)
    let d := match d.coreOf (.user id) with | some c => l1DropWorld d c part | none => d
    if r.short then
      d.modGroup (.user id) (fun g =>
        { g with deferred := g.deferred.or (some
            { cause := 0x83, code := 0, lane := none, addr := desc, slot := 4, write := false, bpc := p.bpc,
              slotB := p.slotB, defer := true }) })
    else d
  | _, _ => d

/-- Whether a launch's context is the active one of a partition that is not suspended (25 R445, R457); the control stream's launches
always run. -/
def contextRuns (p : Part) (l : Launch) : Bool := !p.susp && (l.stream == p.active || l.stream == 4)

/-- Whether a group runs: its team is in its core's front bank, its context is active, and neither it nor its partition is stopped. A landing of a stopped,
saved or pre-empted group takes effect when it resumes (18 R383, 21 R422). -/
def groupRuns (d : Device) (id : Nat) : Bool :=
  match d.group (.user id), d.teamOf (.user id), d.launchOf (.user id) with
  | some g, some (_, t), some (_, l) =>
    !g.stopped && contextRuns (d.part l.part) l &&
      (match t.place with | some (core, bank) => (d.core core).frontBank == bank | none => false)
  | _, _, _ => false

/-- Whether an RSMP result may land: its group runs, and no other group of the team pins a page that the landing remaps or releases
(12 R267). -/
def mayLand (d : Device) (id : Nat) (p : Pending) : Bool :=
  groupRuns d id &&
    (match rsmpRound d id p, d.group (.user id), d.teamOf (.user id) with
    | some (_, _, r, out), some g, some (team, _) =>
      out.all (fun o => !(o.killed || o.clone.isSome) || r.landed.contains (id, o.lane) ||
        (windowPages (windowOf r.desc) g.index o.lane).all (fun q => !pinnedBut d team (some id) q))
    | _, _, _ => true)

-- rejoining (07 R189 to R192)

/-- The lanes present at j (07 R190). -/
def GCore.present (c : GCore) (j : DWord) : LaneMask :=
  let at_ (s : PcSlot) : LaneMask := if s.st = .joining ∧ s.pc = j then s.lanes else 0
  c.stack.foldl (fun m e => if e.w && e.pc == j then m ||| e.lanes else m) (at_ c.slotA ||| at_ c.slotB)

/-- A joining slot is released when the lanes present equal its mask among the live lanes. -/
def GCore.releasable (c : GCore) (b : Bool) : Bool :=
  let s := c.slot b
  s.st == .joining && c.present s.pc == (s.mask &&& c.live)

/-- The copies of one uniform result meet when their paths merge: the smaller count stands (07 R184). -/
def mergePend (m : LaneMask) (l : List Pending) : List Pending :=
  l.foldl
    (fun acc p =>
      if p.uni && (p.lanes &&& m != 0) then
        match acc.find? (fun x => x.uni && x.op == p.op && (x.lanes &&& m != 0)) with
        | some x =>
          acc.map (fun y => if y = x then { y with lanes := y.lanes ||| p.lanes, rem := Nat.min y.rem p.rem } else y)
        | none => acc ++ [p]
      else acc ++ [p])
    []

/-- The format of the path that holds a lane at j. -/
def GCore.fmtOfLane (c : GCore) (j : DWord) (lane : Nat) : Word :=
  if c.slotA.st = .joining ∧ c.slotA.pc = j ∧ c.slotA.lanes.getLsbD lane then c.slotA.fmt
  else if c.slotB.st = .joining ∧ c.slotB.pc = j ∧ c.slotB.lanes.getLsbD lane then c.slotB.fmt
  else
    match c.stack.find? (fun e => e.w && e.pc == j && e.lanes.getLsbD lane) with
    | some e => e.fmt
    | none => 0

/-- The release of a slot's JOIN (07 R191) (log entry 24, DEDUCED). -/
def GCore.release (c : GCore) (b : Bool) : GCore :=
  let s := c.slot b
  let j := s.pc
  let m := c.present j
  let both := (c.slot (!b)).st == .joining && (c.slot (!b)).pc == j
  let path := issuingSlot s.next m (c.fmtOfLane j ((firstLane m).getD 0))
  let c2 := { c with stack := c.stack.filter (fun e => !(e.w && e.pc == j)), pend := mergePend m c.pend }
  if both then { c2 with slotA := path, slotB := idleSlot } else c2.setSlot b path

def GCore.releases (c : GCore) : GCore :=
  let c := if c.releasable false then c.release false else c
  if c.releasable true then c.release true else c

/-- The top entry with live lanes, and the stack below it (07 R189). -/
def popEntry (live : LaneMask) : List StackEntry → Option (StackEntry × List StackEntry)
  | [] => none
  | e :: t => if e.lanes &&& live = 0 then popEntry live t else some ({ e with lanes := e.lanes &&& live }, t)

def GCore.popInto (c : GCore) (b : Bool) : GCore :=
  if (c.slot b).st ≠ .idle then c
  else
    match popEntry c.live c.stack with
    | some (e, rest) => ({ c with stack := rest }).setSlot b (issuingSlot e.pc e.lanes e.fmt)
    | none => { c with stack := [] }

def GCore.someIssuing (c : GCore) : Bool := c.slotA.st == .issuing || c.slotB.st == .issuing

/-- The stack with its topmost entry of W = 0 that holds live lanes replaced, and that entry. -/
def swapEntry (live : LaneMask) (new : StackEntry) : List StackEntry → Option (StackEntry × List StackEntry)
  | [] => none
  | e :: t =>
    if e.w || e.lanes &&& live == 0 then (swapEntry live new t).map (fun x => (x.1, e :: x.2))
    else some ({ e with lanes := e.lanes &&& live }, new :: t)

/-- Step 3 of R192: the joining slot with the higher PC, slot B on a tie, is withdrawn. -/
def GCore.withdraw (c : GCore) : GCore :=
  if c.someIssuing then c
  else
    let b := c.slotB.st == .joining && (c.slotA.st != .joining || decide (c.slotA.pc.toNat ≤ c.slotB.pc.toNat))
    let s := c.slot b
    if s.st ≠ .joining then c
    else
      match swapEntry c.live { w := true, fmt := s.fmt, lanes := s.lanes, pc := s.pc } c.stack with
      | some (e, st) => ({ c with stack := st }).setSlot b (issuingSlot e.pc e.lanes e.fmt)
      | none => c

/-- Steps 1 to 3 of R192; when both slots are idle the top entry goes to slot A and the next one to slot B (log entry 24, DEDUCED). -/
def GCore.rejoin (c : GCore) : GCore := (((c.releases.popInto false).popInto true)).withdraw

/-- Step 4 of R192: a group with live lanes can never issue again. -/
def GCore.deadlocked (c : GCore) : Bool :=
  c.live != 0 && !c.someIssuing && (c.slotA.st == .joining || c.slotB.st == .joining)

-- the stack's bytes (07 R187, R188)

/-- A stack entry's 16 bytes as one number (07 R188). -/
def StackEntry.word (e : StackEntry) : Nat :=
  e.w.toNat * 2 ^ 104 + e.fmt.toNat % 2 ^ 16 * 2 ^ 88 + e.lanes.toNat * 2 ^ 56 + e.pc.toNat / 2 % 2 ^ 56

/-- Entry i of a group's stack in the team's scratchpad space. -/
def stackAddr (group i : Nat) : Nat := stackBase + 0x1000 * group + 16 * i

/-- The stack of a group's paths; a handler's paths stand over it. -/
def GCore.pathStack (c : GCore) : List StackEntry := match c.handler with | some h => h.stack | none => c.stack

/-- Writes the entries of a stack that differ from an older one, each page brought in as for a write; none while one must be waited
for. -/
def syncStack (d : Device) (team group : Nat) (old new : List StackEntry) : Option Device :=
  (List.range (Nat.max old.length new.length)).foldl
    (fun r i => r.bind (fun d =>
      if old.reverse[i]? = new.reverse[i]? then some d
      else
        (repairPage d team (spuOf d team) (stackAddr group i / pageSize) true).map (fun d =>
          match new.reverse[i]? with
          | some e => writeScratch d team (stackAddr group i) (natBytes 16 e.word)
          | none => d)))
    (some d)

/-- A group's stack has changed: its bytes follow. While a page is out the group waits, and the whole stack is written later. -/
def storeStack (d : Device) (gid : Gid) (old : List StackEntry) : Device :=
  match d.group gid with
  | none => d
  | some g =>
    match g.kind with
    | .firmware _ _ => d
    | .user t =>
      if old = g.core.pathStack ∧ g.stackWait = false then d
      else
        match syncStack d t g.index (if g.stackWait then [] else old) g.core.pathStack with
        | some d => d.modGroup gid (fun g => { g with stackWait := false })
        | none => d.modGroup gid (fun g => { g with stackWait := true })

-- the end of a handler (16 R333, R334)

/-- s56 to s63 and q4 to q6 change places with their shadows. -/
def GCore.swapShadow (c : GCore) : GCore :=
  let sh := (List.range 8).foldl (fun t i => tputD t i (c.sAt (56 + i)) 0) ([] : Tbl Word)
  let s := (List.range 8).foldl (fun g i => GCore.setS g (56 + i) (tgetD c.shadowS i 0)) c
  let q := c.q.toNat
  { s with
    shadowS := sh
    shadowQ := c.q.extractLsb' 4 3
    q := BitVec.ofNat 8 (natBits q 0 4 + 16 * c.shadowQ.toNat + 128 * natBits q 7 1) }

/-- The return from a handler (04 R121, 16 R334): the held paths resume with the lanes that are still live. -/
def GCore.leaveHandler (c : GCore) : GCore :=
  match c.handler with
  | none => c
  | some h =>
    let c := c.swapShadow
    { c with handler := none, slotA := h.slotA.without (~~~c.live), slotB := h.slotB.without (~~~c.live), turnB := h.turnB, stack := h.stack }

/-- The steps at a boundary after its landings: a handler whose path has ended by IRET returns; outside a handler the steps 1 to
3 of R192 follow. -/
def GCore.afterLanding (c : GCore) : GCore :=
  if c.handler.isSome then
    if c.slotA.st = .idle ∧ c.slotB.st = .idle then c.leaveHandler.rejoin else c
  else c.rejoin

/-- A group's paths rejoin, and its stack's bytes follow. A checkpoint at this boundary keeps the state after its landings and its rejoins,
which a rollback would repeat (01 R27, R29). -/
def rejoinGroup (d : Device) (gid : Gid) : Device :=
  match d.group gid with
  | some g =>
    let c := g.core.afterLanding
    storeStack (d.setGroup gid { g with core := c, ck := if g.spanLen = 0 then c else g.ck }) gid g.core.pathStack
  | none => d

/-- RSMP results that no live lane carries any more: they land at once when their round has been evaluated, for a clone may come, and
else nothing awaits them (log entry 18, DEDUCED). A group whose lanes all left inside a handler is out of it. -/
def freeRsmp (d : Device) (gid : Gid) (c : GCore) : GCore :=
  match gid with
  | .fw _ => c
  | .user id =>
    let c := if c.live = 0 then c.leaveHandler else c
    if c.handler.isSome then c
    else
      { c with pend := c.pend.filterMap (fun p =>
          if p.isRsmp && p.lanes &&& c.live == 0 then
            (if (rsmpRound d id p).isSome then some { p with rem := 0 } else none)
          else some p) }

/-- Whether a due result holds the boundary up: its data are not there, or its group does not take an RSMP outcome yet. -/
def holdsUp (d : Device) (gid : Gid) (p : Pending) : Bool :=
  !p.arrived || (match gid with | .user id => p.isRsmp && !mayLand d id p | .fw _ => false)

/-- Lands one due result: an RSMP's status words, or the result of any other operation. -/
def landResult (d : Device) (gid : Gid) (c : GCore) (p : Pending) : GCore :=
  match gid, p.isRsmp with
  | .user id, true => c.landStatus p (match rsmpRound d id p with | some (_, _, _, out) => out | none => [])
  | _, _ => c.land p

/-- Whether a group waits for the answer to a SYS request: the bundle's own result is still to be written (04 R120). -/
def Group.asksFirmware (g : Group) : Bool := match g.park with | .sys _ _ _ => true | _ => false

/-- A boundary of a group: when nothing holds it up, the due results land in issue order, RSMP outcomes after them, and the
steps 1 to 3 of R192 follow; until then the group waits (01 R25) (log entry 7, DEDUCED). -/
def settle (d : Device) (gid : Gid) : Device :=
  match d.group gid with
  | none => d
  | some g =>
    let c := freeRsmp d gid g.core
    let due := byOp (c.pend.filter Pending.due)
    if g.asksFirmware || due.any (holdsUp d gid) then d
    else
      let c := { c with pend := c.pend.filter (fun p => !p.due) }
      let c := (onceUni due).foldl (landResult d gid) c
      let c := { c with pend := due.foldl dropLanded c.pend }
      let span := if g.spanLen = 0 then g.spanV
                  else addSpan g.spanV ((due.filter (fun p => p.lanes &&& c.live != 0)).flatMap Pending.vregs)
      let d := d.setGroup gid { g with core := c, spanV := span }
      let d := match gid with | .user id => (due.filter Pending.isRsmp).foldl (fun d p => landRsmp d id p) d | .fw _ => d
      rejoinGroup d gid

/-- Whether the group waits at its boundary for data, or for a landing (01 R25). -/
def Group.waitsData (g : Group) : Bool := g.core.pend.any (fun p => p.due && (!p.arrived || p.isRsmp))

end Sys2Proof.Machine
end

