-- ==== Sys2Proof/Machine/Ops.lean ====
section
/-!
DEFINITION. The named operations that many steps share: the hamper and the way of a store (01 R27, 13 R278, 14 R301), checkpoints
and rollback (20 R391 to R393), barriers (04 R123 to R128), stopping and resuming a team (20 R396, 21 R409), the completion
of a launch (25 R450), TAKING A TRAP (20 R394 to R400), and the user-level interrupt handler's entry and return (16 R333, R334).
-/
namespace Sys2Proof.Machine

-- stores

/-- The last byte a list of writes leaves at an address. -/
def lastWrite (ws : List ByteWrite) (glob : Bool) (addr : Nat) : Option Byte :=
  ws.foldl (fun r w => if w.glob == glob && w.addr == addr then some w.val else r) none

/-- 13 R278: what a group's own stores supply at an address: the latest byte of those that no other observer sees yet, else for
global memory a released one's. -/
def Group.ownByte (g : Group) (glob : Bool) (addr : Nat) : Option Byte :=
  match lastWrite (g.waiting ++ g.hamper) glob addr with
  | some b => some b
  | none => if glob then lastWrite g.flight true addr else none

/-- The hamper entries of a span: distinct 128-byte blocks of each space (14 R303). -/
def hamperEntries (ws : List ByteWrite) : List (Bool × Nat) :=
  ws.foldl (fun s w => if w.tst || s.contains (w.glob, w.addr / 128) then s else s ++ [(w.glob, w.addr / 128)]) []

/-- Drains a scratchpad byte into its frame. A word whose 8 bytes the release all covers loses its poison (22 R425). -/
def drainScratch (d : Device) (team : Nat) (all : List ByteWrite) (w : ByteWrite) : Device :=
  let d := scratchPut d team w.addr w.val
  match d.team team with
  | some t =>
    if scratchPoisoned d t w.addr &&
        (List.range 8).all (fun i => all.any (fun x => !x.glob && x.addr == w.addr / 8 * 8 + i)) then
      clearPoison d t w.addr
    else d
  | none => d

/-- Bit 0 of the phase word, bytes 8 to 11 of the object (16 R330), as the group sees it: its own stores first (log entry 25, DEDUCED). -/
def phaseBit (d : Device) (g : Group) (t : Team) (addr : Nat) : Bool :=
  let b := match g.ownByte false (addr + 8) with
    | some b => b
    | none => (scratchBytes d t (addr + 8) 1).headD 0
  b.getLsbD 0

/-- Whether a slot is still held by its WAITB: the phase it awaits has not completed (04 R122). -/
def stillHeld (d : Device) (g : Group) (t : Team) (s : PcSlot) : Bool :=
  match s.held with
  | none => false
  | some (addr, parity) =>
    match (t.page (addr / pageSize)).state with
    | .resident => phaseBit d g t addr == parity
    | .unmapped => false
    | .out | .sharedOut => true

/-- The slots of a group whose awaited phase has completed issue again. -/
def wakeGroup (d : Device) (t : Team) (id : Nat) : Device :=
  d.modGroup (.user id) (fun g =>
    let wake (s : PcSlot) : PcSlot := if stillHeld d g t s then s else { s with held := none }
    let c := g.core
    { g with core := { c with
               slotA := wake c.slotA
               slotB := wake c.slotB
               handler := c.handler.map (fun h => { h with slotA := wake h.slotA, slotB := wake h.slotB }) } })

/-- A change of a team's scratchpad is seen by every slot that a WAITB holds (04 R122). -/
def wakeHeld (d : Device) (team : Nat) : Device :=
  match d.team team with
  | none => d
  | some t => t.groups.foldl (fun d id => wakeGroup d t id) d

-- rings (16 R322 to R325)

/-- The scratchpad address of a position. -/
def RingConf.tileAddr (c : RingConf) (n : Nat) : Nat := c.base + n % c.tcount * c.tsize * 64

def RingConf.bytes (c : RingConf) : Nat := c.tsize * 64

/-- HEAD advances over committed pops in ascending order (16 R324). -/
def advanceHead : Nat → Ring → Ring
  | 0, r => r
  | n + 1, r =>
    if r.popDone.contains r.head then
      advanceHead n { r with head := r.head + 1, popDone := r.popDone.filter (fun x => x != r.head) }
    else r

def Ring.popped (r : Ring) (pos : Nat) : Ring :=
  let r := { r with popDone := pos :: r.popDone }
  advanceHead r.popDone.length r

/-- A rollback releases the span's pushes and pops (16 R325). -/
def releaseRings (d : Device) (gid : Gid) : Device :=
  match d.group gid with
  | none => d
  | some g =>
    match g.kind with
    | .firmware _ _ => d
    | .user t =>
      let d := g.core.pushes.foldl
        (fun d p => d.modTeam t (fun tm =>
          let r := tm.ring p.ring
          tm.setRing p.ring { r with rtail := Nat.min r.rtail p.pos, pushOwner := none }))
        d
      g.core.pops.foldl
        (fun d p => d.modTeam t (fun tm =>
          let r := tm.ring p.1
          tm.setRing p.1 { r with rhead := Nat.min r.rhead p.2, popOwner := none }))
        d

-- decode tables' pins (02 R64)

def clsNum : SlotClass → Nat
  | .c => 0 | .v0 => 1 | .v1 => 2 | .m => 3 | .e => 4

def tabKey (bank quad : Nat) (cls : SlotClass) : Nat := (bank * 4 + quad) * 5 + clsNum cls

/-- A group's pins are released: it issues, is descheduled or is rolled back. -/
def dropPins (d : Device) (id : Nat) : Device :=
  match d.coreOf (.user id) with
  | none => d
  | some c =>
    d.modCore c (fun k =>
      { k with tabs := k.tabs.map (fun (key, t) =>
          (key, { t with entries := t.entries.map (fun (i, e) => (i, { e with pins := e.pins.filter (· != id) })) })) })

def unparkQuire (p : Park) : Park := match p with | .quire _ => .none | x => x

-- barriers (04 R123 to R128)

/-- Where q6 of an interrupted program stands (16 R333). -/
def GCore.setQ6 (c : GCore) (b : Bool) : GCore :=
  if c.handler.isSome then
    { c with shadowQ := if b then c.shadowQ ||| 4#3 else c.shadowQ &&& 3#3 }
  else c.setQ 6 b

/-- A waiting group's barrier instruction completes (04 R128); its checkpoint has passed, so its kept state takes q6 too. -/
def Group.barrierDone (g : Group) (killed : Bool) : Group :=
  { g with waits := .none, core := g.core.setQ6 killed, ck := g.ck.setQ6 killed }

/-- Completes a phase when its arrivals reach the expected count (04 R125). -/
def Barrier.full (b : Barrier) : Bool :=
  match b.expected with
  | some n => decide (n ≤ b.arrived.length) && !b.arrived.isEmpty
  | none => false

def Barrier.advance (b : Barrier) : Barrier := { Barrier.reset with phase := b.phase + 1, solo := b.solo }

/-- The phase of a team's barrier completes when it may: its waiting groups are released. Barrier 16 is the team's. -/
def completeBarrier (d : Device) (team n : Nat) : Device :=
  match d.team team with
  | none => d
  | some t =>
    let b := t.bar n
    if b.full then
      let d := d.setTeam team (t.setBar n b.advance)
      t.groups.foldl
        (fun d id => d.modGroup (.user id) (fun g => if g.waits = .barrier n b.phase then g.barrierDone false else g)) d
    else d

/-- Whether a group waits for a phase of a launch's grid barrier that lies below a phase. -/
def waitsGrid (d : Device) (launch phase : Nat) (x : Nat × Group) : Bool :=
  match x.2.waits, d.launchOf (.user x.1) with
  | .grid ph, some (l, _) => l == launch && decide (ph < phase)
  | _, _ => false

/-- The cores on which groups wait for a grid phase that has passed. -/
def gridCores (d : Device) (launch phase : Nat) : List Nat :=
  ((d.groups.filter (waitsGrid d launch phase)).filterMap (fun x => d.coreOf (.user x.1))).eraseDups

/-- Releases the groups that wait for a grid phase that has passed: those on one core, or those off any core (08 R213). -/
def releaseGrid (d : Device) (launch phase : Nat) (core : Option Nat) : Device :=
  d.groups.foldl
    (fun d x =>
      if waitsGrid d launch phase x && d.coreOf (.user x.1) == core then d.modGroup (.user x.1) (fun g => g.barrierDone false)
      else d)
    d

/-- The grid barrier's phase completes: its cores wait for the slew limiter (04 R124, 09 R234). Groups off their core are
released at once (08 R213). -/
def completeGrid (d : Device) (launch : Nat) : Device :=
  match d.launch launch with
  | none => d
  | some l =>
    if l.grid.full then
      let phase := l.grid.phase + 1
      releaseGrid (d.setLaunch launch { l with grid := l.grid.advance, releasing := gridCores d launch phase, slew := none }) launch phase none
    else d

/-- A group that retires leaves the expected counts that follow the unretired groups (04 R125). -/
def leaveBarriers (d : Device) (id : Nat) : Device :=
  match d.group (.user id), d.teamOf (.user id) with
  | some g, some (team, t) =>
    let lower (b : Barrier) : Barrier :=
      if b.all || b.role == some g.producer then { b with expected := b.expected.map (· - 1) } else b
    let d := d.setTeam team { t with bars := t.bars.map (fun (n, b) => (n, lower b)) }
    let d := (List.range 17).foldl (fun d n => completeBarrier d team n) d
    completeGrid (d.modLaunch t.launch (fun l => { l with grid := lower l.grid })) t.launch
  | _, _ => d

/-- A killed group's team: its barriers are cleared, waiters are released with q6 = 1, and every other survivor's next barrier
instruction completes at once with q6 = 1 (04 R128). -/
def clearBarriers (d : Device) (team : Nat) : Device :=
  match d.team team with
  | none => d
  | some t =>
    let d := d.setTeam team { t with bars := [] }
    t.groups.foldl
      (fun d id => d.modGroup (.user id) (fun g =>
        if g.retired || g.halted then g
        else match g.waits with
          | .barrier _ _ => g.barrierDone true
          | _ => { g with abandon := true }))
      d

-- retirement (04 R113, 07 R181)

/-- Removes a group from its core's age orders and picks. -/
def leaveAges (d : Device) (id : Nat) : Device :=
  match d.coreOf (.user id) with
  | some c => d.modCore c (fun k =>
      { k with ages := k.ages.map (fun (i, l) => (i, l.filter (· != id))), picked := k.picked.filter (· != id) })
  | none => d

/-- A group with no live lane retires; completions queued for it are dropped (07 R196). -/
def retireGroup (d : Device) (id : Nat) : Device :=
  match d.group (.user id) with
  | none => d
  | some g =>
    if g.retired || g.core.live != 0 || (awaitsClone d id && !g.halted) then d
    else
      let d := d.setGroup (.user id) { g with retired := true, uq := [], park := .none, waits := .none, holdWait := none }
      settleHolds (dropPins (leaveAges (leaveBarriers d id) id) id) (d.partOf (.user id))

-- stopping and resuming (20 R396, 21 R409)

/-- A group stops at its boundary: a quire miss loses its pins (21 R422). -/
def stopGroup (d : Device) (id : Nat) : Device :=
  dropPins (d.modGroup (.user id) (fun g => { g with stopped := true, park := unparkQuire g.park })) id

def stopTeam (d : Device) (team : Nat) : Device :=
  match d.team team with
  | some t => t.groups.foldl stopGroup d
  | none => d

/-- The teams of a partition that have not retired. -/
def partTeams (d : Device) (part : Nat) : List (Nat × Team) :=
  d.teams.filter (fun t => !t.2.retired && (match d.launch t.2.launch with | some l => l.part == part | none => false))

/-- The partition is suspended: its teams are pre-empted (21 R409, 25 R458). -/
def suspendPart (d : Device) (part state : Nat) : Device :=
  let d := d.modPart part (fun p => { p with susp := true, state, suspDue := none })
  (partTeams d part).foldl (fun d t => stopTeam d t.1) d

-- the command processor's memory accesses (25 R447, R454)

/-- The command processor's translation. -/
def cpTranslate (d : Device) (part va : Nat) (n : Needs) : Xlate := heldXlate d part (d.part part).lead va n false

/-- A failing access of the command processor: a violation is entered in the partition's error log (11 R251, 22 R428). -/
def cpViolation (d : Device) (part va cause : Nat) : Device :=
  if [0x26, 0x2B, 0x2C, 0xC1, 0xC4].contains cause then
    logPlain d part (plainEntry cause va part srcCp (d.part part).lead none 0 false)
  else d

/-- Writes bytes at a virtual address as the command processor, in ascending order: translation, then the tag byte. The answer is
the device and the cause of the first failure. -/
def cpWrite (d : Device) (part va : Nat) : List Byte → Device × Option Nat
  | [] => (d, none)
  | b :: t =>
    let fail (c : Nat) : Device × Option Nat := (cpViolation d part va c, some c)
    match cpTranslate d part va { read := false, write := true, exec := false } with
    | .local_ pa =>
      let d := resolveLine d (lineOf pa)
      match tagCause d part (lineOf pa) with
      | some c => (cpViolation d part va c, some c)
      | none => cpWrite (d.modMem (fun m => { m with hbm := writeByte m.hbm pa b })) part (va + 1) t
    | .host a => cpWrite (d.modMem (fun m => { m with host := writeByte m.host a b })) part (va + 1) t
    | .peer _ _ => fail 0x2E
    | .waits => fail 0x2A
    | .fault c => fail c

/-- Reads a byte as the command processor. -/
def cpReadByte (d : Device) (part va : Nat) : Except Nat Byte :=
  match cpTranslate d part va { read := true, write := false, exec := false } with
  | .local_ pa =>
    match tagCause d part (lineOf pa) with
    | some c => .error c
    | none => .ok (readByte d.mem.hbm pa)
  | .host a => .ok (readByte d.mem.host a)
  | .peer _ _ => .error 0x2E
  | .waits => .error 0x2A
  | .fault c => .error c

def cpRead (d : Device) (part va : Nat) : Nat → Except Nat (List Byte)
  | 0 => .ok []
  | n + 1 =>
    match cpReadByte d part va, cpRead d part (va + 1) n with
    | .ok b, .ok t => .ok (b :: t)
    | .error c, _ => .error c
    | _, .error c => .error c

/-- The first of n bytes that the command processor cannot read: its address and cause. -/
def cpReadFail (d : Device) (part va n : Nat) : Option (Nat × Nat) :=
  (List.range n).findSome? (fun i => match cpReadByte d part (va + i) with | .error c => some (va + i, c) | .ok _ => none)

/-- The log of a read of n bytes that failed. -/
def cpReadLog (d : Device) (part va n : Nat) : Device :=
  match cpReadFail d part va n with
  | some (a, c) => cpViolation d part a c
  | none => d

/-- The ring's level at its offset 0. -/
def ringLevel : CpLevel := { start := 0, stop := none, pos := 0, window := [], loop := none, skip := 0 }

def StreamSt.lvls (s : StreamSt) : List CpLevel := if s.levels.isEmpty then [ringLevel] else s.levels

/-- The level at which the stream executes. -/
def StreamSt.top (s : StreamSt) : CpLevel := s.lvls.getLastD ringLevel

def StreamSt.setTop (s : StreamSt) (l : CpLevel) : StreamSt := { s with levels := s.lvls.dropLast ++ [l] }

/-- A level goes on to a position; at the end of a loop's range the next pass begins or the loop ends (25 R453). -/
def CpLevel.goOn (l : CpLevel) (pos : Nat) : CpLevel :=
  match l.loop with
  | some k =>
    if k.stop ≤ pos then
      if 1 < k.passes then { l with pos := k.start, loop := some { k with passes := k.passes - 1 } } else { l with pos, loop := none }
    else { l with pos }
  | none => { l with pos }

/-- The length of an IB packet. -/
def ibBytes : Nat := 16

/-- Indirect buffers that have ended return to the packet after their IB (25 R451). -/
def StreamSt.leaveIbs : Nat → StreamSt → StreamSt
  | 0, s => s
  | n + 1, s =>
    match s.top.stop with
    | some e =>
      if e ≤ s.top.pos then
        let s := { s with levels := s.lvls.dropLast }
        StreamSt.leaveIbs n (s.setTop (s.top.goOn (s.top.pos + ibBytes)))
      else s
    | none => s

/-- The stream passes n bytes of its level. -/
def StreamSt.pass (s : StreamSt) (n : Nat) : StreamSt := (s.setTop (s.top.goOn (s.top.pos + n))).leaveIbs 3

/-- The packet being executed ends. -/
def StreamSt.packetEnd (s : StreamSt) : StreamSt := { s.pass s.len with wait := .none, len := 0 }

/-- A stream stops at its packet (25 R449). -/
def streamError (d : Device) (part idx err cause : Nat) : Device :=
  d.modPart part (fun p => p.setStream idx { p.stream idx with stop := true, err, cause, wait := .none, len := 0 })

-- the completion of a launch (07 R197, 25 R450)

/-- A bank that no team holds any longer belongs to no context (25 R445). -/
def leaveBank (d : Device) (part core bank : Nat) : Device :=
  if d.teams.any (fun t => t.2.place == some (core, bank)) then d
  else d.modPart part (fun p => { p with bankCtx := tdel p.bankCtx (2 * core + bank) })

/-- Releases a team's frames, slots, place and engine operations (07 R196). What its page table, rings and barriers hold stays to be
read (19 R390), and so do its scratchpad's bytes (15 R319); nothing uses them again. -/
def releaseTeam (d : Device) (team : Nat) : Device :=
  match d.team team with
  | none => d
  | some t =>
    let part := match d.launch t.launch with | some l => l.part | none => 0
    let leave (g : Group) : Group := match t.place with | some p => { g with flightCore := p.1 } | none => g
    let d := t.groups.foldl (fun d id => dropPins (leaveAges (d.modGroup (.user id) leave) id) id) d
    let last := scratchContents d t
    let d := (keysOf t.spt).foldl (fun d p => dropMapping d t.place (t.page p)) d
    let d := d.modTeam team (fun t => { t with last, place := none, retired := true, fifo := [], saved := false, starved := false })
    let clear (c : Core) : Core :=
      { c with mq := c.mq.filter (fun m => m.team != team)
               kicks := c.kicks.filter (fun k => k.team != team)
               reqs := c.reqs.filter (fun r => match r.kick with | some k => k.team != team | none => true)
               ciphers := c.ciphers.filter (fun k => k.team != team)
               stb := c.stb.filter (fun e => e.1 / 8192 != team) }
    let d := (keysOf d.cores).foldl (fun d c => d.modCore c clear) d
    match t.place with
    | some p => leaveBank d part p.1 p.2
    | none => d

/-- Puts a save frame, given by address bits [51:12], onto the free list: its first 8 bytes link to the old head (20 R403). -/
def pushFrame (d : Device) (part f : Nat) : Device :=
  let p := d.part part
  let d := d.modMem (fun m => { m with hbm := writeBytes m.hbm (f * 4096) (natBytes 8 p.saveHead) })
  d.setPart part { p with saveHead := f, saveCount := p.saveCount + 1, offList := p.offList.filter (· != f) }

/-- Takes a frame off the list. -/
def popFrame (d : Device) (part : Nat) : Option (Nat × Device) :=
  let p := d.part part
  if p.saveCount = 0 then none
  else
    let f := p.saveHead
    let d := resolveLine d (f * 64)
    let p := d.part part
    some (f, d.setPart part
      { p with saveHead := readHbm d (f * 4096) 8 % 2 ^ 40, saveCount := p.saveCount - 1, offList := f :: p.offList })

/-- The frames of a team return to the list (20 R402). -/
def freeFrames (d : Device) (part team : Nat) : Device :=
  match d.team team with
  | some t => (t.frames.foldl (fun d f => pushFrame d part f) d).setTeam team { t with frames := [] }
  | none => d

/-- The completion record (25 R450). -/
def completionRecord (l : Launch) : List Byte :=
  natBytes 8 (l.status + 2 ^ 8 * l.code + 2 ^ 16 * l.cause + 2 ^ 32 * (l.seq.getD 0xFFFFFFFF))

/-- The launch completes: its record is written, its replicas and populations go, and its stream continues. A record that
cannot be written stops the stream with ERR 7 (25 R449). -/
def completeLaunch (d : Device) (launch : Nat) : Device :=
  match d.launch launch with
  | none => d
  | some l =>
    if l.done then d
    else
      let status := if l.status = 0 then 1 else l.status
      let l := { l with status, done := true, replicas := [], releasing := [], slew := none }
      let d := closePopulations (d.setLaunch launch l) l.part l.pops
      let (d, bad) := cpWrite d l.part l.completion (completionRecord l)
      let d := d.modPart l.part (fun p =>
        { p with gq := p.gq.filter (fun t => match d.team t with | some t => t.launch != launch | none => false) })
      let s := (d.part l.part).stream l.stream
      if s.wait = .launch launch ∨ s.wait = .seed launch then
        match bad with
        | some c => streamError d l.part l.stream 7 c
        | none => d.modPart l.part (fun p => p.setStream l.stream (p.stream l.stream).packetEnd)
      else d

/-- Every team of the launch stops and does not resume; stores in hampers never become visible (20 R397) (log entry 24, DEDUCED). -/
def endLaunch (d : Device) (launch : Nat) : Device :=
  match d.launch launch with
  | none => d
  | some l =>
    if l.done then d
    else
      let teams := d.teams.filter (fun t => t.2.launch == launch && !t.2.retired)
      let d := teams.foldl
        (fun d (id, t) =>
          let d := freeFrames (releaseTeam d id) l.part id
          t.groups.foldl (fun d g => d.modGroup (.user g) (fun g =>
            { g with stopped := true, retired := true, hamper := [], uq := [], park := .none, waits := .none, holdWait := none })) d)
        d
      (d.part l.part).dieList.foldl retarget (completeLaunch d launch)

/-- The first trap record a launch logs is its cause and SEQ (25 R450). -/
def noteCause (d : Device) (launch cause : Nat) (seq : Option Nat) : Device :=
  d.modLaunch launch (fun l => if l.cause = 0 then { l with cause, seq } else l)

-- traps

/-- The handler kinds of a group's causes (20 R397, R407). -/
inductive Kind where
  | repair | ends | group | debug | halt
  deriving DecidableEq, Repr

def causeKind (cause : Nat) (debugger : Bool) : Kind :=
  if cause = 0x28 ∨ cause = 0x29 ∨ cause = 0x2A then .repair
  else if cause = 0xC0 ∨ cause = 0xC1 ∨ cause = 0xC2 ∨ cause = 0xC4 then .group
  else if cause = 0xE0 then .debug
  else if cause = 0x01 then (if debugger then .debug else .ends)
  else if cause = 0x10 then .halt
  else .ends

/-- The PC of the path that holds a lane. -/
def GCore.pathPc (c : GCore) (lane : Nat) : DWord :=
  let held := match c.handler with
    | some h => [h.slotA, h.slotB].map (fun s => (s.lanes, s.pc)) ++ h.stack.map (fun e => (e.lanes, e.pc))
    | none => []
  let all := [c.slotA, c.slotB].map (fun s => (s.lanes, s.pc)) ++ c.stack.map (fun e => (e.lanes, e.pc)) ++ held
  match all.find? (fun p => p.1.getLsbD lane) with
  | some p => p.2
  | none => c.slotA.pc

/-- The trap record (20 R394). -/
def trapRecord (t : TrapInfo) (group : Nat) (hndl : Bool) (ckpc : DWord) : BitVec 256 :=
  let w3 := t.cause * 2 ^ 32 + t.code * 2 ^ 24 + group * 2 ^ 19 + t.lane.getD 0 * 2 ^ 14 + t.lane.isSome.toNat * 2 ^ 13 +
    t.defer.toNat * 2 ^ 12 + t.slotB.toNat * 2 ^ 11 + hndl.toNat * 2 ^ 10 + t.slot * 2 ^ 7 + t.write.toNat
  BitVec.ofNat 64 w3 ++ BitVec.ofNat 64 t.addr ++ BitVec.ofNat 64 (ckpc.toNat % 2 ^ 57) ++
    BitVec.ofNat 64 (t.bpc.toNat % 2 ^ 57)

/-- Rows bound for a clone whose landing a rollback takes back leave the port; the landing sends them again (18 R378). -/
def dropRows (d : Device) (gid : Gid) (ck : GCore) : Device :=
  match gid, d.coreOf gid with
  | .user id, some core =>
    d.modCore core (fun c =>
      { c with mq := c.mq.filter (fun m =>
          match m.kind with
          | .cloneRows rsmp _ _ => m.group != id || !ck.pend.any (fun p => p.op == rsmp)
          | _ => true) })
  | _, _ => d

/-- A group returns to its last checkpoint (01 R29, 20 R391): its registers and control state, the span's stores, pushes and
pops; the commits of engine commands stand. Results due at the checkpoint land again. -/
def rollback (d : Device) (gid : Gid) : Device :=
  match d.group gid with
  | none => d
  | some g =>
    let d := (dropRows (releaseRings d gid) gid g.ck).modGroup gid (fun g =>
      { g with core := { g.ck with slotA := { g.ck.slotA with held := none }, slotB := { g.ck.slotB with held := none } }
               hamper := [], checks := [], spanV := [], spanLen := 0, park := .none })
    let d := match gid with | .user id => dropPins d id | .fw _ => d
    retargetOf (settle (storeStack d gid g.core.pathStack) gid) gid

/-- The error-log entry that copies a trap record. -/
def recordEntry (d : Device) (gid : Gid) (t : TrapInfo) (index : Nat) (rec : BitVec 256) : LogEntry :=
  let core := d.coreOf gid
  { addr := BitVec.ofNat 64 t.addr, seq := 0, cause := t.cause, world := d.partOf gid, src := srcCore,
    die := match core with | some c => dieOf c | none => 0, core := core.map (· % 160), group := index, phys := false,
    trec := some rec }

/-- A kind G trap: only the group is halted; it counts as retired, its population members leave and its team's barriers are
cleared (20 R397, 22 R427). -/
def haltGroup (d : Device) (id : Nat) : Device :=
  match d.group (.user id), d.teamOf (.user id) with
  | some g, some (team, _) =>
    let d := retireLanes d id g.core.live true
    let d := d.modGroup (.user id) (fun g =>
      { g with halted := true, hamper := [], uq := [], park := .none, waits := .none, holdWait := none })
    retireGroup (clearBarriers (loseGroup d (d.partOf (.user id)) id) team) id
  | _, _ => d

/-- What a filled record leads to (20 R396, R397). -/
def dispatchTrap (d : Device) (id : Nat) (t : TrapInfo) (index : Nat) (rec : BitVec 256) (kind : Kind) : Device :=
  match d.launchOf (.user id), d.teamOf (.user id) with
  | some (lid, l), some (team, _) =>
    match kind with
    | .repair => stopTeam d team
    | .debug => stopTeam (d.modTeam team (fun t => { t with heldBy := true })) team
    | .group =>
      let (d, seq) := logEntry d l.part (recordEntry d (.user id) t index rec)
      let d := noteCause d lid t.cause seq
      haltGroup (d.modLaunch lid (fun l => if l.status = 0 then { l with status := 4 } else l)) id
    | .ends =>
      let (d, seq) := logEntry d l.part (recordEntry d (.user id) t index rec)
      let d := noteCause d lid t.cause seq
      endLaunch (d.modLaunch lid (fun l => { l with status := 3 })) lid
    | .halt =>
      let (d, seq) := logEntry d l.part (recordEntry d (.user id) t index rec)
      let d := d.modLaunch lid (fun l =>
        { l with seq := if l.cause = 0 then seq else l.seq, cause := 0x10, code := t.code, status := 2 })
      endLaunch d lid
  | _, _ => d

/-- A firmware context's trap is 0xF0 (20 R405): the core's user groups stop, the partition is suspended, and the hypervisor's
log takes an entry (log entry 24, DEDUCED). -/
def firmwareTrap (d : Device) (key : Nat) (rec : BitVec 256) (t : TrapInfo) : Device :=
  let core := key / 4
  let part := d.partOfDie (dieOf core)
  let d := d.modGroup (.fw key) (fun g => { g with trapRec := rec, trapSet := true })
  let d := d.modCore core (fun c => { c with fwFault := true })
  let d := d.groups.foldl
    (fun d x => if d.coreOf (.user x.1) = some core then stopGroup d x.1 else d) d
  let now := (d.part part).state
  let d := suspendPart d part (if now = 0 ∨ now = 5 then now else 2)
  logPlain d 0 { plainEntry 0xF0 t.bpc.toNat part srcCore (dieOf core) (some core) 0 false with trec := some rec }

/-- A page fault is counted, and when tracing is on recorded (12 R271); the record's fields are those of 02 R66 (log entry 39, DESIGN
CHOICE). -/
def traceFault (d : Device) (id core : Nat) (t : TrapInfo) : Device :=
  let d := d.modCore core (fun k => { k with faultCount := k.faultCount + 1 })
  match d.tracing, d.group (.user id), d.teamOf (.user id) with
  | true, some g, some (_, tm) =>
    { d with trace := d.trace ++
        [{ core, quad := g.quad, bank := (tm.place.map (fun p => p.2)).getD 0, what := .fault t.cause t.addr, cycle := (d.core core).cycle }] }
  | _, _, _ => d

/-- TAKING A TRAP of a kind. A trap raised by a bundle (not deferred) first returns the group to its last checkpoint (01 R29); a
deferred one leaves the committed state as it stands (20 R399). The record is filled (R394), unless one is filled already: then
the cause goes to the error log only (R395). A firmware context's record holds 0xF0 (R405). Then the kind decides (R396, R397). -/
def takeTrapAs (d : Device) (gid : Gid) (t : TrapInfo) (kind : Kind) : Device :=
  match d.group gid with
  | none => d
  | some g =>
    let lane := (firstLane ((g.core.slot t.slotB).lanes &&& g.core.live)).getD 0
    let hndl := g.core.handler.isSome
    let d := if t.defer then d else rollback d gid
    let ckpc := match d.group gid with | some g => g.core.pathPc lane | none => 0
    match gid with
    | .fw key => firmwareTrap d key (trapRecord { t with cause := 0xF0, code := 0 } g.index hndl ckpc) t
    | .user id =>
      let recd := trapRecord t g.index hndl ckpc
      if t.defer && (g.trapSet || g.retired || g.halted) then
        logPlain d (d.partOf gid) { recordEntry d gid t g.index recd with trec := none }
      else
        let d := d.modGroup gid (fun g =>
          { g with trapRec := recd, trapSet := true, deferred := none
                   past := if g.past = some t.bpc then g.past else none })
        let d := match d.coreOf gid with
          | some c => if t.cause = 0x28 ∨ t.cause = 0x29 then traceFault d id c t else d
          | none => d
        dispatchTrap d id t g.index recd kind

/-- TAKING A TRAP: the kind is that of its cause. -/
def takeTrap (d : Device) (gid : Gid) (t : TrapInfo) : Device :=
  takeTrapAs d gid t (causeKind t.cause (d.part (d.partOf gid)).debugger)

/-- 20 R398: a declined repair, or a record handled as kind L, ends the launch faulted with the same record. -/
def declineTrap (d : Device) (id : Nat) : Device :=
  match d.group (.user id), d.launchOf (.user id) with
  | some g, some (lid, l) =>
    let cause := natBits g.trapRec.toNat 224 8
    let t : TrapInfo :=
      { cause, code := 0, lane := none, addr := natBits g.trapRec.toNat 128 64, slot := 0, write := false, bpc := 0,
        slotB := false, defer := false }
    let (d, seq) := logEntry d l.part (recordEntry d (.user id) t g.index g.trapRec)
    let d := noteCause d lid cause seq
    endLaunch (d.modLaunch lid (fun l => { l with status := 3 })) lid
  | _, _ => d

/-- A deferred cause reaches a group, which stands at a bundle boundary (14 R301); it is never of kind R (20 R399) (log entry 24,
DEDUCED). -/
def deferTrap (d : Device) (gid : Gid) (t : TrapInfo) : Device :=
  let kind := causeKind t.cause (d.part (d.partOf gid)).debugger
  takeTrapAs d gid { t with defer := true } (if kind = .repair then .ends else kind)

-- a shortfall (18 R378)

/-- A group takes the outcome of a short round of a population wherever its RSMP's landing point still lies (log entry 18, DEDUCED). -/
def landShort (d : Device) (desc id : Nat) : Device :=
  match d.group (.user id) with
  | none => d
  | some g =>
    let short (p : Pending) : Bool :=
      match rsmpRound d id p with | some (va, _, r, _) => va == desc && r.short | none => false
    (g.core.pend.filter short).foldl
      (fun d p =>
        landRsmp (d.modGroup (.user id) (fun g =>
          { g with core := landResult d (.user id) { g.core with pend := g.core.pend.filter (· != p) } p })) id p)
      d

/-- A deferred cause of a launch that ends: the group's record is filled and copied to the log. -/
def recordDeferred (d : Device) (lid id : Nat) : Device :=
  match d.group (.user id) with
  | none => d
  | some g =>
    match g.deferred with
    | none => d
    | some t =>
      let lane := (firstLane ((g.core.slot t.slotB).lanes &&& g.core.live)).getD 0
      let recd := trapRecord t g.index g.core.handler.isSome (g.core.pathPc lane)
      let e := recordEntry d (.user id) t g.index recd
      if g.trapSet then (logEntry (d.setGroup (.user id) { g with deferred := none }) (d.partOf (.user id)) { e with trec := none }).1
      else
        let (d, seq) := logEntry (d.setGroup (.user id) { g with trapRec := recd, trapSet := true, deferred := none }) (d.partOf (.user id)) e
        noteCause d lid t.cause seq

/-- A shortfall: every group of the round takes the outcome and its deferred 0x83 before the cause ends the launch (18 R378, R384). -/
def takeShort (d : Device) (id desc : Nat) : Device :=
  match d.launchOf (.user id) with
  | none => d
  | some (lid, _) =>
    let mine := (d.groups.filter (fun x => match d.launchOf (.user x.1) with | some (l, _) => l == lid | none => false)).map (fun x => x.1)
    let d := mine.foldl (fun d i => landShort d desc i) d
    let hit := mine.filter (fun i => match d.group (.user i) with
      | some g => (match g.deferred with | some t => t.cause == 0x83 | none => false)
      | none => false)
    let d := hit.foldl (fun d i => recordDeferred d lid i) d
    endLaunch (d.modLaunch lid (fun l => { l with status := 3 })) lid

/-- After a boundary: a deferred cause that the landings left is taken first (20 R395), then a rejoin deadlock (07 R192);
a group left with no live lane retires. -/
def afterBoundary (d : Device) (gid : Gid) : Device :=
  match gid, d.group gid with
  | .user id, some g =>
    match g.deferred with
    | some t => if t.cause = 0x83 then takeShort d id t.addr else deferTrap d gid t
    | none =>
      if g.core.live = 0 then retireGroup d id
      else if !g.waitsData && !g.asksFirmware && g.core.deadlocked && !g.retired then
        let b := g.core.slotA.st != .joining
        takeTrap d gid
          { cause := 0x0B, code := 0, lane := none, addr := 0, slot := 7, write := false, bpc := (g.core.slot b).pc,
            slotB := b, defer := false }
      else d
  | _, _ => d

/-- A boundary with its landings and steps, and what they lead to. -/
def boundary (d : Device) (gid : Gid) : Device := afterBoundary (settle d gid) gid

-- resuming (20 R396, R397; 21 R411)

/-- Whether a group waits for its team to run or for firmware's page path: an RSMP outcome to land (18 R383), a stack's bytes to be
written (07 R187), its members' windows to be held (18 R381). -/
def Group.waitsFirmware (g : Group) : Bool :=
  g.core.pend.any (fun p => p.isRsmp && p.arrived) || g.stackWait || g.holdWait.isSome

def landDue (d : Device) (id : Nat) : Device :=
  match d.group (.user id) with
  | some g => if g.waitsFirmware then boundary (holdGroup d id) (.user id) else d
  | none => d

/-- The team resumes when every record has been handled and nothing else holds it; a team that waits for save frames stays stopped
(20 R404). -/
def resumeTeam (d : Device) (team : Nat) : Device :=
  match d.team team with
  | some t =>
    if t.heldBy || t.starved ||
        t.groups.any (fun id => match d.group (.user id) with | some g => g.trapSet && !g.halted | none => false)
    then d
    else t.groups.foldl landDue (t.groups.foldl (fun d id => d.modGroup (.user id) (fun g => { g with stopped := false })) d)
  | none => d

/-- RETURN FROM A TRAP that has been handled (20 R397): the record is done with, and the team resumes when it was the last one:
the trapping group at its checkpoint, the others where they stopped. -/
def resumeFromTrap (d : Device) (id : Nat) : Device :=
  match d.group (.user id), d.teamOf (.user id) with
  | some g, some (team, _) =>
    resumeTeam (d.setGroup (.user id) { g with trapSet := false }) team
  | _, _ => d

/-- Data of a pending result arrive (01 R25): both the entry and its copy in the kept state are filled. -/
def fillPending (g : Group) (op : Nat) (f : Pending → Pending) : Group :=
  let up (c : GCore) : GCore := { c with pend := c.pend.map (fun p => if p.op = op then f p else p) }
  { g with core := up g.core, ck := up g.ck }

/-- The boundary goes on when the data it waited for are there. -/
def arrived (d : Device) (gid : Gid) (waited : Bool) : Device := if waited then boundary d gid else d

-- user-level interrupts (16 R333, R334)

/-- The handler entry's effect on the registers: the paths are held, every live lane runs at UVEC, and s56 and s57 name the
completion. -/
def GCore.enterHandler (c : GCore) (uvec : DWord) (firstOp : Nat) (k : Completion) : GCore :=
  let fmt := if c.slotA.st = .idle then c.slotB.fmt else c.slotA.fmt
  let h : Handler := { slotA := c.slotA, slotB := c.slotB, turnB := c.turnB, stack := c.stack, firstOp }
  let c := c.swapShadow
  let c := (c.setS 56 (BitVec.ofNat 32 k.record)).setS 57 (BitVec.ofNat 32 k.cause)
  { c with handler := some h, slotA := issuingSlot uvec c.live fmt, slotB := idleSlot, turnB := false, stack := [] }

end Sys2Proof.Machine
end

