-- ==== Sys2Proof/Machine/Home.lean ====
section
/-!
DEFINITION. Lines at their home slice (11 R255, R259, R261; 22 R425, R426, R430), the way of a store from the hamper to its
home (13 R278, R283; 14 R301), and checkpoints (01 R27).
-/
namespace Sys2Proof.Machine

-- the injector (22 R430)

/-- A candidate event of the injector's target numbered `bit`: whether a fault is planted, and whether it is a double error
(log entry 26, DEDUCED). -/
def inject (d : Device) (part bit : Nat) : Option Bool × Device :=
  let p := d.part part
  let i := p.inj
  if !(p.test && i.en && i.targets.getLsbD bit) then (none, d)
  else
    let hit := decide (mix i.seed.toNat i.n / 2 ^ 48 < i.rate)
    let i2 := { i with n := (i.n + 1) % 2 ^ 64, count := if hit then Nat.min (i.count + 1) (2 ^ 24 - 1) else i.count }
    (if hit then some i.double else none, d.setPart part { p with inj := i2 })

/-- A planted fault takes effect. -/
def applyPlanted (d : Device) : Planted → Device
  | .corrected die => countCorrected d die
  | .line line => lineLost d line
  | .word core bank word =>
    d.modCore core (fun c =>
      let k := c.bank bank
      c.setBank bank { k with poison := if k.poison.contains word then k.poison else word :: k.poison })

def plantFault (d : Device) (p : Planted) : Device := applyPlanted { d with hits := d.hits ++ [p] } p

/-- The device as it was before a bundle, but for what the injector has drawn and planted since: candidate events are events, whether
their bundle commits or not (22 R430). -/
def undoTo (start d : Device) (part : Nat) : Device :=
  let i := (d.part part).inj
  d.hits.foldl applyPlanted (if (start.part part).inj = i then start else start.modPart part (fun p => { p with inj := i }))

-- a line at its home slice

/-- A die translates an address: the table lines of a walk are resolved as they are read (11 R261), and the entry enters the die's cache
(11 R252). A table line that is uncorrectable is poisoned and logged, and the walk goes on with its bytes (log entry 39, DESIGN CHOICE: 22
R426 names no walk among the consumers of poison). -/
def walkTables (d : Device) (part die va : Nat) : Device :=
  if (tget (d.die die).segCache (va / segSize)).isSome then d
  else
    let d := resolveLine d (lineOf ((d.part part).segBase + 8 * (va / 2 ^ 39 % 2 ^ 18)))
    let d := match segEntryAddr d part va with | some a => resolveLine d (lineOf a) | none => d
    cacheSegment d part die va

/-- An access of a partition reaches a line's home slice; it is a candidate event of the injector's L2 target. -/
def homeAccess (d : Device) (part line : Nat) : Device :=
  let d := resolveLine d line
  match inject d part 2 with
  | (none, d) => d
  | (some false, d) => plantFault d (.corrected (homeDie (64 * line)))
  | (some true, d) => plantFault d (.line line)

/-- The table lines of a range and then its lines, each by `f`, are resolved as they are read (11 R261). -/
def touchLines (f : Device → Nat → Device) (d : Device) (part va n : Nat) : Device :=
  ((List.range ((va + n - 1) / 64 - va / 64 + 1)).map (fun i => (va / 64 + i) * 64)).foldl
    (fun d a =>
      let d := walkTables d part (d.part part).lead a
      match cpTranslate d part a { read := false, write := false, exec := false } with
      | .local_ pa => f d (lineOf pa)
      | _ => d)
    d

/-- The lines of a range that a step outside any bundle reads or writes; each is a candidate event of the injector (22 R430). -/
def cpTouch (d : Device) (part va n : Nat) : Device := touchLines (fun d line => homeAccess d part line) d part va n

-- stores at the home slice (14 R301)

/-- The trap of the earliest bundle that wrote a failing line: its lowest lane with bytes there (14 R301). -/
def storeTrap (cause : Nat) (ws : List ByteWrite) : TrapInfo :=
  let none_ : ByteWrite := { op := 0, glob := true, addr := 0, pa := 0, val := 0, bpc := 0, slotB := false, lane := 0, tst := false }
  let first := ws.foldl (fun m w => if w.op < m.op then w else m) (ws.headD none_)
  let mine := ws.filter (fun w => w.op == first.op)
  let low := mine.foldl (fun m w => if w.lane < m.lane ∨ (w.lane = m.lane ∧ w.addr < m.addr) then w else m) first
  { cause, code := 0, lane := some low.lane, addr := low.addr, slot := 3, write := true, bpc := first.bpc,
    slotB := first.slotB, defer := true }

/-- A group's released bytes of one line reach its home slice: the tag byte is checked, then they are merged. -/
def storeAtHome (d : Device) (gid : Gid) (line : Nat) : Device :=
  match d.group gid with
  | none => d
  | some g =>
    let ws := g.flight.filter (fun w => lineOf w.pa == line)
    let d := d.setGroup gid { g with flight := g.flight.filter (fun w => lineOf w.pa != line) }
    match ws with
    | [] => d
    | _ =>
      let world := d.partOf gid
      let d := homeAccess d world line
      match tagCause d world line with
      | some c => deferTrap d gid (storeTrap c ws)
      | none => d.modMem (fun m => { m with hbm := ws.foldl (fun h w => writeByte h w.pa w.val) m.hbm })

/-- The groups of a core, user and firmware, and those whose stores are still on their way from it. -/
def coreGids (d : Device) (core : Nat) : List Gid :=
  (d.groups.filterMap (fun x =>
    if d.coreOf (.user x.1) = some core ∨ (x.2.flightCore = core ∧ x.2.flight ≠ []) then some (Gid.user x.1) else none)) ++
    (d.fw.filterMap (fun x => if x.1 / 4 = core then some (Gid.fw x.1) else none))

/-- Every store of a core that is on its way to a line arrives: what L1 has shown to the core's groups is then at home too, so
no group sees the line's writes out of their order (13 R283). -/
def drainLine (d : Device) (core line : Nat) (but : Option Gid) : Device :=
  (coreGids d core).foldl (fun d g => if some g = but then d else storeAtHome d g line) d

-- sizes (14 R297)

def msBytes : MSize → Nat
  | .n8 | .i8 => 1
  | .n16 | .i16 => 2
  | .b32 | .i32 | .f32 => 4
  | .b64 | .i64 => 8
  | .b128 => 16

/-- The words of a register operand or destination. -/
def msWords (m : MSize) : Nat := Nat.max 1 (msBytes m / 4)

/-- A loaded value as words, extended. -/
def loadValue (m : MSize) (x : Nat) : List Word :=
  natWords (msWords m) (match m with | .i8 => wrapNat (sextNat x 8) 32 | .i16 => wrapNat (sextNat x 16) 32 | _ => x)

-- loads that wait for their line

/-- Scopes of die and wider (13 R280). -/
def Scope.isWide : Scope → Bool
  | .grp | .team | .core => false
  | _ => true

/-- A load served from L1 or home, and not past L1 (13 R280, R281). -/
def Pending.narrow (p : Pending) : Bool := !Scope.isWide p.scope && p.cpol != .bypass

/-- A byte as a group would be served it now. -/
def seenByte (d : Device) (gid : Gid) (narrow : Bool) (va pa : Nat) : Byte :=
  let line := match d.coreOf gid with
    | some c => if narrow then tget (d.core c).l1 (l1Key (d.partOf gid) va) else none
    | none => none
  match line with
  | some l => l.getD (va % 64) 0
  | none => readByte d.mem.hbm pa

/-- What the stores of a group that come before an operation supply at an address (13 R278): those no other observer sees yet, and for a
read that comes before their arrival the released ones too. -/
def Group.ownBefore (g : Group) (op : Nat) (released glob : Bool) (addr : Nat) : Option Byte :=
  lastWrite (((if released then g.flight else []) ++ g.waiting ++ g.hamper).filter (fun w => decide (w.op < op))) glob addr

/-- The loads of a group that an operation's write to a line overtakes. -/
def Pending.overtaken (p : Pending) (op line : Nat) (l : LaneLoad) : Bool :=
  decide (p.op < op) && lineOf l.pa == line && p.lines.contains (l.va / 64)

/-- An overtaken load has read its bytes of the line as they stand now. -/
def captureLoad (d : Device) (gid : Gid) (g : Group) (op line : Nat) (p : Pending) (l : LaneLoad) : LaneLoad :=
  if p.overtaken op line l then
    let now (i : Nat) : Byte := (g.ownBefore p.op true true (l.va + i)).getD (seenByte d gid p.narrow (l.va + i) (l.pa + i))
    { l with fwd := (List.range l.size).foldl (fun t i => if (tget t i).isSome then t else tput t i (now i)) l.fwd }
  else l

/-- A line that a core's L1 holds is read again from its home slice (13 R281). -/
def l1Refresh (d : Device) (core part va line : Nat) : Device :=
  if (tget (d.core core).l1 (l1Key part va)).isSome && (tagCause d part line).isNone then
    l1Fill d core part va (readBytes d.mem.hbm (64 * line) 64) ((d.core core).l1First.contains (l1Key part va))
  else d

/-- Before a group's own write to a line takes effect, its earlier loads of the line that are not yet answered read it: a load
that happens before a write reads an earlier one (13 R283). Other groups' stores of the line come home first, and with a load at die
scope or wider its own too; that load refreshes the line in L1. -/
def captureLoads (d : Device) (gid : Gid) (core op line : Nat) : Device :=
  match d.group gid with
  | none => d
  | some g =>
    let late := g.core.pend.flatMap (fun p => p.loads.filterMap (fun l => if p.overtaken op line l then some (p.narrow, l.va) else none))
    let wide := late.filter (fun x => !x.1)
    let d := drainLine d core line (if wide.isEmpty then some gid else none)
    let d := (wide.map (fun x => x.2)).foldl (fun d va => l1Refresh d core (d.partOf gid) va line) d
    d.modGroup gid (fun g =>
      let up (c : GCore) : GCore :=
        { c with pend := c.pend.map (fun p => { p with loads := p.loads.map (captureLoad d gid g op line p) }) }
      { g with core := up g.core, ck := up g.ck })

-- acquires and fences

/-- Whether a load has still to read. -/
def Pending.unread (p : Pending) : Bool := !p.lines.isEmpty || !p.scr.isEmpty

/-- Whether the loads of a group before an operation have read; those of a group that has ended never will. -/
def Group.loadsRead (g : Group) (op : Nat) : Bool :=
  g.retired || g.halted || g.core.pend.all (fun p => !p.unread || decide (op ≤ p.op))

/-- The earliest acquire of a group that has not received its data, or acquire FENCE that waits for some: it orders every later access
after itself (13 R276, R286; 14 R306). -/
def Group.acquireOp (g : Group) : Option Nat :=
  if g.retired || g.halted then none
  else
    ((g.core.pend ++ g.ck.pend).filterMap (fun p => if p.acq && p.unread then some p.op else none) ++
      (g.core.fences ++ g.ck.fences).filterMap (fun f => if f.acq then some f.op else none)).min?

/-- Whether an operation comes after an acquire that has not received its data. -/
def Group.behindAcquire (g : Group) (op : Nat) : Bool := match g.acquireOp with | some a => decide (a < op) | none => false

/-- Whether a release FENCE before an operation waits for its condition. -/
def Group.behindRelease (g : Group) (op : Nat) : Bool := (g.core.fences ++ g.ck.fences).any (fun f => f.rel && decide (f.op < op))

/-- Whether no store of a group that its checkpoints have committed waits to become visible. -/
def Group.storesOut (g : Group) : Bool := g.waiting.isEmpty && g.ck.tiles.all (fun t => t.load)

/-- Every released store of a core is at its home slice. -/
def coreSettled (d : Device) (core : Nat) : Bool :=
  (coreGids d core).all (fun x => match d.group x with | some y => y.flight.isEmpty | none => true)

/-- Whether a release at a scope may complete (13 R280, R286): of the accesses before operation `first`, the group's loads have read,
its committed stores are visible and its TSTs have read their tiles; at die scope and wider every released store of the core is
at its home slice. -/
def releaseReady (d : Device) (gid : Gid) (wide : Bool) (first : Nat) : Bool :=
  match d.group gid with
  | some g =>
    g.loadsRead first && g.waiting.all (fun w => decide (first ≤ w.op)) && g.core.tiles.all (fun t => t.load || decide (first ≤ t.op)) &&
      (!wide || (match d.coreOf gid with | some c => coreSettled d c | none => g.flight.isEmpty))
  | none => true

/-- The L1 side of an acquire at die scope or wider. -/
def acquireL1 (d : Device) (gid : Gid) (wide : Bool) : Device :=
  if wide then
    match d.coreOf gid with
    | some c => l1DropWorld d c (d.partOf gid)
    | none => d
  else d

/-- Whether a FENCE's condition holds (14 R306). -/
def fenceReady (d : Device) (gid : Gid) (f : FenceWait) : Bool :=
  if f.rel then releaseReady d gid f.wide f.op
  else match d.group gid with | some g => g.loadsRead f.op | none => true

/-- A FENCE whose condition holds takes effect. -/
def closeFence (d : Device) (gid : Gid) (f : FenceWait) : Device :=
  if !fenceReady d gid f then d
  else
    let drop (c : GCore) : GCore := { c with fences := c.fences.filter (· != f) }
    acquireL1 (d.modGroup gid (fun g => { g with core := drop g.core, ck := drop g.ck })) gid (f.acq && f.wide)

-- reads of the scratchpad (14 R302)

/-- A scratchpad word of a range that is poisoned and not covered by the group's own stores (22 R425). -/
def scratchBad (d : Device) (g : Group) (t : Team) (op addr size : Nat) : Bool :=
  (List.range size).any (fun i => scratchPoisoned d t (addr + i) && (g.ownBefore op false false (addr + i)).isNone)

/-- A candidate event of the injector's POOL target: a double error poisons the word read. -/
def poolRead (d : Device) (part die : Nat) (t : Team) (addr : Nat) : Device :=
  match inject d part 1 with
  | (none, d) => d
  | (some false, d) => plantFault d (.corrected die)
  | (some true, d) =>
    match t.place, scratchTranslate t addr false false with
    | some p, .ok fb => plantFault d (.word p.1 p.2 (fb / 8))
    | _, _ => d

/-- A lane's scratchpad bytes as its group sees them at an operation. -/
def scratchSeen (d : Device) (g : Group) (t : Team) (op addr size : Nat) : Nat :=
  bytesNat ((List.range size).map (fun i =>
    match g.ownBefore op false false (addr + i) with
    | some b => b
    | none => (scratchBytes d t (addr + i) 1).headD 0))

/-- A result takes its values; for a uniform destination those of the lowest active lane (14 R299). -/
def Pending.takeVals (p : Pending) (vals : Tbl (List Word)) : Pending :=
  let vs : Tbl (List Word) :=
    if p.uni then (match vals.find? (fun v => v.1 == p.lead) with | some v => [(0, v.2)] | none => []) else vals
  { p with vals := vs, scr := [], arrived := vs.isEmpty }

/-- An LD.S reads: its result, and the first lane and address that find a poisoned word. -/
def Pending.readScratch (p : Pending) (d : Device) (g : Group) (t : Team) : Pending × Option (Nat × Nat) :=
  let size := msBytes p.msize
  (p.takeVals ((p.scr.filter (fun a => !scratchBad d g t p.op a.2 size)).map (fun a =>
    (a.1, loadValue p.msize (scratchSeen d g t p.op a.2 size)))), p.scr.find? (fun a => scratchBad d g t p.op a.2 size))

/-- An LD.S that an acquire kept back reads, once the acquire has its data. -/
def lateRead (d : Device) (gid : Gid) (op : Nat) : Device :=
  match d.group gid, d.coreOf gid with
  | some g, some core =>
    match g.core.pend.find? (fun p => p.op == op), g.kind with
    | some p, .user team =>
      match p.scr, d.team team with
      | a :: _, some t =>
        if g.behindAcquire op then d
        else
          let d := poolRead d (d.partOf gid) (dieOf core) t a.2
          let (q, bad) := p.readScratch d g t
          let d := d.modGroup gid (fun g => fillPending g op (fun x => { x with vals := q.vals, scr := [], arrived := q.arrived }))
          match bad with
          | some (lane, addr) =>
            deferTrap d gid
              { cause := 0xC1, code := 0, lane := some lane, addr, slot := 3, write := false, bpc := p.bpc, slotB := p.slotB, defer := true }
          | none => d
      | _, _ => d
    | _, _ => d
  | _, _ => d

/-- FENCEs whose condition holds take effect. -/
def closeFences (d : Device) (gid : Gid) : Device :=
  match d.group gid with
  | none => d
  | some g => g.core.fences.foldl (fun d f => closeFence d gid f) d

/-- FENCEs whose condition holds take effect, and the scratchpad reads that no acquire keeps back any more are made. -/
def settleFences (d : Device) (gid : Gid) : Device :=
  match d.group gid with
  | none => d
  | some g =>
    let d := closeFences d gid
    ((g.core.pend.filter (fun p => !p.scr.isEmpty)).map (fun p => p.op)).foldl (fun d op => lateRead d gid op) d

-- the hamper's release

/-- Whether a committed store waits: for an earlier acquire or release FENCE, or for a migrating segment (11 R254). -/
def storeWaits (d : Device) (gid : Gid) (g : Group) (w : ByteWrite) : Bool :=
  g.behindAcquire w.op || g.behindRelease w.op ||
    (w.glob && translate d (d.partOf gid) (dieOf ((d.coreOf gid).getD g.flightCore)) w.addr
      { read := false, write := true, exec := false } true == .waits)

/-- A released global byte updates L1, after the group's earlier loads of its line have read. -/
def releaseByte (d : Device) (gid : Gid) (core : Nat) (w : ByteWrite) : Device :=
  l1SetByte (captureLoads d gid core w.op (lineOf w.pa)) core (d.partOf gid) w.addr w.val

/-- Committed stores that wait for nothing become visible: scratchpad bytes drain into their frames; global bytes update L1 and set
out for the home slice (11 R255). -/
def settleStores (d : Device) (gid : Gid) : Device :=
  let d := settleFences d gid
  match d.group gid with
  | none => d
  | some g =>
    let go := g.waiting.filter (fun w => !storeWaits d gid g w)
    let stay := g.waiting.filter (fun w => storeWaits d gid g w)
    let scr := go.filter (fun w => !w.glob)
    let glo := go.filter (fun w => w.glob)
    let d := match g.kind with
      | .user t => if scr.isEmpty then d else wakeHeld (scr.foldl (fun d w => drainScratch d t scr w) d) t
      | .firmware _ _ => d
    let d := match d.coreOf gid with
      | some c => glo.foldl (fun d (w : ByteWrite) => releaseByte d gid c w) d
      | none => d
    d.modGroup gid (fun g =>
      { g with waiting := stay, flight := g.flight ++ glo, flightCore := if glo.isEmpty then g.flightCore else (d.coreOf gid).getD g.flightCore })

/-- The hamper releases its entries (01 R27). -/
def releaseHamper (d : Device) (gid : Gid) : Device :=
  settleStores (d.modGroup gid (fun g => { g with waiting := g.waiting ++ g.hamper, hamper := [] })) gid

/-- A push commits: its bytes are written and TAIL advances (16 R324). None while a page of the tile must be waited for; its pages
have been pinned since the push (12 R272). -/
def commitPush (d : Device) (team : Nat) (p : RingPush) : Option Device :=
  match (d.team team).bind (fun t => (t.ring p.ring).conf) with
  | some c =>
    (bringRange d team (c.tileAddr p.pos) c.bytes true).map (fun d =>
      (writeScratch d team (c.tileAddr p.pos) p.data).modTeam team (fun t =>
        t.setRing p.ring { t.ring p.ring with tail := p.pos + 1, pushOwner := none }))
  | none => some d

/-- Pushes commit in their order; the answer lists those that wait. -/
def commitPushes (team : Nat) : Device → List RingPush → Device × List RingPush
  | d, [] => (d, [])
  | d, p :: rest =>
    match commitPush d team p with
    | some d => commitPushes team d rest
    | none => (d, p :: rest)

/-- The pushes and pops of a span commit at its checkpoint (12 R272, 16 R324). -/
def commitRings (d : Device) (gid : Gid) : Device :=
  match d.group gid with
  | none => d
  | some g =>
    match g.kind with
    | .firmware _ _ => d
    | .user t =>
      let (d, left) := commitPushes t d g.core.pushes
      let d := g.core.pops.foldl
        (fun d p => d.modTeam t (fun tm => tm.setRing p.1 { (tm.ring p.1).popped p.2 with popOwner := none })) d
      let d := if g.core.pushes.isEmpty then d else wakeHeld d t
      d.modGroup gid (fun g => { g with core := { g.core with pushes := left, pops := [] } })

-- checkpoints

/-- Rounds whose outcome no group can land again are forgotten (18 R378); their holds have gone with the last landing (R381). -/
def cleanRounds (d : Device) (part : Nat) : Device :=
  if (d.part part).pops.isEmpty then d
  else
    (settleHolds d part).modPart part (fun p =>
      { p with pops := p.pops.map (fun (desc, x) =>
          (desc, { x with rounds := x.rounds.filter (fun r =>
            r.2.outcome.isNone || !roundLanded d r.2 || d.groups.any (fun g =>
              !g.2.retired && (g.2.core.pend ++ g.2.ck.pend).any (fun e =>
                match e.dst with | .rsmp _ ds n => ds == desc && n == r.1 | _ => false))) })) })

/-- Whether a checkpoint may pass: every access of the span has passed its issue checks (14 R300). -/
def Group.mayCheckpoint (g : Group) : Bool := g.checks.isEmpty

/-- The group passes a checkpoint (01 R27): the hamper and the span's ring operations go out, and the state is kept. -/
def checkpoint (d : Device) (gid : Gid) : Device :=
  let d := commitRings (releaseHamper d gid) gid
  let d := d.modGroup gid (fun g => { g with ck := g.core, spanV := [], spanLen := 0 })
  cleanRounds d (d.partOf gid)

/-- The lines a group's released stores still have to reach. -/
def Group.flightLines (g : Group) : List Nat := (g.flight.map (fun w => lineOf w.pa)).eraseDups

end Sys2Proof.Machine
end

