-- ==== Sys2Proof/Machine/Operands.lean ====
section
/-!
DEFINITION. Guards and active lanes (01 R17), operand selectors at their widths (02 R35, R36, 05 R135, 06 R157) and absent literals
(02 R57).
-/
namespace Sys2Proof.Machine

/-- The value of a predicate in a lane; none reads as 1, the guard's "always". -/
def GCore.predAt (c : GCore) (r : PredRef) (lane : Nat) : Bool :=
  match r with
  | .p n => (c.pAt n.toNat).getLsbD lane
  | .q n => c.qAt n.toNat
  | .none => true

/-- A guard in a lane. -/
def Guard.holds (g : Guard) (c : GCore) (lane : Nat) : Bool := c.predAt g.sel lane != g.neg

/-- The active lanes of a V or M operation on a path (01 R17). -/
def activeLanes (c : GCore) (path : LaneMask) (g : Guard) : LaneMask :=
  maskOf (fun l => path.getLsbD l && Guard.holds g c l)

/-- A short constant is its code less 64 (02 R35). -/
def constValue (c : BitVec 7) : Int := (c.toNat : Int) - 64

/-- An operand as `words` 32-bit words of one lane: literals, constants and zero are sign-extended, the lane index is
zero-extended (02 R36). -/
def readOperand (c : GCore) (lits : List Word) (o : Operand) (lane words : Nat) : Nat :=
  match o with
  | .v n => wordsNat (c.vWords n.toNat lane words)
  | .s n => wordsNat (c.sWords n.toNat words)
  | .k0 => wrapNat (sextNat (lits.getD 0 0).toNat 32) (32 * words)
  | .k1 => wrapNat (sextNat (lits.getD 1 0).toNat 32) (32 * words)
  | .zero => 0
  | .lane => lane
  | .const k => wrapNat (constValue k) (32 * words)

/-- The low w bits of a value in each element of 32 bits. -/
def splat (w x : Nat) : Nat := mapElems w (fun _ _ _ => x) 0 0 0 (32 / w)

/-- How an operand is read: by width, or as the elements of a type. -/
inductive Rd where
  | none
  | words (n : Nat)
  | elems (t : VType)
  deriving DecidableEq, Repr

/-- Whether a literal supplies its low bits to every element (05 R135) and not its elements as they stand (06 R157). -/
def splatsLiteral (t : VType) : Bool := t.isPacked

/-- An operand read as its use says. -/
def readAs (c : GCore) (lits : List Word) (o : Operand) (lane : Nat) (r : Rd) : Nat :=
  match r with
  | .none => 0
  | .words n => readOperand c lits o lane n
  | .elems t =>
    let w := elemBits t
    if 32 ≤ w then readOperand c lits o lane t.words
    else
      match o with
      | .v _ | .s _ => readOperand c lits o lane 1
      | .k0 | .k1 => if splatsLiteral t then splat w (readOperand c lits o lane 1) else readOperand c lits o lane 1
      | _ => splat w (readOperand c lits o lane 1)

/-- Whether an operand names a literal the bundle does not carry (02 R57). -/
def litMissing (lits : List Word) (o : Operand) : Bool :=
  match o with
  | .k0 => decide (lits.length < 1)
  | .k1 => decide (lits.length < 2)
  | _ => false

end Sys2Proof.Machine
end

