-- ==== Sys2Proof/Machine/Slots.lean ====
section
/-!
DEFINITION. How a slot operation works on an open bundle: it reads the registers as they stood at the bundle's start (01 R15) and
works on the device directly; a trap or a wait returns the device to the bundle's start (01 R29), but for the injector (22 R430).
-/
namespace Sys2Proof.Machine

/-- What a slot operation works on. -/
structure Work where
  dev : Device
  b : OpenBundle
  deriving DecidableEq, Repr

/-- A cause found by a slot operation, with what its record names. -/
structure Cause where
  cause : Nat
  code : Nat
  lane : Option Nat
  addr : Nat
  write : Bool
  deriving DecidableEq, Repr

def causeOf (c : Nat) : Cause := { cause := c, code := 0, lane := none, addr := 0, write := false }
def causeAt (c addr : Nat) (write : Bool) : Cause := { cause := c, code := 0, lane := none, addr, write }
def laneCause (c lane addr : Nat) (write : Bool) : Cause := { cause := c, code := 0, lane := some lane, addr, write }

/-- What a slot operation comes to: its effect, a trap, or a wait (nothing happens and the bundle is issued again). -/
inductive SlotRes where
  | ok (w : Work)
  | trap (c : Cause)
  | wait (held : Option (Nat × Bool))
  deriving DecidableEq, Repr

def Work.group (w : Work) : Group :=
  (w.dev.group w.b.gid).getD (Group.start (.firmware 0 0) 0 false 0 0 w.b.regs)

def Work.mod (w : Work) (f : Group → Group) : Work := { w with dev := w.dev.modGroup w.b.gid f }
def Work.modCore (w : Work) (f : GCore → GCore) : Work := w.mod (fun g => { g with core := f g.core })
def Work.inHandler (w : Work) : Bool := w.b.regs.handler.isSome

/-- The partition and core of the open bundle's group. -/
def Work.part (w : Work) : Nat := w.dev.partOf w.b.gid
def Work.coreNo (w : Work) : Nat := (w.dev.coreOf w.b.gid).getD 0
def Work.die (w : Work) : Nat := dieOf w.coreNo

def OpenBundle.trap (b : OpenBundle) (slot : Nat) (c : Cause) : TrapInfo :=
  { cause := c.cause, code := c.code, lane := c.lane, addr := c.addr, slot, write := c.write, bpc := b.pc,
    slotB := b.slotB, defer := false }

/-- The device without the open bundle. -/
def OpenBundle.undo (b : OpenBundle) (d : Device) : Device := undoTo b.start d (d.partOf b.gid)

/-- A wait: the group stands as at the bundle's start; a WAITB holds its slot back until the awaited phase completes
(log entry 30, DEDUCED). -/
def holdBack (b : OpenBundle) (d : Device) (held : Option (Nat × Bool)) : Device :=
  if held.isSome then
    (b.undo d).modGroup b.gid (fun g =>
      let s := g.core.slot b.slotB
      { g with core := (g.core.setSlot b.slotB { s with held }) })
  else b.undo d

/-- The use time of the entries that a bundle issued in cycle t indexed (02 R65). -/
def touchEntries (d : Device) (core bank quad t : Nat) (idx : List (SlotClass × Nat)) : Device :=
  idx.foldl
    (fun d x => d.modCore core (fun c =>
      match tget c.tabs (tabKey bank quad x.1) with
      | some tab =>
        { c with tabs := tput c.tabs (tabKey bank quad x.1)
                   { tab with entries := tab.entries.map (fun (k, e) => (k, if e.index = x.2 then { e with used := t } else e)) } }
      | none => c))
    d

/-- A firmware context's bundle spends a credit (09 R231). -/
def spendCredit (d : Device) (key t : Nat) : Device :=
  d.modCore (key / 4) (fun c =>
    let q := c.seq (key % 4)
    c.setSeq (key % 4) { q with credits := q.credits - 1, lastIssue := some t })

/-- What the issue of a bundle does: its weight is charged to its cycle (01 R30, 09 R233), the interval to the next one begins (01 R19),
a firmware context spends a credit, the group's pins go (02 R64), and the entries it indexed have been used (02 R65). A bundle that
waits has not issued, nor has one that traps at the decode stage (log entry 38, DESIGN CHOICE). -/
def issueBundle (d : Device) (b : OpenBundle) : Device :=
  let d := match d.coreOf b.gid with
    | some core => d.modCore core (fun c => { c with weights := c.weights ++ [(b.cycle, b.ew)] })
    | none => d
  match b.gid with
  | .fw key => spendCredit d key b.cycle
  | .user id =>
    let d := d.modGroup b.gid (fun g => { g with lastIssue := some b.cycle })
    match d.group b.gid, d.teamOf b.gid with
    | some g, some (_, t) =>
      match t.place with
      | some (core, bank) => touchEntries (dropPins d id) core bank g.quad b.cycle b.idx
      | none => d
    | _, _ => d

/-- Runs a slot operation: `slot` is its number in the order C, V0, V1, M, E (log entry 10, DEDUCED). -/
def runSlot (slot : Nat) (s : State) (f : Work → SlotRes) : Host.Outcome State Fault Refusal :=
  match s.opn with
  | none => .fault .noBundle
  | some b =>
    match f { dev := s.dev, b } with
    | .ok w => .next { s with dev := w.dev, opn := some w.b }
    | .trap c => .next { s with dev := takeTrap (issueBundle (b.undo s.dev) b) b.gid (b.trap slot c), opn := none }
    | .wait held => .next { s with dev := holdBack b s.dev held, opn := none }

-- registers written in a span (01 R28, 20 R393)

/-- Counts the v registers n to n + k - 1 as written in the span; none when that makes more than 48. -/
def Work.noteSpan (w : Work) (n k : Nat) : Option Work :=
  let s := addSpan w.group.spanV ((List.range k).map (n + ·))
  if 48 < s.length then none else some (w.mod (fun g => { g with spanV := s }))

/-- A fresh operation number, in issue order (01 R26). -/
def Work.nextOp (w : Work) : Nat × Work := (w.group.nextOp, w.mod (fun g => { g with nextOp := g.nextOp + 1 }))

/-- The open bundle makes an access of alias class 0, or an operation that acts as one (13 R276). -/
def Work.noteZero (w : Work) : Work := w.modCore (fun c => { c with zeroOp := w.group.nextOp })

/-- The number of the bundle's first operation: earlier ones belong to bundles before it. -/
def Work.firstOp (w : Work) : Nat := match w.b.start.group w.b.gid with | some g => g.nextOp | none => 0

/-- An empty pending result of the open bundle. -/
def Work.pending (w : Work) (op look : Nat) (act : LaneMask) (dst : PendDst) (uni : Bool) : Pending :=
  { op, uni, lead := (firstLane act).getD 0, lanes := if uni then w.b.lanes else act, rem := look + 1, dst, vals := [],
    pd := .none, pc2 := .none, prim := 0, arrived := true, loads := [], lines := [], msize := .b32, scope := .grp,
    cpol := .normal, cls := 0, acq := false, after := 0, scr := [], bad := none, cut := [], pages := [], bpc := w.b.pc, slotB := w.b.slotB }

def Work.addPending (w : Work) (p : Pending) : Work := w.modCore (fun c => { c with pend := c.pend ++ [p] })

/-- A number as k 32-bit words. -/
def wordsOf (k x : Nat) : List Word := natWords k x

end Sys2Proof.Machine
end

