-- ==== Sys2Proof/Machine/Flags.lean ====
section
/-!
DEFINITION. The results of a vector operation: the primary predicate and its complement (05 R136, 06 R158), the destination
register (02 R37, R38), at once for class S and by lookahead for class T (01 R20, R23).
-/
namespace Sys2Proof.Machine

/-- Writes a predicate result: per lane, or from the lowest active lane (02 R38). The complement goes to PC2. -/
def writePred (c : GCore) (r : PredRef) (act prim : LaneMask) (compl : Bool) : GCore :=
  c.landPred r act prim ((firstLane act).getD 0) compl

/-- The values of a result, by lane. -/
def valsOf (act : LaneMask) (k : Nat) (f : Nat → Nat) : Tbl (List Word) :=
  (lanesOf act).map (fun l => (l, wordsOf k (f l)))

/-- The mask of the active lanes whose primary predicate is 1. -/
def primOf (act : LaneMask) (f : Nat → Bool) : LaneMask := maskOf (fun l => act.getLsbD l && f l)

/-- Writes a destination register at once. -/
def writeDst (c : GCore) (dst : Dst) (k : Nat) (act : LaneMask) (f : Nat → Nat) : GCore :=
  match dst with
  | .v n => (lanesOf act).foldl (fun c l => c.setVWords n.toNat l (wordsOf k (f l))) c
  | .s n =>
    match firstLane act with
    | some l => c.setSWords n.toNat (wordsOf k (f l))
    | none => c
  | .null => c

/-- All results of a class S operation: DST, then PD, then PC2, so that the complement stands (01 R16). -/
def writeShort (c : GCore) (dst : Dst) (k : Nat) (pd pc2 : PredRef) (act : LaneMask) (val : Nat → Nat)
    (prim : Nat → Bool) : GCore :=
  let c := writeDst c dst k act val
  let m := primOf act prim
  writePred (writePred c pd act m false) pc2 act m true

/-- The v registers a destination occupies. -/
def Dst.vSpan (d : Dst) (k : Nat) : Nat × Nat :=
  match d with
  | .v n => (n.toNat, k)
  | _ => (0, 0)

/-- A class S result on the open bundle; cause 0x0D when the span writes too many registers. -/
def shortResult (w : Work) (dst : Dst) (k : Nat) (pd pc2 : PredRef) (act : LaneMask) (val : Nat → Nat)
    (prim : Nat → Bool) : SlotRes :=
  match w.noteSpan (Dst.vSpan dst k).1 (Dst.vSpan dst k).2 with
  | none => .trap (causeOf 0x0D)
  | some w => .ok (w.modCore (fun c => writeShort c dst k pd pc2 act val prim))

def predIsQ : PredRef → Bool
  | .q _ => true
  | _ => false

/-- The pending entries of a result that lands by lookahead: one for the lanes, one for the uniform destinations. -/
def lateEntries (w : Work) (op look : Nat) (dst : Dst) (k : Nat) (pd pc2 : PredRef) (act : LaneMask) (val : Nat → Nat)
    (prim : Nat → Bool) : List Pending :=
  let m := primOf act prim
  let lane (r : PredRef) : PredRef := if predIsQ r then .none else r
  let uni (r : PredRef) : PredRef := if predIsQ r then r else .none
  let first := (firstLane act).getD 0
  let base (d : PendDst) (u : Bool) : Pending := { w.pending op look act d u with prim := m }
  let perLane : List Pending :=
    match dst with
    | .v n => [{ base (.v n.toNat k) false with vals := valsOf act k val, pd := lane pd, pc2 := lane pc2 }]
    | _ =>
      if lane pd = .none ∧ lane pc2 = .none then []
      else [{ base .none false with pd := lane pd, pc2 := lane pc2 }]
  let group : List Pending :=
    match dst with
    | .s n =>
      [{ base (.s n.toNat k) true with vals := [(0, wordsOf k (val first))], pd := uni pd, pc2 := uni pc2 }]
    | _ =>
      if uni pd = .none ∧ uni pc2 = .none then []
      else [{ base .none true with pd := uni pd, pc2 := uni pc2 }]
  perLane ++ group

/-- A result that lands by lookahead, with its data at hand. -/
def lateResult (w : Work) (look : Nat) (dst : Dst) (k : Nat) (pd pc2 : PredRef) (act : LaneMask) (val : Nat → Nat)
    (prim : Nat → Bool) : SlotRes :=
  let (op, w) := w.nextOp
  .ok ((lateEntries w op look dst k pd pc2 act val prim).foldl Work.addPending w)

/-- A V operation with its active lanes: nothing happens without one (01 R18); an absent literal is cause 0x07 (02 R57), before any
other cause of the slot (log entry 32, DESIGN CHOICE). -/
def vecSlot (o : VOp) (s : State) (f : Work → LaneMask → SlotRes) : Host.Outcome State Fault Refusal :=
  runSlot (if o.slot = .v0 then 1 else 2) s (fun w =>
    let act := activeLanes w.b.regs w.b.lanes o.guard
    if act = 0 then .ok w
    else if litMissing w.b.lits o.sa || litMissing w.b.lits o.sb || litMissing w.b.lits o.sc then .trap (causeOf 0x07)
    else f w act)

/-- The predicate that IMM8[4:0] names. -/
def immPredOf (o : VOp) : PredRef :=
  let n := o.imm8.toNat % 32
  if n < 16 then .p (BitVec.ofNat 4 n) else if n < 24 then .q (BitVec.ofNat 3 n) else .none

/-- The operands of a lane at the bundle's start. -/
def laneIn (b : OpenBundle) (o : VOp) (ra rb rc : Rd) (lane : Nat) : LaneIn :=
  { a := readAs b.regs b.lits o.sa lane ra, b := readAs b.regs b.lits o.sb lane rb,
    c := readAs b.regs b.lits o.sc lane rc, p := b.regs.predAt (immPredOf o) lane }

/-- A class S operation that works lane by lane. -/
def laneSlot (o : VOp) (ra rb rc : Rd) (f : OpenBundle → LaneIn → LaneOut) (s : State) :
    Host.Outcome State Fault Refusal :=
  vecSlot o s (fun w act =>
    let out := fun l => f w.b (laneIn w.b o ra rb rc l)
    shortResult w o.dst o.type.words o.pd o.pc2 act (fun l => (out l).val) (fun l => (out l).prim))

/-- A class T operation that works lane by lane: LOOK holds its lookahead (01 R22). -/
def laneLate (o : VOp) (ra rb rc : Rd) (f : OpenBundle → LaneIn → LaneOut) (s : State) :
    Host.Outcome State Fault Refusal :=
  vecSlot o s (fun w act =>
    let out := fun l => f w.b (laneIn w.b o ra rb rc l)
    lateResult w o.look.toNat o.dst o.type.words o.pd o.pc2 act (fun l => (out l).val) (fun l => (out l).prim))

end Sys2Proof.Machine
end

