-- ==== Sys2Proof/Machine/Power.lean ====
section
/-!
DEFINITION. Voltage and frequency levels, the heat map and the gating of dies (24 R437 to R441). All of it is timing only.
-/
namespace Sys2Proof.Machine

/-- The die power register (24 R439); LEVEL is the lower of the old and new levels during a change (R438). -/
def diePower (d : Device) (die : Nat) : Word :=
  let x := d.die die
  let level := match x.changing with | some n => Nat.min n x.level | none => x.level
  BitVec.ofNat 32
    (level * 2 ^ 24 + x.target * 2 ^ 20 + dieGrant d die * 2 ^ 16 + dieRequest d die * 2 ^ 12 + dieCap d die * 2 ^ 8 +
      x.limit.toNat * 2 ^ 7 + x.gated.toNat * 2 ^ 6)

/-- A step of the machine that changes only the device. -/
def devStep (s : State) (f : Device → Device) : Host.Outcome State Fault Refusal := .next { s with dev := f s.dev }

/-- The number of a virtual function. -/
def isFunction (part : Nat) : Bool := decide (1 ≤ part) && decide (part ≤ 16)

/-- A step of the host: a module that is held in reset shows it no function (24 R444). -/
def hostStep (s : State) (f : Device → Device) : Host.Outcome State Fault Refusal := devStep s (fun d => if d.bringUp < 4 then d else f d)

/-- A write of a function is answered with an Unsupported Request completion (26 R465, R469). -/
def Part.refuse (p : Part) : Part := { p with unsupported := p.unsupported + 1 }

/-- An MMIO write of a function: while a turnover runs it is dropped (26 R469). -/
def mmioWrite (d : Device) (part : Nat) (f : Device → Device) : Device :=
  if (d.part part).state = 4 then d.modPart part Part.refuse else f d

/-- The power manager sets the budgets of a die's cores, 16 to 3840, to values of its own (09 R233); a budget applies from the next
cycle (log entry 4, DESIGN CHOICE). -/
def grantBudgets (d : Device) (die : Nat) : Device :=
  { d with cores := d.cores.zipIdx.map (fun x =>
             if dieOf x.1.1 = die then (x.1.1, { x.1.2 with budget := 16 + Config.coreBudget (d.drawn + x.2) % 3825 }) else x.1)
           drawn := d.drawn + d.cores.length }

/-- CURRENT_LIMIT_EXCEEDED (24 R438): the target falls one level. -/
def execCurrentLimitExceeded (die : Nat) (s : State) : Host.Outcome State Fault Refusal :=
  devStep s (fun d =>
    grantBudgets ((retarget d die).modDie die (fun x => ({ x with target := x.target - 1, limit := true }).move)) die)

/-- CURRENT_BELOW_LIMIT (24 R438): the target rises one level toward the grant. -/
def execCurrentBelowLimit (die : Nat) (s : State) : Host.Outcome State Fault Refusal :=
  devStep s (fun d =>
    let g := dieGrant d die
    grantBudgets ((retarget d die).modDie die (fun x =>
      let t := if x.target < g then x.target + 1 else x.target
      ({ x with target := t, limit := x.limit && decide (t < g) }).move)) die)

/-- SLEW_INTERVAL (24 R438): the slew limiter admits a rise of one level. -/
def execSlewInterval (die : Nat) (s : State) : Host.Outcome State Fault Refusal :=
  devStep s (fun d => (retarget d die).modDie die (fun x =>
    if x.changing.isNone && decide (x.level < x.target) then { x with changing := some (x.level + 1) } else x))

/-- LEVEL_CHANGE_DONE (24 R438). -/
def execLevelChangeDone (die : Nat) (s : State) : Host.Outcome State Fault Refusal :=
  devStep s (fun d =>
    let d := (retarget d die).modDie die (fun x =>
      match x.changing with
      | some n => ({ x with level := n, changing := none }).move
      | none => x)
    grantBudgets d die)

/-- The heat code of a temperature (24 R441). -/
def heatCode (t : Int) : Nat := (min 15 (max 0 ((t - 40) / 4))).toNat

/-- HEAT_MAP_UPDATE (24 R441): the hottest reading of each zone, 16 zones to a die. -/
def execHeatMapUpdate (temps : List Int) (s : State) : Host.Outcome State Fault Refusal :=
  devStep s (fun d =>
    (List.range 16).foldl
      (fun d die => d.modDie die (fun x =>
        { x with heat := (List.range 16).map (fun z => heatCode (temps.getD (16 * die + z) 0)) }))
      d)

/-- PARTITION_CAP_WRITE (24 R439): a write with a reserved bit is ignored whole. -/
def execPartitionCapWrite (part : Nat) (value : Word) (s : State) : Host.Outcome State Fault Refusal :=
  hostStep s (fun d =>
    if 16 ≤ value.toNat then d
    else
      let d := d.modPart part (fun p => { p with cap := value.toNat })
      (d.part part).dieList.foldl retarget d)

-- gating (24 R440)

/-- The key of a staging byte: die, slice and offset (11 R257). -/
def stageKey (die slice off : Nat) : Nat := (die * 16 + slice) * 2 ^ 24 + off

/-- A die's cores hold no team, so that nothing drains. -/
def dieDrained (d : Device) (die : Nat) : Bool :=
  d.teams.all (fun t => match t.2.place with | some (c, _) => dieOf c != die | none => true)

/-- DIE_GATE (24 R440): a die of no partition, or a drained die of a suspended one; its L2 contents are lost, its replicas with them
(replicaAt). -/
def execDieGate (die : Nat) (s : State) : Host.Outcome State Fault Refusal :=
  devStep s (fun d =>
    let p := d.partOfDie die
    if p != 0 && !((d.part p).susp && dieDrained d die) then d
    else
      let d := d.modDie die (fun x => { x with gated := true })
      let d := d.modMem (fun m =>
        { m with staging := m.staging.filter (fun c => c.1 / 2 ^ 28 != die)
                 stagingForm := m.stagingForm.filter (fun k => 64 * k / 2 ^ 28 != die)
                 stagingPoison := m.stagingPoison.filter (fun k => 64 * k / 2 ^ 28 != die) })
      if p = 0 then d
      else
        d.modPart p (fun x =>
          { x with state := if x.state = 2 && x.dieList.all (fun i => (d.die i).gated) then 3 else x.state }))

/-- DIE_UNGATE (24 R440): the reserved staging ways hold what they held, reloaded from the copies in HBM; the user staging area is
empty. -/
def execDieUngate (die : Nat) (s : State) : Host.Outcome State Fault Refusal :=
  devStep s (fun d => d.modDie die (fun x => { x with gated := false }))

end Sys2Proof.Machine
end

