-- ==== Sys2Proof/Machine/Placement.lean ====
section
/-!
DEFINITION. Placing a team on a core and bank (09 R225), its departure and arrival (12 R274), and save frames (20 R401 to R404).
-/
namespace Sys2Proof.Machine

-- the spine's POOL field (11 R238)

def Spine.regu (s : Spine) : Nat := s.pool % 2 ^ 8
def Spine.spu (s : Spine) : Nat := s.pool / 2 ^ 8 % 2 ^ 8
def Spine.accu (s : Spine) : Nat := s.pool / 2 ^ 16 % 2 ^ 8
def Spine.units (s : Spine) : Nat := s.regu + s.spu + s.accu

/-- The accumulator tiles of each group (11 R240). -/
def Spine.tiles (s : Spine) : Nat := Nat.min 16 (4 * s.accu / s.tgroups)

/-- Whether group i of a team has the producer's role (07 R179). -/
def Spine.producer (s : Spine) (i : Nat) : Bool := decide (i < s.pgroups)

/-- The v and s budgets of a role. -/
def Spine.vbud (s : Spine) (producer : Bool) : Nat := if producer then s.pvbud else s.cvbud
def Spine.sbud (s : Spine) (producer : Bool) : Nat := if producer then s.psbud else s.csbud

/-- The group places of a bank (11 R239). -/
def bankPlaces (prot : Bool) : Nat := if prot then 32 else 64

/-- The register storage of a team in bytes (11 R239). -/
def Spine.storage (s : Spine) (prot : Bool) : Nat :=
  let b := s.pgroups * (128 * s.pvbud + 8 * s.psbud + 8192) + (s.tgroups - s.pgroups) * (128 * s.cvbud + 8 * s.csbud + 8192)
  if prot then 2 * b else b

/-- Whether a team fits a bank (11 R239). -/
def Spine.fits (s : Spine) (prot : Bool) : Bool :=
  decide (s.storage prot ≤ s.regu * 2 ^ 14) && decide (1 ≤ 192 / s.units) && decide (1 ≤ bankPlaces prot / s.tgroups)

-- what stands in a bank

def bankTeams (d : Device) (core bank : Nat) : List (Nat × Team) := d.teams.filter (fun t => t.2.place = some (core, bank))

/-- The groups that hold places of a bank; a place is released when its team retires (07 R196). -/
def bankGroups (d : Device) (core bank : Nat) : List (Nat × Group) :=
  (bankTeams d core bank).flatMap (fun t => t.2.groups.filterMap (fun id => (d.group (.user id)).map (fun g => (id, g))))

def freePlaces (d : Device) (core bank : Nat) : Nat :=
  bankPlaces (d.part (d.partOfDie (dieOf core))).prot - (bankGroups d core bank).length


/-- The number of groups a team has or will have. -/
def teamSize (t : Team) (l : Launch) : Nat :=
  if t.groups.isEmpty then (if t.seed then 1 else l.spine.tgroups) else t.groups.length

/-- The bank of a core that a context occupies (25 R445); a context that runs and holds none yet comes to the front bank, or to the back
bank when another context holds the front one. -/
def bankOf (p : Part) (c : Core) (core stream : Nat) : Option Nat :=
  let holder (b : Nat) : Option Nat := tget p.bankCtx (2 * core + b)
  match [c.frontBank, c.backBank].find? (fun b => holder b == some stream) with
  | some b => some b
  | none => if stream == p.active || stream == 4 then [c.frontBank, c.backBank].find? (fun b => (holder b).isNone) else none

/-- Whether a bank's places are kept for a resident grid, other than a launch, that has not completed: the bank of its context on a
core that it has reserved (07 R198). -/
def reservedBank (d : Device) (but core bank : Nat) : Bool :=
  d.launches.any (fun x => x.1 != but && x.2.rgrid && !x.2.done && x.2.reserved.contains core &&
    bankOf (d.part x.2.part) (d.core core) core x.2.stream == some bank)

/-- How a core's back bank stands: a drain has ended when no team is left in it, whatever took the last one away (21 R414). -/
def drainNow (d : Device) (core : Nat) : Drain :=
  if (bankTeams d core (d.core core).backBank).isEmpty then .idle else (d.core core).drain

/-- The places a bank's groups hold, those of a team about to be seated left out; in protected mode a pair counts as its first
quadrant (09 R225). -/
def takenSeats (d : Device) (core bank : Nat) (ids : List Nat) : List (Nat × Nat × Nat) :=
  (bankGroups d core bank).filterMap (fun g => if ids.contains g.1 then none else some (g.1, g.2.quad, g.2.pos))

/-- Whether a bank's quadrants have room for the groups of a team, each in the quadrant it has for life (07 R180). -/
def quadsFit (d : Device) (core bank : Nat) (t : Team) : Bool :=
  let own := t.groups.filterMap (fun id => (d.group (.user id)).map (fun g => g.quad))
  let taken := (takenSeats d core bank t.groups).map (fun s => s.2.1)
  (List.range 4).all (fun q => (own.filter (· == q)).isEmpty || decide ((own.filter (· == q)).length + (taken.filter (· == q)).length ≤ 16))

/-- Whether a bank may hold teams of a context: it holds no other one, and the context does not hold the core's other bank, since a
context occupies one bank on a core (25 R445). -/
def contextBank (p : Part) (core bank stream : Nat) : Bool :=
  let holder (b : Nat) : Option Nat := tget p.bankCtx (2 * core + b)
  (holder bank == none || holder bank == some stream) && holder (1 - bank) != some stream

/-- Whether a bank takes a team (02 R62, 07 R180, 11 R239): no group of another launch, no other context (25 R445), room for
its units and its groups; not while the bank drains. A resident grid's teams go to the cores it has reserved, and no other team to its
banks there (07 R198) (log entry 21, DESIGN CHOICE). -/
def canTake (d : Device) (team core bank : Nat) : Bool :=
  match d.team team with
  | none => false
  | some t =>
    match d.launch t.launch with
    | none => false
    | some l =>
      let ts := bankTeams d core bank
      let c := d.core core
      decide (core < 2560) && quadsFit d core bank t && !(d.die (dieOf core)).gated && !c.fwFault && (drainNow d core == .idle || bank == c.frontBank) &&
        ts.all (fun x => x.2.launch == t.launch) && contextBank (d.part l.part) core bank l.stream &&
        (!l.rgrid || l.reserved.contains core) && !reservedBank d t.launch core bank &&
        decide ((ts.length + 1) * l.spine.units ≤ 192) && decide (teamSize t l ≤ freePlaces d core bank)

/-- The quadrant for the next group: the one with the fewest groups, ties to the lower number. -/
def pickQuad (counts : List (Nat × Nat)) : Nat :=
  match counts with
  | [] => 0
  | (q, n) :: t => (t.foldl (fun (b : Nat × Nat) x => if x.2 < b.2 then x else b) (q, n)).1

/-- The lowest free position of a quadrant. -/
def freePos (used : List Nat) : Nat := ((List.range 16).find? (fun p => !used.contains p)).getD 0

/-- Gives groups their positions in ascending order, each the youngest of its pair (09 R225, R229); their quadrants too when they are
`new`, since a group keeps its quadrant for life (07 R180). A group that has issued before counts R19's cycles from the last one of
this core. -/
def seatGroups (d : Device) (core bank : Nat) (prot new : Bool) : List Nat → List (Nat × Nat × Nat) → Device
  | [], _ => d
  | id :: rest, seats =>
    let quads := if prot then [0, 2] else [0, 1, 2, 3]
    let used (q : Nat) : List Nat := seats.filterMap (fun s => if s.2.1 = q then some s.2.2 else none)
    let old := match d.group (.user id) with | some g => g.quad | none => 0
    let q := if new then pickQuad (quads.map (fun q => (q, (used q).length))) else old
    let pos := freePos (used q)
    let d := d.modGroup (.user id) (fun g => { g with quad := q, pos, lastIssue := g.lastIssue.map (fun _ => (d.core core).now - 1) })
    let d := d.modCore core (fun c => c.setAge bank (q / 2) (c.age bank (q / 2) ++ [id]))
    seatGroups d core bank prot new rest ((id, q, pos) :: seats)

/-- A group's registers when its team is first placed (07 R194, R195; 08 R217). -/
def startRegs (l : Launch) (t : Team) : GCore :=
  t.inits.foldl (fun c x => c.setS x.1 x.2) (GCore.start t.entry l.spine.fmt allLanes)

/-- The groups of a team that is placed for the first time. -/
def makeGroups (d : Device) (team : Nat) : Nat → Nat → Device
  | 0, _ => d
  | n + 1, i =>
    match d.team team with
    | none => d
    | some t =>
      match d.launch t.launch with
      | none => d
      | some l =>
        let id := d.nextGroup
        let g := Group.start (.user team) i (l.spine.producer i) 0 0 (startRegs l t)
        let d := { d with groups := tput d.groups id g, nextGroup := id + 1 }
        makeGroups (d.setTeam team { t with groups := t.groups ++ [id] }) team n (i + 1)

/-- Empties the decode tables of a bank's quadrants (02 R62). -/
def emptyTables (d : Device) (core bank : Nat) : Device :=
  d.modCore core (fun c => { c with tabs := c.tabs.filter (fun t => t.1 / 20 != bank) })

/-- The launch a bank's tables serve. -/
def tableLaunch (c : Core) (bank : Nat) : Option Nat := (c.tabs.find? (fun t => t.1 / 20 == bank)).map (fun t => t.2.launch)

/-- Pages that a group's hamper names in the scratchpad space. -/
def hamperPages (g : Group) : List Nat :=
  ((g.waiting ++ g.hamper).filterMap (fun w => if w.glob then none else some (w.addr / pageSize))).eraseDups

/-- A team takes its place (09 R225): at its first placement its first 8 × SPU pages are resident (12 R263), its tables are emptied when the bank's quadrants held no group and served another launch,
its groups are seated, the pages its hampers name are brought in before any group issues (12 R274), no stale line stays in the
core's L1 (13 R282, R286), and its save frames return to the list (20 R402). What its groups waited for then happens. -/
def placeTeam (d : Device) (team core bank : Nat) : Device :=
  match d.team team with
  | none => d
  | some t =>
    match d.launch t.launch with
    | none => d
    | some l =>
      let part := d.part l.part
      let d := if (bankGroups d core bank).isEmpty && tableLaunch (d.core core) bank != some t.launch
        then emptyTables d core bank else d
      let d := if (bankTeams d core bank).isEmpty && bank == (d.core core).backBank then
          d.modCore core (fun c => { c with drain := .idle }) else d
      let d := d.setTeam team { t with place := some (core, bank), home := dieOf core, saved := false, starved := false }
      let d := d.modPart l.part (fun p => { p with bankCtx := tput p.bankCtx (2 * core + bank) l.stream })
      let d := if t.groups.isEmpty then makeGroups d team (if t.seed then 1 else l.spine.tgroups) 0 else d
      let d := if t.groups.isEmpty then (List.range (8 * l.spine.spu)).foldl
          (fun d p => (repairPage d team l.spine.spu p false).getD d) d else d
      let ids := match d.team team with | some t => t.groups | none => []
      let d := seatGroups d core bank part.prot t.groups.isEmpty ids (takenSeats d core bank ids)
      let d := ids.foldl
        (fun d id =>
          match d.group (.user id) with
          | some g => (hamperPages g ++ pushPages t g).foldl (fun d p => (repairPage d team l.spine.spu p true).getD d) d
          | none => d)
        d
      ids.foldl landDue (retarget (freeFrames (l1DropWorld d core l.part) l.part team) (dieOf core))

/-- The core and bank of a die with the most free group places that can take the team; ties to the front bank, then to the
lower core (09 R225). -/
def choosePlace (d : Device) (team die : Nat) : Option (Nat × Nat) :=
  let all := (List.range 160).flatMap (fun k =>
    let core := 160 * die + k
    let c := d.core core
    [(core, c.frontBank, 0), (core, c.backBank, 1)])
  let ok := all.filter (fun p => canTake d team p.1 p.2.1)
  let better (a b : Nat × Nat × Nat) : Bool :=
    let fa := freePlaces d a.1 a.2.1
    let fb := freePlaces d b.1 b.2.1
    decide (fb < fa) || (fa == fb && (decide (a.2.2 < b.2.2) || (a.2.2 == b.2.2 && decide (a.1 < b.1))))
  match ok with
  | [] => none
  | p :: t => let b := t.foldl (fun b x => if better x b then x else b) p; some (b.1, b.2.1)

-- departure (12 R274, 20 R401)

/-- Whether a team can leave: every pending result has its data, no store of its core is on its way (13 R282), no push waits for its
checkpoint's page, and its matrix, cipher and ring commands are done (12 R274, 16 R321, 21 R414). -/
def mayDepart (d : Device) (team : Nat) : Bool :=
  match d.team team with
  | none => false
  | some t =>
    match t.place with
    | none => false
    | some (core, _) =>
      let c := d.core core
      t.groups.all (fun id =>
        match d.group (.user id) with
        | some g => g.core.pend.all (fun p => p.arrived || p.isRsmp) && g.checks.isEmpty && g.waiting.isEmpty && g.core.tiles.isEmpty &&
            g.holdWait.isNone
        | none => true) && coreSettled d core &&
        c.mq.all (fun m => m.team != team) && c.ciphers.all (fun k => k.team != team) &&
        c.reqs.all (fun r => r.buf.isEmpty || (match r.kick with | some k => k.team != team | none => true))

/-- The mappings a team has of a frame. -/
def mapsOf (t : Team) (f : Nat) : Nat := (t.residentPages.filter (fun p => (t.page p).frame == f)).length

/-- One page of a departing team: a frame shared with others is written to a shared-out slot, also where the page is clean (log entry 39,
DESIGN CHOICE); else it is paged out. -/
def departPage (d : Device) (team page : Nat) : Device :=
  match d.team team with
  | none => d
  | some t =>
    match t.place with
    | none => d
    | some p =>
      let e := t.page page
      if ((d.core p.1).bank p.2).ref e.frame ≤ mapsOf t e.frame then pageOut d team page
      else
        let (s, d) := newSlot d (dieOf p.1) (framePage d p e.frame)
        let d := if e.bvalid && sharedSlot d e.bslot then dropSlot d e.bslot else d
        let d := writeEntry (refSlot d s 1) team page
          { e with state := .sharedOut, cow := false, dirty := false, bvalid := true, bslot := s, frame := 0 }
        dropFrame d p e.frame

/-- A team leaves its core: pages, frames and places are released; registers, hampers, flasks, rings and the page table go
with it. -/
def departTeam (d : Device) (team : Nat) : Device :=
  match d.team team with
  | none => d
  | some t =>
    match t.place with
    | none => d
    | some (core, bank) =>
      let d := t.residentPages.foldl (fun d p => departPage d team p) d
      let d := t.groups.foldl (fun d id => leaveAges (stopPins d id) id) d
      let d := d.modCore core (fun c => { c with stb := c.stb.filter (fun e => e.1 / 8192 != team) })
      let part := match d.launch t.launch with | some l => l.part | none => 0
      retarget (leaveBank (d.modTeam team (fun t => { t with place := none })) part core bank) (dieOf core)
where
  /-- A descheduled group loses its pins (02 R64). -/
  stopPins (d : Device) (id : Nat) : Device :=
    dropPins (d.modGroup (.user id) (fun g => { g with park := unparkQuire g.park })) id

/-- Fills a save frame with its implementation's layout: free values. -/
def fillSaveFrame (d : Device) (f : Nat) : Device :=
  let n := d.drawn
  { d with drawn := n + 4096,
           mem := { d.mem with hbm := writeBytes d.mem.hbm (f * 4096) ((List.range 4096).map (fun i => Config.frameByte (n + i))) } }

/-- Gathers the save frames a team needs; the answer says whether it has them all. -/
def gatherFrames (d : Device) (part team : Nat) : Nat → Device × Bool
  | 0 => (d, true)
  | n + 1 =>
    match popFrame d part with
    | none => (d, false)
    | some (f, d) => gatherFrames ((fillSaveFrame d f).modTeam team (fun t => { t with frames := t.frames ++ [f] })) part team n

/-- The save frames of a team (20 R402); pages go to backing slots, so P is 0 (log entry 12, DESIGN CHOICE). -/
def framesNeeded (s : Spine) : Nat := 1 + 4 * s.regu + 4 * s.accu

/-- The hypervisor's log entry for a drain that finds no frame (20 R404). -/
def frameTrap (d : Device) (part team : Nat) : Device :=
  match d.team team with
  | none => d
  | some t =>
    let left := match d.launch t.launch with | some l => framesNeeded l.spine - t.frames.length | none => 0
    let info : TrapInfo :=
      { cause := 0xF3, code := 0, lane := none, addr := left, slot := 7, write := false, bpc := 0, slotB := false, defer := false }
    logPlain d 0 { plainEntry 0xF3 left part srcCore t.home none part false with trec := some (trapRecord info part false 0) }

/-- A team is swapped out (20 R401). Each time it finds no frame on the list its drain waits, and the hypervisor is told how many are
missing (R404); asking again while none has been pushed tells nothing new. -/
def swapOut (d : Device) (team : Nat) : Device :=
  match d.team team with
  | none => d
  | some t =>
    match d.launch t.launch, t.place with
    | some l, some (core, _) =>
      if !mayDepart d team then d
      else
        let (d, all) := gatherFrames d l.part team (framesNeeded l.spine - t.frames.length)
        if all then
          let d := (departTeam d team).modTeam team (fun t => { t with saved := true, starved := false })
          if t.starved && !(d.core core).fwFault then resumeTeam d team else d
        else
          let got := match d.team team with | some x => decide (t.frames.length < x.frames.length) | none => false
          let d := d.modTeam team (fun t => { t with starved := true })
          if t.starved && !got then d else frameTrap d l.part team
    | _, _ => d

-- events

/-- Whether every group of a team is stopped or will not issue again: also while its partition is suspended (25 R458). -/
def teamStopped (d : Device) (t : Team) : Bool :=
  (match d.launch t.launch with | some l => (d.part l.part).susp | none => false) ||
    t.groups.all (fun id => match d.group (.user id) with | some g => g.stopped || g.retired | none => true)

/-- TEAM_SWAP_OUT (20 R401): of a stopped team. -/
def execTeamSwapOut (team : Nat) (s : State) : Host.Outcome State Fault Refusal :=
  devStep s (fun d =>
    match d.team team with
    | some t => if teamStopped d t then swapOut d team else d
    | none => d)

/-- TEAM_MIGRATE (12 R274, 13 R282): a release at the old core, whose stores have reached their home slices, and an acquire at
the new one. -/
def execTeamMigrate (team core bank : Nat) (s : State) : Host.Outcome State Fault Refusal :=
  devStep s (fun d =>
    match d.team team with
    | none => d
    | some t =>
      if t.place.isNone || t.retired || t.starved || t.place = some (core, bank) || !mayDepart d team || 2 ≤ bank || !canTake d team core bank then d
      else
        placeTeam (departTeam d team) team core bank)

/-- SAVE_FRAME_PUSH (20 R403). -/
def execSaveFramePush (part : Nat) (value : DWord) (s : State) : Host.Outcome State Fault Refusal :=
  hostStep s (fun d =>
    let f := value.toNat % 2 ^ 40
    if 2 ^ 40 ≤ value.toNat || f = 0 || d.partOfDie (homeDie (f * 4096)) ≠ part then d else pushFrame d part f)

end Sys2Proof.Machine
end

