-- ==== Sys2Proof/Machine/Firmware.lean ====
section
/-!
DEFINITION. Eligibility (09 R227), the context banks (21 R413, R414), the firmware system values (21 R417 to R421) and the system
values of programs (05 R151, R152).
-/
namespace Sys2Proof.Machine

-- eligibility

/-- The slot that 07 R183 names next, among those no WAITB holds. -/
def GCore.nextSlot (c : GCore) : Option Bool :=
  let can (b : Bool) : Bool := (c.slot b).st == .issuing && (c.slot b).held.isNone
  if can c.turnB then some c.turnB else if can (!c.turnB) then some (!c.turnB) else none

/-- Whether a group could issue if its bank were front: none of R227's waits and no stop. -/
def ableToIssue (d : Device) (id : Nat) : Bool :=
  match d.group (.user id), d.teamOf (.user id), d.launchOf (.user id) with
  | some g, some (_, t), some (_, l) =>
    t.place.isSome && !t.starved && !g.retired && !g.halted && !g.stopped && g.park == .none && !g.stackWait && g.holdWait.isNone &&
      (g.waits == .none || g.core.handler.isSome) && !g.waitsData && g.core.nextSlot.isSome && !l.done &&
      contextRuns (d.part l.part) l
  | _, _, _ => false

/-- The groups of a bank that could issue. -/
def ableGroups (d : Device) (core bank : Nat) : List Nat :=
  ((bankGroups d core bank).map (fun g => g.1)).filter (ableToIssue d)

-- bank flips (21 R413)

/-- The banks of a core change places: the outgoing bank's groups are descheduled, and the incoming ones go on with what they waited
for. -/
def flipBank (d : Device) (core : Nat) : Device :=
  let out := (d.core core).frontBank
  let d := (bankGroups d core out).foldl (fun d g => departTeam.stopPins d g.1) d
  let d := d.modCore core (fun c => { c with front := !c.front, flipPend := false, flipAt := c.now, drain := .idle })
  ((bankGroups d core (1 - out)).map (fun g => g.1)).foldl landDue d

/-- A flip waits while the back bank is draining or filling. -/
def requestFlip (d : Device) (core : Nat) : Device :=
  if drainNow d core = .idle then flipBank d core else d.modCore core (fun c => { c with flipPend := true })

/-- The end of a drain or fill: a waiting flip is made. -/
def endDrain (d : Device) (core : Nat) : Device :=
  let d := d.modCore core (fun c => { c with drain := .idle })
  if (d.core core).flipPend then flipBank d core else d

/-- The back bank's teams are swapped out, each when it may leave (21 R414); the drain waits for save frames (20 R404). -/
def drainStep (d : Device) (core : Nat) : Device :=
  let back := (d.core core).backBank
  let d := (bankTeams d core back).foldl (fun d t => swapOut d t.1) d
  let left := bankTeams d core back
  if left.isEmpty then endDrain d core
  else d.modCore core (fun c => { c with drain := if left.any (fun t => t.2.starved) then .waiting else .draining })

/-- A drain request acts on a back bank that holds a team. -/
def requestDrain (d : Device) (core : Nat) : Device :=
  if (bankTeams d core (d.core core).backBank).isEmpty then d else drainStep d core

/-- The saved teams of a context that a die may place again (20 R401). -/
def savedTeams (d : Device) (die stream : Nat) : List Nat :=
  (d.teams.filter (fun t =>
    t.2.saved && t.2.home == die &&
      (match d.launch t.2.launch with | some l => l.stream == stream && !l.done | none => false))).map (fun t => t.1)

/-- Firmware places saved teams of a context into an empty back bank (21 R414). -/
def fillBack (d : Device) (core stream : Nat) : Device :=
  let back := (d.core core).backBank
  if !(bankTeams d core back).isEmpty then d
  else (savedTeams d (dieOf core) stream).foldl (fun d t => if canTake d t core back then placeTeam d t core back else d) d

/-- AUTO_BANK_FLIP (12 R270): no front-bank group can issue and a back-bank group can. -/
def execAutoBankFlip (core : Nat) (s : State) : Host.Outcome State Fault Refusal :=
  devStep s (fun d =>
    let c := d.core core
    if (ableGroups d core c.frontBank).isEmpty && !(ableGroups d core c.backBank).isEmpty then requestFlip d core else d)

/-- BANK_FLIP (21 R413). -/
def execBankFlip (core : Nat) (s : State) : Host.Outcome State Fault Refusal := devStep s (fun d => requestFlip d core)

/-- BANK_DRAIN (21 R414). -/
def execBankDrain (core : Nat) (s : State) : Host.Outcome State Fault Refusal := devStep s (fun d => requestDrain d core)

/-- BANK_FILL (21 R414): with the saved teams of the lowest context that has some on the die and is not resident in front. -/
def execBankFill (core : Nat) (s : State) : Host.Outcome State Fault Refusal :=
  devStep s (fun d =>
    let front := tget (d.part (d.partOfDie (dieOf core))).bankCtx (2 * core + (d.core core).frontBank)
    let busy := !(bankTeams d core (d.core core).frontBank).isEmpty
    match (List.range 5).find? (fun k => !(busy && front == some k) && !(savedTeams d (dieOf core) k).isEmpty) with
    | some k => fillBack d core k
    | none => d)

-- the selected group (21 R418, R419)

/-- The group that GSEL names on a core, if any: retired groups are none. -/
def selectedGroup (d : Device) (core : Nat) (gsel : Word) : Option (Nat × Group) :=
  let n := gsel.toNat
  let bank := n / 64 % 2
  (bankGroups d core bank).find? (fun g => g.2.quad == n / 16 % 4 && g.2.pos == n % 16 && (!g.2.retired || g.2.halted))

/-- GCTL's STATE (21 R418). -/
def groupState : Option (Nat × Group) → Nat
  | none => 0
  | some (_, g) => if g.trapSet || g.halted then 3 else if g.stopped then 2 else 1

def rselSpace (r : Word) : Nat := r.toNat / 2 ^ 13 % 8
def rselLane (r : Word) : Nat := r.toNat / 2 ^ 8 % 32
def rselNum (r : Word) : Nat := r.toNat % 256

/-- The element RSEL names (21 R419). -/
def readElement (c : GCore) (r : Word) : Word :=
  let n := rselNum r
  let bit (b : Bool) : Word := if b then 1 else 0
  match rselSpace r with
  | 0 => c.vAt n (rselLane r)
  | 1 => c.sAt (n % 64)
  | 2 => bit ((c.pAt (n % 16)).getLsbD (rselLane r))
  | 3 => bit (c.qAt (n % 8))
  | 4 => c.bWord (n / 4 % 32) (n % 4)
  | 5 => (c.xAt (n / 2 % 16)).extractLsb' (32 * (n % 2)) 32
  | 6 => (c.slot (n % 2 == 1)).fmt
  | _ => 0

/-- A format register value that 01 R13 allows. -/
def fmtAllowed (w : Word) : Bool :=
  let n := w.toNat
  decide (n < 2 ^ 16) && decide (n / 2 ^ 14 ≤ 1) && decide (n / 2 ^ 10 % 8 ≤ 4) && decide (n / 2 ^ 8 % 4 ≤ 1) &&
    decide (n / 16 % 16 ≤ 5) && decide (n % 16 ≤ 5)

def writeElement (c : GCore) (r : Word) (w : Word) : GCore :=
  let n := rselNum r
  match rselSpace r with
  | 0 => c.setV n (rselLane r) w
  | 1 => c.setS (n % 64) w
  | 2 => c.setPLane (n % 16) (rselLane r) (w.getLsbD 0)
  | 3 => c.setQ (n % 8) (w.getLsbD 0)
  | 4 => c.setBWord (n / 4 % 32) (n % 4) w
  | 5 =>
    let k := n / 2 % 16
    let x := c.xAt k
    c.setX k (if n % 2 = 0 then x.extractLsb' 32 32 ++ w else w ++ x.extractLsb' 0 32)
  | 6 => if fmtAllowed w then c.setSlot (n % 2 == 1) { c.slot (n % 2 == 1) with fmt := w } else c
  | _ => c

/-- The cuts of an entry that name an element: what the entry would land on it (21 R421). -/
def cutsOn (p : Pending) (r : Word) : List (Nat × Nat) :=
  let n := rselNum r
  let lane := rselLane r
  let word (base k : Nat) (at_ : Nat) : List (Nat × Nat) := if base ≤ n ∧ n < base + k then [(at_, n - base)] else []
  let pred (q : PredRef) : List (Nat × Nat) :=
    (if p.pd = q then [(if p.uni then 0 else lane, cutPd)] else []) ++
      (if p.pc2 = q then [(if p.uni then 0 else lane, cutPc)] else [])
  match rselSpace r with
  | 0 =>
    if p.lanes.getLsbD lane then
      match p.dst with
      | .v b k => word b k lane
      | .rsmp (.v b) _ _ => word b.toNat 1 lane
      | _ => []
    else []
  | 1 => match p.dst with | .s b k => word b k 0 | _ => []
  | 2 => if p.lanes.getLsbD lane then pred (.p (BitVec.ofNat 4 n)) else []
  | 3 => pred (.q (BitVec.ofNat 3 n))
  | 4 => match p.dst with | .rcd b => if b = n / 4 % 32 then [(0, n % 4)] else [] | _ => []
  | _ => []

/-- Whether a result lands on the copy of the element that stands now: inside a handler s56 to s63 and q4 to q6 are the handler's, and
the held slots' results wait for the main copies (16 R333). -/
def landsHere (c : GCore) (p : Pending) (r : Word) : Bool :=
  let n := rselNum r
  let shadowed := (rselSpace r == 1 && decide (56 ≤ n % 64)) || (rselSpace r == 3 && decide (4 ≤ n % 8) && decide (n % 8 ≤ 6))
  match c.handler with
  | some h => !shadowed || decide (h.firstOp ≤ p.op)
  | none => true

/-- PEND: whether a flask entry will land on the element (21 R419). -/
def elementPending (c : GCore) (r : Word) : Bool :=
  c.pend.any (fun p => landsHere c p r && (cutsOn p r).any (fun k => !p.cut.contains k))

def cutElement (c : GCore) (r : Word) : GCore :=
  { c with pend := c.pend.map (fun p => if landsHere c p r then { p with cut := p.cut ++ cutsOn p r } else p) }

/-- A debugger's write of RDATA (21 R421). -/
def writeRdata (d : Device) (core quad : Nat) (w : Word) : Device :=
  let q := (d.core core).seq quad
  let sel := selectedGroup d core q.gsel
  if groupState sel < 2 then d
  else
    match sel with
    | none => d
    | some (id, g) =>
      let perLane := rselSpace q.rsel == 0 || rselSpace q.rsel == 2
      if (perLane && !g.core.live.getLsbD (rselLane q.rsel)) || (rselSpace q.rsel == 6 && !fmtAllowed w) then d
      else
        let put (c : GCore) : GCore := writeElement (cutElement c q.rsel) q.rsel w
        d.setGroup (.user id) { g with core := put g.core, ck := put g.ck }

-- GCTL's commands (21 R418)

/-- Command 1: every group of the selected team is pre-empted (21 R409). -/
def gctlStopTeam (d : Device) (core quad : Nat) : Device :=
  match selectedGroup d core ((d.core core).seq quad).gsel with
  | some (_, g) =>
    match g.kind with
    | .user t => stopTeam (d.modTeam t (fun t => { t with heldBy := true })) t
    | .firmware _ _ => d
  | none => d

/-- Command 2: the selected group's record is done with, and the team resumes when no other record waits. -/
def gctlResumeTeam (d : Device) (core quad : Nat) : Device :=
  match selectedGroup d core ((d.core core).seq quad).gsel with
  | some (id, g) =>
    match g.kind with
    | .user t => resumeFromTrap (d.modTeam t (fun t => { t with heldBy := false })) id
    | .firmware _ _ => d
  | none => d

def recordCause (r : BitVec 256) : Nat := natBits r.toNat 224 8
def recordAddr (r : BitVec 256) : Nat := natBits r.toNat 128 64
def recordWrite (r : BitVec 256) : Bool := r.getLsbD 192
def recordBpc (r : BitVec 256) : DWord := BitVec.ofNat 64 (natBits r.toNat 0 57)

/-- Command 3: resumes past the trap, for causes 0x01 and 0xE0 (04 R119). -/
def gctlResumePastTrap (d : Device) (core quad : Nat) : Device :=
  match selectedGroup d core ((d.core core).seq quad).gsel with
  | some (id, g) =>
    if g.trapSet && (recordCause g.trapRec == 0x01 || recordCause g.trapRec == 0xE0) then
      gctlResumeTeam (d.setGroup (.user id) { g with past := some (recordBpc g.trapRec) }) core quad
    else d
  | none => d

/-- Command 4: the selected record is handled as kind L (20 R397). -/
def gctlEndLaunch (d : Device) (core quad : Nat) : Device :=
  match selectedGroup d core ((d.core core).seq quad).gsel with
  | some (id, g) => if g.trapSet && !g.halted then declineTrap d id else d
  | none => d

/-- A core has four sequencers (00 R1). -/
def isSequencer (core quad : Nat) : Bool := decide (core < 2560) && decide (quad < 4)

/-- GCTL_STOP. -/
def execGctlStop (core quad : Nat) (s : State) : Host.Outcome State Fault Refusal :=
  devStep s (fun d => if isSequencer core quad then gctlStopTeam d core quad else d)

/-- GCTL_RESUME. -/
def execGctlResume (core quad : Nat) (s : State) : Host.Outcome State Fault Refusal :=
  devStep s (fun d => if isSequencer core quad then gctlResumeTeam d core quad else d)

/-- GCTL_RESUME_PAST. -/
def execGctlResumePast (core quad : Nat) (s : State) : Host.Outcome State Fault Refusal :=
  devStep s (fun d => if isSequencer core quad then gctlResumePastTrap d core quad else d)

/-- GCTL_HANDLE_KIND_L. -/
def execGctlHandleKindL (core quad : Nat) (s : State) : Host.Outcome State Fault Refusal :=
  devStep s (fun d => if isSequencer core quad then gctlEndLaunch d core quad else d)

/-- RDATA_WRITE. -/
def execRdataWrite (core quad : Nat) (value : Word) (s : State) : Host.Outcome State Fault Refusal :=
  devStep s (fun d => if isSequencer core quad then writeRdata d core quad value else d)

-- the firmware system values (21 R417)

/-- BANK (21 R420). -/
def bankValue (d : Device) (core : Nat) : Nat :=
  let c := d.core core
  let back := bankTeams d core c.backBank
  let now := drainNow d core
  let st := if now != .idle then 3 else if back.isEmpty then 0 else if (ableGroups d core c.backBank).isEmpty then 2 else 1
  let dr := match now with | .idle => 0 | .draining => 1 | .waiting => 2 | .filling => 3
  c.front.toNat * 2 ^ 7 + st * 2 ^ 5 + c.flipPend.toNat * 2 ^ 4 + dr * 2 ^ 2

/-- A firmware system value; none where the selected group is missing. -/
def readFirmware (d : Device) (core quad index : Nat) : Option Nat :=
  let c := d.core core
  let q := c.seq quad
  let sel := selectedGroup d core q.gsel
  match index with
  | 0x40 => some q.share.toNat
  | 0x41 => some c.budget
  | 0x42 => some q.gsel.toNat
  | 0x43 => some (groupState sel * 2 ^ 8)
  | 0x48 => some (q.rsel.toNat + (match sel with | some (_, g) => (elementPending g.core q.rsel).toNat * 2 ^ 31 | none => 0))
  | 0x49 => sel.map (fun g => (readElement g.2.core q.rsel).toNat)
  | 0x4A => some (bankValue d core)
  | n => sel.map (fun g => natBits g.2.trapRec.toNat (64 * (n - 0x44)) 64)

/-- FWSHARE's rule (09 R230). -/
def shareAllowed (w : Word) : Bool :=
  let burst := w.toNat / 2 ^ 8
  decide (1 ≤ burst) && decide (burst ≤ 8) && decide (16 ≤ w.toNat % 2 ^ 8)

/-- A write of a firmware system value or of CYCLE; a write with a reserved field non-zero is ignored (21 R418 to R420). -/
def writeFirmware (d : Device) (core quad index : Nat) (v : Nat) : Device :=
  let w : Word := BitVec.ofNat 32 v
  let n := w.toNat
  let modSeq (f : Seqr → Seqr) : Device := d.modCore core (fun c => c.setSeq quad (f (c.seq quad)))
  match index with
  | 0x08 => d.modCore core (fun c => { c with cycle := BitVec.ofNat 64 v })
  | 0x40 => if shareAllowed w then modSeq (fun q => { q with share := w }) else d
  | 0x42 => if n < 2 ^ 7 then modSeq (fun q => { q with gsel := w }) else d
  | 0x43 =>
    if n / 2 ^ 10 ≠ 0 ∨ n / 2 ^ 3 % 2 ^ 5 ≠ 0 then d
    else
      match n % 8 with
      | 1 => gctlStopTeam d core quad
      | 2 => gctlResumeTeam d core quad
      | 3 => gctlResumePastTrap d core quad
      | 4 => gctlEndLaunch d core quad
      | _ => d
  | 0x48 =>
    if n / 2 ^ 16 % 2 ^ 15 ≠ 0 ∨ rselSpace w = 7 then d else modSeq (fun q => { q with rsel := BitVec.ofNat 32 (n % 2 ^ 16) })
  | 0x49 => writeRdata d core quad w
  | 0x4A =>
    if 2 ^ 8 ≤ n then d
    else
      let d := if n / 2 % 2 = 1 then requestDrain d core else d
      if n % 2 = 1 then requestFlip d core else d
  | _ => d

-- RDSYS and WRSYS (05 R151, R152)

/-- A program's system value in a lane; none for a group value read by the firmware context. -/
def readSystem (w : Work) (index lane : Nat) : Option Nat :=
  let g := w.group
  let core := w.coreNo
  let launch := w.dev.launchOf w.b.gid
  let team := w.dev.teamOf w.b.gid
  let user (n : Nat) : Option Nat := if team.isSome then some n else none
  match index with
  | 0x00 => some lane
  | 0x01 => user g.index
  | 0x02 => team.map (fun t => t.2.index.toNat)
  | 0x03 =>
    match team, launch with
    | some (_, t), some (_, l) => some ((t.index.toNat * l.spine.tgroups + g.index) * 32 + lane)
    | _, _ => none
  | 0x04 => user (if g.producer then 0 else 1)
  | 0x05 => some g.quad
  | 0x06 => some (core % 160)
  | 0x07 => some (dieOf core)
  | 0x08 => some (if team.isSome then g.issueCycle else (w.dev.core core).cycle).toNat
  | 0x09 => some (match w.b.regs.popAt lane with | .member _ id _ _ => id | _ => 2 ^ 64 - 1)
  | 0x0A => some (match w.b.regs.popAt lane with | .member _ _ p _ => p | _ => 2 ^ 64 - 1)
  | 0x0B => some (match w.b.regs.popAt lane with | .member _ _ _ n => n | _ => 0)
  | _ => team.bind (fun t => t.2.place.map (fun p => p.2))

def Work.isFirmware (w : Work) : Bool := match w.b.gid with | .fw _ => true | .user _ => false

/-- RDSYS: a value marked firmware is for the firmware context (cause 0xA0); what has no meaning for the reader is a free
value (log entry 6, DESIGN CHOICE). -/
def execRdsys (o : VOp) (s : State) : Host.Outcome State Fault Refusal :=
  vecSlot o s (fun w act =>
    let i := o.imm8.toNat
    if 0x40 ≤ i && !w.isFirmware then .trap (causeOf 0xA0)
    else
      let (n, d) := w.dev.draw
      let read (l : Nat) : Option Nat :=
        if 0x40 ≤ i then readFirmware w.b.start w.coreNo w.group.quad i else readSystem { w with dev := w.b.start } i l
      let free := (Config.sysWord n).toNat % 2 ^ (32 * o.type.words)
      let w := if (lanesOf act).all (fun l => (read l).isSome) then w else { w with dev := d }
      let r := fun l => (read l).getD free
      shortResult w o.dst o.type.words o.pd o.pc2 act r (fun l => r l != 0))

/-- WRSYS: only the firmware context (cause 0xA0); the lowest active lane supplies the value. -/
def execWrsys (o : VOp) (s : State) : Host.Outcome State Fault Refusal :=
  vecSlot o s (fun w act =>
    if !w.isFirmware then .trap (causeOf 0xA0)
    else
      let v := readOperand w.b.regs w.b.lits o.sa ((firstLane act).getD 0) o.type.words
      .ok { w with dev := writeFirmware w.dev w.coreNo w.group.quad o.imm8.toNat v })

end Sys2Proof.Machine
end

