-- ==== Sys2Proof/Machine/Control.lean ====
section
/-!
DEFINITION. The instructions of the control slot (chapter 04; BRD and JOIN: 07 R186, R190, 08 R209 to R211).
-/
namespace Sys2Proof.Machine

/-- Whether the C slot executes: its guard is true, and it is not treated as guarded off past a trap (04 R119). -/
def ctlActive (g : Group) (b : OpenBundle) (o : COp) : Bool := Guard.holds o.guard b.regs 0 && g.past != some b.pc

/-- A C operation: nothing when guarded off; cause 0x07 for an absent literal (02 R57). -/
def ctlSlot (o : COp) (s : State) (f : Work → SlotRes) : Host.Outcome State Fault Refusal :=
  runSlot 0 s (fun w =>
    if !ctlActive w.group w.b o then .ok w
    else if litMissing w.b.lits o.sa then .trap (causeOf 0x07)
    else f w)

/-- SA as 32 bits. -/
def ctlWord (w : Work) (o : COp) : Nat := readOperand w.b.regs w.b.lits o.sa 0 1

/-- Writes the destination of a C leaf that names an s register. -/
def setCDst (c : GCore) (d : CDst) (ws : List Word) : GCore :=
  match d with
  | .s n => c.setSWords n.toNat ws
  | _ => c

def Work.redirect (w : Work) (r : Redirect) : Work := { w with b := { w.b with redirect := r } }

-- branches (04 R110, R111; 02 R43)

/-- PC plus a displacement in halfwords, modulo 2^64. -/
def displaced (pc : DWord) (halves : Int) : DWord := BitVec.ofInt 64 (pc.toNat + 2 * halves)

def immDisp (o : COp) : Int := o.imm.toInt

def branchTarget (w : Work) (o : COp) : DWord :=
  displaced w.b.pc (if o.sa = .zero then immDisp o else sextNat (ctlWord w o) 32)

/-- A valid target: bit 0 and bits [63:57] are 0. -/
def validTarget (t : DWord) : Bool := t.toNat % 2 == 0 && decide (t.toNat < 2 ^ 57)

/-- Sets PC to a target, or takes cause 0x08 with the bad address. -/
def branchTo (w : Work) (t : DWord) : SlotRes :=
  if validTarget t then .ok (w.redirect (.jump t)) else .trap (causeAt 0x08 t.toNat false)

/-- NOP (04 R108). -/
def execNop (o : COp) (s : State) : Host.Outcome State Fault Refusal := ctlSlot o s .ok

/-- BRA (04 R111). -/
def execBra (o : COp) (s : State) : Host.Outcome State Fault Refusal := ctlSlot o s (fun w => branchTo w (branchTarget w o))

/-- The 64-bit value of SA. -/
def ctlPair (w : Work) (o : COp) : Nat := readOperand w.b.regs w.b.lits o.sa 0 2

/-- BRI (04 R111). -/
def execBri (o : COp) (s : State) : Host.Outcome State Fault Refusal :=
  ctlSlot o s (fun w => branchTo w (BitVec.ofNat 64 (ctlPair w o)))

/-- RET (04 R111). -/
def execRet (o : COp) (s : State) : Host.Outcome State Fault Refusal :=
  ctlSlot o s (fun w => branchTo w (BitVec.ofNat 64 (ctlPair w o)))

/-- CALL (04 R111). -/
def execCall (o : COp) (s : State) : Host.Outcome State Fault Refusal :=
  ctlSlot o s (fun w =>
    branchTo (w.modCore (fun c => setCDst c o.d (wordsOf 2 w.b.npc.toNat))) (branchTarget w o))

/-- The lanes of the issuing slot. -/
def Work.slotLanes (w : Work) : LaneMask := w.b.lanes &&& w.b.regs.live

/-- The lanes of the issuing slot where BRD's condition holds (07 R186). -/
def takenLanes (w : Work) (o : COp) : LaneMask := maskOf (fun l => w.slotLanes.getLsbD l && w.b.regs.predAt o.pa l)

/-- How a split is placed when the other slot is live (07 R186): the path with the lowest PC is pushed; T before Y before F when
PCs are equal. -/
inductive Pushed where
  | taken | other | fall
  deriving DecidableEq, Repr

def pushedPath (target other fall : DWord) : Pushed :=
  if target.toNat ≤ other.toNat ∧ target.toNat ≤ fall.toNat then .taken
  else if other.toNat ≤ fall.toNat then .other
  else .fall

/-- A bundle's frame demand with more pages (12 R268); none when it exceeds the team's allotment. -/
def Work.addDemand (w : Work) (pages : List Nat) : Option Work :=
  let all := pages.foldl (fun l p => if l.contains p then l else l ++ [p]) w.b.demand
  let w := { w with b := { w.b with demand := all } }
  match w.dev.teamOf w.b.gid with
  | some (t, _) => if 8 * spuOf w.dev t < all.length then none else some w
  | none => some w

/-- A scratchpad access by a C or E slot: the checks of 12 R266 on one address, with its page in the frame demand, whose
excess is cause 0x2F (12 R268). In SPAWN's list 08 R218 gives 0x2F no place; it is taken here, at the page step, before the checks of the
descriptor's fields (0x13) and of the counter (0x12). The firmware context has no scratchpad: a push of the reconvergence stack there
takes 0x23 (log entries 39 and 34, DESIGN CHOICE). -/
def slotScratch (w : Work) (addr : Nat) (write prog : Bool) : Except Cause Work :=
  match w.dev.teamOf w.b.gid with
  | none => .error (causeAt 0x23 addr write)
  | some (team, t) =>
    match scratchTranslate t addr write prog with
    | .ok _ =>
      match w.addDemand [addr / pageSize] with
      | some w => .ok { w with dev := cacheEntry w.dev team (addr / pageSize) }
      | none => .error (causeOf 0x2F)
    | .error c =>
      if (c = 0x28 || c = 0x29) && (w.addDemand [addr / pageSize]).isNone then .error (causeOf 0x2F)
      else .error (causeAt c addr write)

/-- BRD (07 R186, 08 R210): the target is checked when a lane takes it; a push checks the stack's room and page.
In the firmware context, which has no team scratchpad, a push takes 0x23 (log entry 34, DESIGN CHOICE). -/
def execBrd (o : COp) (s : State) : Host.Outcome State Fault Refusal :=
  ctlSlot o s (fun w =>
    let taken := takenLanes w o
    let target := branchTarget w o
    if taken = 0 then .ok w
    else if !validTarget target then .trap (causeAt 0x08 target.toNat false)
    else if taken = w.slotLanes then .ok (w.redirect (.jump target))
    else if w.inHandler then .trap (causeOf 0x09)
    else
      let w2 := w.redirect (.split target taken)
      if (w.b.regs.slot (!w.b.slotB)).st = .idle then .ok w2
      else if 256 ≤ w.b.regs.stack.length then .trap (causeOf 0x0C)
      else
        match slotScratch w2 (stackBase + 0x1000 * w.group.index + 16 * w.b.regs.stack.length) true false with
        | .ok w => .ok w
        | .error c => .trap c)

/-- JOIN (07 R190, 08 R211). -/
def execJoin (o : COp) (s : State) : Host.Outcome State Fault Refusal :=
  ctlSlot o s (fun w =>
    if w.inHandler then .trap (causeOf 0x09) else .ok (w.redirect (.join (BitVec.ofNat 32 (ctlWord w o)))))

-- loops (04 R112)

/-- LOOP. -/
def execLoop (o : COp) (s : State) : Host.Outcome State Fault Refusal :=
  ctlSlot o s (fun w =>
    let n := ctlWord w o
    let w2 := w.modCore (fun c => setCDst c o.d (wordsOf 1 n))
    if n = 0 then branchTo w2 (displaced w.b.pc (immDisp o)) else .ok w2)

/-- The s register of a C destination. -/
def readCDst (c : GCore) (d : CDst) : Word :=
  match d with
  | .s n => c.sAt n.toNat
  | _ => 0

/-- LEND. -/
def execLend (o : COp) (s : State) : Host.Outcome State Fault Refusal :=
  ctlSlot o s (fun w =>
    let n := readCDst w.b.regs o.d - 1
    let w2 := w.modCore (fun c => setCDst c o.d [n])
    if n ≠ 0 then branchTo w2 (displaced w.b.pc (immDisp o)) else .ok w2)

-- retirement and yielding (04 R113 to R115)

/-- EXIT: the bundle commits as a checkpoint bundle; its end retires the slot's live lanes. -/
def execExit (o : COp) (s : State) : Host.Outcome State Fault Refusal :=
  ctlSlot o s (fun w =>
    if w.inHandler then .trap (causeOf 0x09)
    else .ok { w with b := { w.b with redirect := .exit, ckAfter := true } })

def immCode (o : COp) : Nat := o.imm.toNat % 2 ^ 8

/-- HALT. -/
def execHalt (o : COp) (s : State) : Host.Outcome State Fault Refusal :=
  ctlSlot o s (fun _ => .trap { causeOf 0x10 with code := immCode o })

/-- Makes a group the youngest of its pair. -/
def makeYoungest (d : Device) (id : Nat) : Device :=
  match d.group (.user id), d.teamOf (.user id) with
  | some g, some (_, t) =>
    match t.place with
    | some (core, bank) =>
      d.modCore core (fun c => c.setAge bank (g.quad / 2) ((c.age bank (g.quad / 2)).filter (· != id) ++ [id]))
    | none => d
  | _, _ => d

/-- YIELD. -/
def execYield (o : COp) (s : State) : Host.Outcome State Fault Refusal :=
  ctlSlot o s (fun w =>
    match w.b.gid with
    | .user id => .ok { w with dev := makeYoungest w.dev id }
    | .fw _ => .ok w)

-- format and power (04 R116, R117)

/-- SETFMT. -/
def execSetfmt (o : COp) (s : State) : Host.Outcome State Fault Refusal :=
  ctlSlot o s (fun w =>
    let v : Word := BitVec.ofNat 32 (ctlWord w o)
    if fmtAllowed v then .ok (w.modCore (fun c => c.setSlot w.b.slotB { c.slot w.b.slotB with fmt := v }))
    else .trap (causeOf 0x41))

/-- GETFMT. -/
def execGetfmt (o : COp) (s : State) : Host.Outcome State Fault Refusal :=
  ctlSlot o s (fun w => .ok (w.modCore (fun c => setCDst c o.d [w.b.fmt])))

/-- The lanes' requested levels, and q5 where two live lanes differ. -/
def setPerf (c : GCore) (slot : LaneMask) (level : Nat) : GCore :=
  let c := { c with perf := (lanesOf slot).foldl (fun t l => tputD t l (BitVec.ofNat 4 level) 0) c.perf }
  let ls := lanesOf c.live
  c.setQ 5 (ls.any (fun a => ls.any (fun b => c.perfAt a != c.perfAt b)))

/-- PERF.SET. -/
def execPerfSet (o : COp) (s : State) : Host.Outcome State Fault Refusal :=
  ctlSlot o s (fun w =>
    let w2 := w.modCore (fun c => setPerf c w.slotLanes (Nat.min (ctlWord w o) 15))
    .ok { w2 with dev := retarget w2.dev w.die })

-- traps and services (04 R118 to R121)

/-- TRAP. -/
def execTrap (o : COp) (s : State) : Host.Outcome State Fault Refusal :=
  ctlSlot o s (fun _ => .trap { causeOf 0x01 with code := immCode o })

/-- BKPT: a NOP with no debugger attached. -/
def execBkpt (o : COp) (s : State) : Host.Outcome State Fault Refusal :=
  ctlSlot o s (fun w =>
    if (w.dev.part w.part).debugger then .trap { causeOf 0xE0 with code := immCode o } else .ok w)

/-- A SYS request: the group parks at the bundle's end. The firmware context, which answers requests, does not park itself
(log entries 13 and 14, DEDUCED). -/
def sysRequest (service : Nat) (o : COp) (s : State) : Host.Outcome State Fault Refusal :=
  ctlSlot o s (fun w =>
    if immCode o ≠ service then .trap (causeOf 0xA2)
    else if w.isFirmware then .ok (w.modCore (fun c => setCDst c o.d [0]))
    else .ok { w with b := { w.b with parkAs := .sys service (BitVec.ofNat 32 (ctlWord w o)) o.d } })

/-- SYS 0x00; a service code that the manual does not list takes cause 0xA2. -/
def execSysRoundTrip (o : COp) (s : State) : Host.Outcome State Fault Refusal := sysRequest 0 o s

/-- SYS 0x01. -/
def execSysProgress (o : COp) (s : State) : Host.Outcome State Fault Refusal := sysRequest 1 o s

/-- SYS 0x02. -/
def execSysPageIn (o : COp) (s : State) : Host.Outcome State Fault Refusal := sysRequest 2 o s

/-- SYS 0x03. -/
def execSysGroupCount (o : COp) (s : State) : Host.Outcome State Fault Refusal := sysRequest 3 o s

/-- The unretired groups of a team. -/
def unretired (d : Device) (t : Team) : List Nat :=
  t.groups.filter (fun id => match d.group (.user id) with | some g => !g.retired | none => false)

/-- What firmware answers to a request, and what the service does; a page that finds every frame pinned is brought in when a pin clears
(12 R269). -/
def sysService (d : Device) (id service : Nat) (value : Word) : Nat × Device :=
  match d.teamOf (.user id), d.launchOf (.user id) with
  | some (team, t), some (_, l) =>
    match service with
    | 1 =>
      (0, d.modPart l.part (fun p =>
        let st := p.stream l.stream
        p.setStream l.stream { st with value, writes := Nat.min (st.writes + 1) (2 ^ 32 - 1) }))
    | 2 =>
      let page := value.toNat
      if 8192 ≤ page then (2, d)
      else
        match (t.page page).state with
        | .unmapped => (2, d)
        | .resident => (1, d)
        | _ => (0, (repairPage d team l.spine.spu page false).getD (d.modTeam team (fun t => { t with pageIns := t.pageIns ++ [page] })))
    | 3 => ((unretired d t).length, d)
    | _ => (0, d)
  | _, _ => (0, d)

/-- SYS_ANSWER (04 R120): the answer is written before the group's next bundle, and into the kept state when that is the state after
the request; the results due at the request's boundary land after it, as over any value its bundle wrote (01 R23). -/
def execSysAnswer (group : Nat) (s : State) : Host.Outcome State Fault Refusal :=
  devStep s (fun d =>
    match d.group (.user group) with
    | some g =>
      match g.park with
      | .sys service value dst =>
        let (r, d) := sysService d group service value
        let put (c : GCore) : GCore := setCDst c dst [BitVec.ofNat 32 r]
        boundary (d.modGroup (.user group) (fun g =>
          { g with park := .none, core := put g.core, ck := if g.spanLen = 0 then put g.ck else g.ck })) (.user group)
      | _ => d
    | none => d)

/-- IRET: the handler's path ends with its bundle; what it issued lands, then the held slots resume (16 R334). -/
def execIret (o : COp) (s : State) : Host.Outcome State Fault Refusal :=
  ctlSlot o s (fun w =>
    if w.inHandler then .ok { w with b := { w.b with redirect := .iret, ckAfter := true } } else .trap (causeOf 0x09))

-- waits (04 R122)


/-- WAITB: waits while bit 0 of the phase word equals the parity awaited. A poisoned word is cause 0xC1 (22 R425). -/
def execWaitb (o : COp) (s : State) : Host.Outcome State Fault Refusal :=
  ctlSlot o s (fun w =>
    let addr := ctlWord w o
    if addr % 16 ≠ 0 then .trap (causeAt 0x22 addr false)
    else
      match slotScratch w addr false true with
      | .error c => .trap c
      | .ok w2 =>
        match w2.dev.teamOf w.b.gid with
        | none => .trap (causeAt 0x23 addr false)
        | some (_, t) =>
          if scratchPoisoned w2.dev t (addr + 8) then .trap (causeAt 0xC1 addr false)
          else if phaseBit w2.dev w.group t addr == o.imm.getLsbD 0 then .wait (some (addr, o.imm.getLsbD 0))
          else .ok w2)

-- barriers (04 R123 to R128, 08 R212)

/-- Whether a release by an operation of the open bundle may complete. -/
def Work.mayRelease (w : Work) (wide : Bool) : Bool := releaseReady w.dev w.b.gid wide w.firstOp

/-- The conditions common to every barrier instruction: no handler, no divergence; after a kill the next one of any kind completes
at once with q6 = 1 (log entry 27, DEDUCED). A firmware context, which has no team, waits for nobody: q6 = 0 (log entry 34,
DESIGN CHOICE). -/
def barrierSlot (o : COp) (s : State) (f : Work → Nat → Team → SlotRes) : Host.Outcome State Fault Refusal :=
  ctlSlot o s (fun w =>
    if w.inHandler then .trap (causeOf 0x09)
    else if (w.b.regs.slot (!w.b.slotB)).st ≠ .idle then .trap (causeOf 0x0A)
    else if !w.mayRelease false then .wait none
    else
      let w := w.noteZero
      if w.group.abandon then .ok (w.mod (fun g => { g with abandon := false, core := g.core.setQ6 true }))
      else
        match w.dev.teamOf w.b.gid with
        | some (team, t) => f w team t
        | none => .ok (w.modCore (fun c => c.setQ6 false)))

def Work.id (w : Work) : Nat := match w.b.gid with | .user id => id | .fw _ => 0

/-- A barrier with one more arrival. -/
def Barrier.arrive (b : Barrier) (id n : Nat) (role : Option Bool) (all : Bool) : Barrier :=
  if b.expected.isNone then { b with expected := some n, role, all, arrived := [id], solo := if n = 1 then role else none }
  else { b with arrived := id :: b.arrived }

/-- Whether an arrival's count does not agree with the barrier's: with the count its phase fixed (04 R123), or, for a count of 0 with
which a phase opens, with the count of 1 by which the only group of the other role filled the phase before (08 R214, row 3; log entry 27,
DEDUCED). -/
def Barrier.disagrees (b : Barrier) (n : Nat) (role : Option Bool) : Bool :=
  match b.expected, role with
  | some e, _ => e != n
  | none, some r => n != 1 && b.solo == some (!r)
  | none, none => false

/-- What a waiting arrival holds for. -/
def Work.holdAt (w : Work) (k : BarWait) : Work := w.mod (fun g => { g with waits := k })

/-- An arrival at a named barrier (04 R123); a phase whose count one arrival reaches completes at it (log entry 27, DEDUCED). -/
def arriveNamed (wait : Bool) (o : COp) (w : Work) (team : Nat) (t : Team) : SlotRes :=
  let n := o.imm.toNat % 16
  let field := o.imm.toNat / 16
  let g := w.group
  let tgroups := match w.dev.launch t.launch with | some l => l.spine.tgroups | none => 0
  let peers := (unretired w.dev t).filter (fun id =>
    match w.dev.group (.user id) with | some x => x.producer == g.producer | none => false)
  let count := if field = 0 then peers.length else field
  let b := t.bar n
  let role := if field = 0 then some g.producer else none
  if tgroups < field || b.disagrees count role || b.arrived.contains w.id then
    .trap (causeOf 0x0E)
  else
    let w := { w with dev := w.dev.setTeam team (t.setBar n (b.arrive w.id count role false)) }
    let w := if wait then w.holdAt (.barrier n b.phase) else w.modCore (fun c => c.setQ6 false)
    .ok { w with dev := completeBarrier w.dev team n }

/-- BAR.ARRIVE. -/
def execBarArrive (o : COp) (s : State) : Host.Outcome State Fault Refusal := barrierSlot o s (arriveNamed false o)

/-- BAR.WAIT. -/
def execBarWait (o : COp) (s : State) : Host.Outcome State Fault Refusal := barrierSlot o s (arriveNamed true o)

/-- BAR.TEAM (04 R124). -/
def execBarTeam (o : COp) (s : State) : Host.Outcome State Fault Refusal :=
  barrierSlot o s (fun w team t =>
    let b := t.bar 16
    let w := { w with dev := w.dev.setTeam team (t.setBar 16 (b.arrive w.id (unretired w.dev t).length none true)) }
    let w := w.holdAt (.barrier 16 b.phase)
    .ok { w with dev := completeBarrier w.dev team 16 })

/-- The groups of a grid that have not retired: those of teams not yet placed count too (07 R198). -/
def gridGroups (d : Device) (launch : Nat) (l : Launch) : Nat :=
  d.teams.foldl
    (fun n x =>
      if x.2.launch ≠ launch ∨ x.2.retired then n
      else if x.2.groups.isEmpty then n + (if x.2.seed then 1 else l.spine.tgroups)
      else n + (unretired d x.2).length)
    0

/-- BAR.GRID (04 R124): a release at device scope, so it waits for its core's stores first (13 R280). -/
def execBarGrid (o : COp) (s : State) : Host.Outcome State Fault Refusal :=
  barrierSlot o s (fun w _ t =>
    match w.dev.launch t.launch with
    | none => .ok w
    | some l =>
      if !l.rgrid then .trap (causeOf 0x11)
      else if !w.mayRelease true then .wait none
      else
        let b := l.grid
        let w := { w with dev := w.dev.setLaunch t.launch { l with grid := b.arrive w.id (gridGroups w.dev t.launch l) none true } }
        let w := w.holdAt (.grid b.phase)
        .ok { w with dev := completeGrid w.dev t.launch })

/-- One window of the slew limiter (09 R234): the walk over the dies from the last one on, at most 16 cores per die. -/
def admitCores (releasing : List Nat) (die quota : Nat) : Nat → List Nat
  | 0 => []
  | n + 1 =>
    let here := ((List.range 160).map (160 * die + ·)).filter (fun c => releasing.contains c)
    let take := here.take (Nat.min 16 quota)
    take ++ admitCores releasing ((die + 1) % 16) (quota - take.length) n

/-- An admitted core's groups go on; the barrier is an acquire at device scope. -/
def releaseCore (d : Device) (launch core phase : Nat) : Device :=
  l1DropWorld (releaseGrid d launch phase (some core)) core (d.partOfDie (dieOf core))

/-- The die at which the next window goes on: where this one stopped. -/
def slewStop (start : Nat) (cores : List Nat) : Nat :=
  match cores.getLast? with
  | some c => if (cores.filter (fun k => dieOf k == dieOf c)).length = 16 then (dieOf c + 1) % 16 else dieOf c
  | none => start

/-- GRID_RELEASE_WINDOW (09 R234): `quota` is the admission count granted to the phase, 16 to 256. The walk takes the cores on which
groups wait now; a window that continues a release goes on where the last one stopped, with that count. Groups off their core are
released where they stand (08 R213). -/
def execGridReleaseWindow (launch quota : Nat) (s : State) : Host.Outcome State Fault Refusal :=
  devStep s (fun d =>
    match d.launch launch with
    | none => d
    | some l =>
      if l.releasing.isEmpty || decide (quota < 16) || decide (256 < quota) then d
      else
        let (start, a) := l.slew.getD ((d.slewDie + 1) % 16, quota)
        let waiting := gridCores d launch l.grid.phase
        let cores := admitCores waiting start a 16
        let left := waiting.filter (fun c => !cores.contains c)
        let d := cores.foldl (fun d c => releaseCore d launch c l.grid.phase) (releaseGrid d launch l.grid.phase none)
        let d := d.modLaunch launch (fun l =>
          { l with releasing := left, slew := if left.isEmpty then none else some (slewStop start cores, a) })
        if l.slew.isSome then d else { d with slewDie := match cores with | c :: _ => dieOf c | [] => d.slewDie })

-- uniform predicates (04 R129)

/-- A q instruction on the values of PA and PB. -/
def qSlot (f : Bool → Bool → Bool) (o : COp) (s : State) : Host.Outcome State Fault Refusal :=
  ctlSlot o s (fun w =>
    let r := f (w.b.regs.predAt o.pa 0) (w.b.regs.predAt o.pb 0)
    match o.pd with
    | .q n => .ok (w.modCore (fun c => c.setQ n.toNat r))
    | _ => .ok w)

/-- QAND. -/
def execQand (o : COp) (s : State) : Host.Outcome State Fault Refusal := qSlot (fun a b => a && b) o s

/-- QOR. -/
def execQor (o : COp) (s : State) : Host.Outcome State Fault Refusal := qSlot (fun a b => a || b) o s

/-- QXOR. -/
def execQxor (o : COp) (s : State) : Host.Outcome State Fault Refusal := qSlot (fun a b => a != b) o s

/-- QNOT. -/
def execQnot (o : COp) (s : State) : Host.Outcome State Fault Refusal := qSlot (fun a _ => !a) o s

/-- QMOV. -/
def execQmov (o : COp) (s : State) : Host.Outcome State Fault Refusal :=
  ctlSlot o s (fun w =>
    let r := if o.pa = .none then ctlWord w o != 0 else w.b.regs.predAt o.pa 0
    match o.pd with
    | .q n => .ok (w.modCore (fun c => c.setQ n.toNat r))
    | _ => .ok w)

-- staging registers (04 R130)

def setXDst (c : GCore) (d : CDst) (v : Nat) : GCore :=
  match d with
  | .x n => c.setX n.toNat (BitVec.ofNat 64 v)
  | _ => c

/-- XMOV. -/
def execXmov (o : COp) (s : State) : Host.Outcome State Fault Refusal :=
  ctlSlot o s (fun w => .ok (w.modCore (fun c => setXDst c o.d (ctlPair w o))))

/-- XLI: cause 0x07 with fewer than two literals. -/
def execXli (o : COp) (s : State) : Host.Outcome State Fault Refusal :=
  ctlSlot o s (fun w =>
    match w.b.lits with
    | [k0, k1] => .ok (w.modCore (fun c => setXDst c o.d (k0.toNat + 2 ^ 32 * k1.toNat)))
    | _ => .trap (causeOf 0x07))

end Sys2Proof.Machine
end

