-- ==== Sys2Proof/Machine/Records.lean ====
section
/-!
DEFINITION. Addresses and issue checks of the memory slot: buffer records (11 R241 to R246), scratchpad addresses (12 R266, R268; 14
R298), access sizes (14 R297), and the pieces that loads and stores share (13 R278; 14 R300, R303).
-/
namespace Sys2Proof.Machine

-- buffer records (11 R241 to R243)

structure Rcd where
  bad : Bool
  base : Nat
  esize : Nat
  extent : Nat
  stride : Nat
  swz : Nat
  oob : Bool
  read : Bool
  write : Bool
  atomic : Bool
  deriving DecidableEq, Repr

/-- A record's fields; `bad` says that it is malformed (R242). -/
def rcdOf (x : BitVec 128) : Rcd :=
  let n := x.toNat
  let base := natBits n 0 57
  let esize := natBits n 57 3
  let stride := natBits n 100 16
  let swz := natBits n 116 4
  { bad := natBits n 124 4 != 0 || decide (4 < esize) || decide (3 < swz) || base % 2 ^ esize != 0 ||
      (swz != 0 && (stride == 0 || stride * 2 ^ esize % (16 * 2 ^ (swz + 1)) != 0))
    base, esize, extent := natBits n 60 40, stride, swz, oob := x.getLsbD 120, read := x.getLsbD 121,
    write := x.getLsbD 122, atomic := x.getLsbD 123 }

/-- The virtual address of an element (R243); also the one a trap record names for a lane that fails an earlier check. -/
def Rcd.va (r : Rcd) (idx : Int) : Nat :=
  let e : Nat := 2 ^ r.esize
  let off : Int :=
    if r.stride = 0 then idx * e
    else
      let row := idx / (r.stride : Int)
      let b := (idx % (r.stride : Int)).toNat * e
      let b := if r.swz = 0 then b else Nat.xor (b / 16) (row % (2 ^ (r.swz + 1) : Nat)).toNat * 16 + b % 16
      row * (r.stride : Int) * e + b
  wrapNat ((r.base : Int) + off) 64

/-- The bytes of a record's span. -/
def Rcd.span (r : Rcd) : Nat :=
  if r.stride = 0 then r.extent * 2 ^ r.esize else (r.extent + r.stride - 1) / r.stride * r.stride * 2 ^ r.esize

/-- What the issue checks make of one element. -/
inductive Elem where
  | drop
  | waits (va : Nat)
  | ok (va pa : Nat)
  | fail (cause va : Nat)
  deriving DecidableEq, Repr

/-- Steps 1 to 5 of R246 for one element; `misfit` is the outcome of the size check. -/
def checkElem (d : Device) (part die : Nat) (r : Rcd) (n : Needs) (atomic misfit : Bool) (idx : Int) : Elem :=
  let va := r.va idx
  if r.bad then .fail 0x20 va
  else if (n.read && !r.read) || (n.write && !r.write) || (atomic && !r.atomic) then .fail 0x21 va
  else if misfit then .fail 0x27 va
  else if idx < 0 ∨ (r.extent : Int) ≤ idx then (if r.oob then .drop else .fail 0x25 va)
  else
    match translate d part die va n true with
    | .local_ pa => .ok va pa
    | .waits => .waits va
    | .fault c => .fail c va
    | .host _ | .peer _ _ => .fail 0x2E va

/-- An element that takes part: its lane, and its addresses unless it is out of bounds. -/
structure Acc where
  lane : Nat
  at_ : Option (Nat × Nat)
  deriving DecidableEq, Repr

/-- The physical address of an access whose translation still waits (11 R254). -/
def noPa : Nat := 2 ^ 64

/-- The elements in ascending lane order; the lowest failing lane decides (R246). -/
def checkEls (w : Work) (r : Rcd) (n : Needs) (atomic misfit : Bool) : List (Nat × Int) → Except Cause (List Acc)
  | [] => .ok []
  | (l, i) :: t =>
    match checkElem w.dev w.part w.die r n atomic misfit i, checkEls w r n atomic misfit t with
    | .fail c va, _ => .error (laneCause c l va n.write)
    | _, .error c => .error c
    | .drop, .ok as => .ok ({ lane := l, at_ := none } :: as)
    | .waits va, .ok as => .ok ({ lane := l, at_ := some (va, noPa) } :: as)
    | .ok va pa, .ok as => .ok ({ lane := l, at_ := some (va, pa) } :: as)

def Acc.waiting (a : Acc) : Bool := match a.at_ with | some (_, pa) => pa == noPa | none => false

/-- Translated segments enter the die's cache (11 R252); accesses that wait for a migrating segment are kept to be checked (14
R300). -/
def Work.noteAccs (w : Work) (n : Needs) (as : List Acc) : Work :=
  as.foldl
    (fun w a =>
      match a.at_ with
      | none => w
      | some (va, pa) =>
        if pa = noPa then
          w.mod (fun g => { g with checks := g.checks ++ [(va, n.read, n.write, w.b.trap 3 (laneCause 0x2A a.lane va n.write))] })
        else { w with dev := walkTables w.dev w.part w.die va })
    w

/-- The record a leaf names, and each active lane's index: zext(AA) + sext(OFS). -/
def Work.rcd (w : Work) (o : MOp) : Rcd := rcdOf (w.b.regs.bAt o.buf.toNat)

def laneIndex (w : Work) (o : MOp) (lane : Nat) : Int := readOperand w.b.regs w.b.lits o.aa lane 1 + sextNat o.ofs.toNat 8

def laneEls (w : Work) (o : MOp) (act : LaneMask) : List (Nat × Int) := (lanesOf act).map (fun l => (l, laneIndex w o l))

-- scratchpad addresses (14 R298, 12 R266)

def scratchAddr (w : Work) (o : MOp) (lane : Nat) : Int :=
  (readOperand w.b.regs w.b.lits o.ab lane 1 : Int) + readOperand w.b.regs w.b.lits o.aa lane 1 + sextNat o.ofs.toNat 8

/-- The alignment check and the steps of R266 for one lane. -/
def scratchFail (t : Team) (a : Int) (size : Nat) (write : Bool) : Option Nat :=
  if a % (size : Int) ≠ 0 then some 0x30
  else match scratchTranslate t a write true with
    | .ok _ => none
    | .error c => some c

/-- The addresses of a scratchpad operation's active lanes. The lowest failing lane decides; a demand for too many frames comes
before a page fault (R268). -/
def scratchLanes (w : Work) (o : MOp) (size : Nat) (write : Bool) (act : LaneMask) :
    Except Cause (Work × List (Nat × Nat)) :=
  match w.dev.teamOf w.b.gid with
  | none => .error (causeOf 0x23)
  | some (team, t) =>
    let as := (lanesOf act).map (fun l => (l, scratchAddr w o l))
    let pages := (as.filter (fun a => decide (0 ≤ a.2) && decide (a.2 < 2 ^ 24))).map (fun a => a.2.toNat / pageSize)
    let room := w.addDemand pages
    match as.find? (fun a => (scratchFail t a.2 size write).isSome) with
    | some (l, a) =>
      let c := (scratchFail t a size write).getD 0
      if room.isNone && (c == 0x28 || c == 0x29) then .error (causeOf 0x2F)
      else .error (laneCause c l (wrapNat a 64) write)
    | none =>
      match room with
      | none => .error (causeOf 0x2F)
      | some w =>
        .ok ({ w with dev := pages.foldl (fun d p => cacheEntry d team p) w.dev }, as.map (fun a => (a.1, a.2.toNat)))

-- the slot

/-- An M operation with its active lanes (01 R18); an absent literal is cause 0x07 (02 R57). -/
def memSlot (o : MOp) (s : State) (f : Work → LaneMask → SlotRes) : Host.Outcome State Fault Refusal :=
  runSlot 3 s (fun w =>
    let act := activeLanes w.b.regs w.b.lanes o.guard
    if act = 0 then .ok w
    else if litMissing w.b.lits o.aa || litMissing w.b.lits o.ab || litMissing w.b.lits o.da || litMissing w.b.lits o.db then
      .trap (causeOf 0x07)
    else f w act)

/-- The open bundle makes accesses of a memory operation's alias class (13 R276). -/
def Work.noteClass (w : Work) (o : MOp) : Work := if o.cls = 0 then w.noteZero else w

/-- An M operation that makes accesses of its alias class. -/
def memAccess (o : MOp) (s : State) (f : Work → LaneMask → SlotRes) : Host.Outcome State Fault Refusal :=
  memSlot o s (fun w act => f (w.noteClass o) act)

/-- An operation that reads memory as its bundle executes waits for an earlier acquire, or acquire FENCE, to receive its data (13 R286; 14
R306): the wait is timing (log entry 25, DEDUCED). -/
def memNow (o : MOp) (s : State) (f : Work → LaneMask → SlotRes) : Host.Outcome State Fault Refusal :=
  memAccess o s (fun w act => if w.group.acquireOp.isSome then .wait none else f w act)

/-- The first cause found waits for the bundle's end and is then a deferred trap (14 R301). -/
def Work.defer (w : Work) (cause lane addr : Nat) : Work :=
  w.mod (fun g =>
    { g with deferred := g.deferred.or (some { w.b.trap 3 (laneCause cause lane addr false) with defer := true }) })

-- the hamper (14 R303)

/-- Bytes enter the hamper; a tile's element that a TST has still to write is written over (13 R276). None when the span would
hold more than 64 entries. -/
def Work.addWrites (w : Work) (ws : List ByteWrite) : Option Work :=
  let hit (va : Nat) : Bool := ws.any (fun x => x.glob && x.addr == va)
  let g := w.group
  let h := g.hamper ++ ws
  if 64 < (hamperEntries h).length then none
  else
    some (w.mod (fun g =>
      { g with hamper := h
               core := { g.core with tiles := g.core.tiles.map (fun t => { t with outs := t.outs.filter (fun x => !hit x.2.1) }) } }))

/-- Whether a TST that waits for its tile has still to write a byte of a range. -/
def Group.outPending (g : Group) (va size : Nat) : Bool :=
  g.core.tiles.any (fun t => t.outs.any (fun x => decide (va ≤ x.2.1) && decide (x.2.1 < va + size)))

/-- The bytes of one lane's store by operation `op`. -/
def storeBytes (w : Work) (op : Nat) (glob : Bool) (lane addr pa : Nat) (data : List Byte) : List ByteWrite :=
  data.zipIdx.map (fun (b, i) =>
    { op, glob, addr := addr + i, pa := if pa = noPa then noPa else pa + i, val := b, bpc := w.b.pc, slotB := w.b.slotB, lane,
      tst := false })

-- the result of a load or an atomic

/-- The destination of a load. -/
def loadDst (o : MOp) : PendDst × Bool :=
  match o.dst with
  | .v n => (.v n.toNat (msWords o.size), false)
  | .s n => (.s n.toNat (msWords o.size), true)
  | .null => (.none, false)

/-- A pending result with values at hand. -/
def readyResult (w : Work) (o : MOp) (op : Nat) (act : LaneMask) (vals : List (Nat × List Word)) (pages : List Nat) : Pending :=
  let (dst, uni) := loadDst o
  { (w.pending op w.b.lookM act dst uni).takeVals vals with pages }

end Sys2Proof.Machine
end

