-- ==== Sys2Proof/Machine/LoadStore.lean ====
section
/-!
DEFINITION. Loads, stores, FENCE, record operations, cache and page hints (14 R302, R303, R306, R310 to R314), and the events
that bring data in and stores home (01 R25; 14 R300, R301).
-/
namespace Sys2Proof.Machine

-- line requests (11 R247)

/-- Lines in ascending order of virtual address (11 R247, R248). -/
def insertLine (x : Nat × Nat) : List (Nat × Nat) → List (Nat × Nat)
  | [] => [x]
  | y :: t => if x.1 / 64 = y.1 / 64 then y :: t else if x.1 < y.1 then x :: y :: t else y :: insertLine x t

def sortLines (l : List (Nat × Nat)) : List (Nat × Nat) := l.foldl (fun acc x => insertLine x acc) []

-- serving a line (11 R255, 13 R280, R281)

/-- A group's read of a line: from L1 where its scope and policy allow, else from the home slice, with the tag byte's check. -/
def serveLine (d : Device) (gid : Gid) (wide : Bool) (cpol : CPol) (va pa : Nat) : Device × Except Nat (List Byte) :=
  let part := d.partOf gid
  match d.coreOf gid with
  | none => (d, .error 0x2A)
  | some core =>
    let held := tget (d.core core).l1 (l1Key part va)
    match held, wide || cpol == .bypass with
    | some data, false => (d, .ok data)
    | _, _ =>
      let line := lineOf pa
      let d := homeAccess (drainLine d core line none) part line
      let d := if cpol = .bypass then l1Drop d core part va else d
      match tagCause d part line with
      | some c => (d, .error c)
      | none =>
        let data := readBytes d.mem.hbm (64 * line) 64
        let fill := cpol != .bypass && (!wide || held.isSome)
        (if fill then l1Fill d core part va data (cpol == .streaming) else d, .ok data)

-- LD.G and LD.S (14 R302)

/-- The pending result of a global load: its data come line by line. -/
def loadPending (w : Work) (o : MOp) (op : Nat) (act : LaneMask) (dst : PendDst) (uni : Bool) (as : List Acc) : Pending :=
  let loads : List LaneLoad := as.filterMap (fun a =>
    match a.at_ with
    | some (va, pa) => some { lane := a.lane, va, pa, size := msBytes o.size, fwd := [] }
    | none => none)
  let p := w.pending op w.b.lookM act dst uni
  let zero := loadValue o.size 0
  let vals : Tbl (List Word) :=
    if uni then (if loads.any (fun l => l.lane == p.lead) then [] else [(0, zero)])
    else as.filterMap (fun a => if a.at_.isNone then some (a.lane, zero) else none)
  let lines := (loads.map (fun l => l.va / 64)).eraseDups
  { p with vals, loads, lines, arrived := lines.isEmpty, msize := o.size, scope := o.scope, cpol := o.cpol, cls := o.cls.toNat,
           acq := o.order == .acquire, after := w.group.core.zeroOp }

def readNeeds : Needs := { read := true, write := false, exec := false }
def writeNeeds : Needs := { read := false, write := true, exec := false }
def bothNeeds : Needs := { read := true, write := true, exec := false }

/-- LD.G. -/
def execLdG (o : MOp) (s : State) : Host.Outcome State Fault Refusal :=
  memAccess o s (fun w act =>
    let r := w.rcd o
    match checkEls w r readNeeds false (decide (2 ^ r.esize < msBytes o.size)) (laneEls w o act) with
    | .error c => .trap c
    | .ok as =>
      if as.any (fun a => match a.at_ with | some (va, _) => w.group.outPending va (msBytes o.size) | none => false) then .wait none
      else
        let (op, w) := w.nextOp
        .ok ((w.noteAccs readNeeds as).addPending (loadPending w o op act (loadDst o).1 (loadDst o).2 as)))

/-- LD.S: its lanes read as it issues, or behind an acquire that has not received its data once that has come (13 R286). -/
def execLdS (o : MOp) (s : State) : Host.Outcome State Fault Refusal :=
  memAccess o s (fun w act =>
    match scratchLanes w o (msBytes o.size) false act with
    | .error c => .trap c
    | .ok (w, as) =>
      match w.dev.teamOf w.b.gid with
      | none => .trap (causeOf 0x23)
      | some (_, t) =>
        let (op, w) := w.nextOp
        let (dst, uni) := loadDst o
        let p : Pending :=
          { w.pending op w.b.lookM act dst uni with
            scr := as, arrived := false, msize := o.size, acq := o.order == .acquire
            pages := (as.map (fun a => a.2 / pageSize)).eraseDups }
        if w.group.behindAcquire op then .ok (w.addPending p)
        else
          let w := match as with | a :: _ => { w with dev := poolRead w.dev w.part w.die t a.2 } | [] => w
          let (p, bad) := p.readScratch w.dev w.group t
          let w := match bad with | some a => w.defer 0xC1 a.1 a.2 | none => w
          .ok (w.addPending p))

-- ST.G and ST.S (14 R303)

/-- A lane's data. -/
def laneData (w : Work) (o : MOp) (lane : Nat) : List Byte :=
  natBytes (msBytes o.size) (readOperand w.b.regs w.b.lits o.da lane (msWords o.size))

/-- ST.G. -/
def execStG (o : MOp) (s : State) : Host.Outcome State Fault Refusal :=
  memAccess o s (fun w act =>
    let r := w.rcd o
    match checkEls w r writeNeeds false (decide (2 ^ r.esize < msBytes o.size)) (laneEls w o act) with
    | .error c => .trap c
    | .ok as =>
      let (op, w) := w.nextOp
      let ws := as.flatMap (fun a =>
        match a.at_ with
        | some (va, pa) => storeBytes w op true a.lane va pa (laneData w o a.lane)
        | none => [])
      match (w.noteAccs writeNeeds as).addWrites ws with
      | some w => .ok w
      | none => .trap (causeOf 0x0D))

/-- ST.S. -/
def execStS (o : MOp) (s : State) : Host.Outcome State Fault Refusal :=
  memAccess o s (fun w act =>
    match scratchLanes w o (msBytes o.size) true act with
    | .error c => .trap c
    | .ok (w, as) =>
      let (op, w) := w.nextOp
      match w.addWrites (as.flatMap (fun a => storeBytes w op false a.1 a.2 0 (laneData w o a.1))) with
      | some w => .ok w
      | none => .trap (causeOf 0x0D))

-- FENCE (14 R306)

def orderAcquires (o : MOrder) : Bool := o == .acquire || o == .acqRel
def orderReleases (o : MOrder) : Bool := o == .release || o == .acqRel

/-- FENCE: it never holds its group back. What comes after it waits until its condition holds: as an acquire that the loads before it have
read, as a release the condition of 13 R280 too. -/
def execFence (o : MOp) (s : State) : Host.Outcome State Fault Refusal :=
  memSlot o s (fun w _ =>
    let (op, w) := w.nextOp
    let f : FenceWait := { op, acq := orderAcquires o.order, rel := orderReleases o.order, wide := Scope.isWide o.scope }
    let w := w.modCore (fun c => { c with fences := c.fences ++ [f] })
    .ok { w with dev := closeFence w.dev w.b.gid f })

-- hints (14 R312 to R314)

/-- PREF: one request for each line that its lanes name (11 R247); with CPOL 2 it comes into its home slice alone. -/
def execPref (o : MOp) (s : State) : Host.Outcome State Fault Refusal :=
  memSlot o s (fun w act =>
    let r := w.rcd o
    let named := (laneEls w o act).filterMap (fun e =>
      match checkElem w.dev w.part w.die r readNeeds false false e.2 with
      | .ok va pa => some (va, pa)
      | _ => none)
    let bring (d : Device) (va pa : Nat) : Device :=
      if o.cpol = .bypass then homeAccess d w.part (lineOf pa) else (serveLine d w.b.gid false o.cpol va pa).1
    .ok ((sortLines named).foldl (fun w x => { w with dev := bring w.dev x.1 x.2 }) w))

/-- L1INV through a record. -/
def execL1inv (o : MOp) (s : State) : Host.Outcome State Fault Refusal :=
  memSlot o s (fun w act =>
    let r := w.rcd o
    if r.bad then .ok w
    else .ok ((laneEls w o act).foldl (fun w e => { w with dev := l1Drop w.dev w.coreNo w.part (r.va e.2) }) w))

/-- L1INV.ALL. -/
def execL1invAll (o : MOp) (s : State) : Host.Outcome State Fault Refusal :=
  memSlot o s (fun w _ => .ok { w with dev := l1DropWorld w.dev w.coreNo w.part })

/-- L1INV.REC: the lines that overlap the record's span. -/
def execL1invRec (o : MOp) (s : State) : Host.Outcome State Fault Refusal :=
  memSlot o s (fun w _ =>
    let r := w.rcd o
    if r.bad || r.span == 0 then .ok w
    else
      let inSpan (key : Nat) : Bool :=
        key / 2 ^ 51 == w.part && decide (r.base / 64 ≤ key % 2 ^ 51) && decide (key % 2 ^ 51 ≤ (r.base + r.span - 1) / 64)
      .ok { w with dev := w.dev.modCore w.coreNo (fun c => { c with l1 := c.l1.filter (fun x => !inSpan x.1) }) })

/-- The pages a hint names: n from the one at the address; an unaligned address is ignored, and so are the pages past the last one and
the stack's (log entry 25, DEDUCED). -/
def hintPages (w : Work) (o : MOp) (act : LaneMask) : List Nat :=
  let lane := (firstLane act).getD 0
  let a := scratchAddr w o lane
  let n := Nat.min (readOperand w.b.regs w.b.lits o.da lane 1) 64
  if a < 0 ∨ a % (pageSize : Int) ≠ 0 then [] else ((List.range n).map (a.toNat / pageSize + ·)).filter (fun p => decide (p < stackBase / pageSize))

/-- A hint's effect on each page of the team. -/
def hintSlot (o : MOp) (s : State) (f : Device → Nat → Nat → Device) : Host.Outcome State Fault Refusal :=
  memSlot o s (fun w act =>
    match w.dev.teamOf w.b.gid with
    | some (team, _) => .ok { w with dev := (hintPages w o act).foldl (fun d p => f d team p) w.dev }
    | none => .ok w)

/-- SPG.IN: the repair of 12 R269 for a read; a page for which no frame is free waits for a later request. -/
def execSpgIn (o : MOp) (s : State) : Host.Outcome State Fault Refusal :=
  hintSlot o s (fun d team p => (repairPage d team (spuOf d team) p false).getD d)

/-- SPG.OUT: a page-out of each resident page that is not pinned. -/
def execSpgOut (o : MOp) (s : State) : Host.Outcome State Fault Refusal :=
  hintSlot o s (fun d team p => if pinned d team p then d else pageOut d team p)

-- buffer records (14 R310, R311)

/-- REC.LD: the lowest active lane's access alone. -/
def execRecLd (o : MOp) (s : State) : Host.Outcome State Fault Refusal :=
  memAccess o s (fun w act =>
    let r := w.rcd o
    let lane := (firstLane act).getD 0
    let idx : Int := readOperand w.b.regs w.b.lits o.aa lane 1
    match checkEls w r readNeeds false (r.esize != 4) [(lane, idx)] with
    | .error c => .trap c
    | .ok as =>
      if as.any (fun a => match a.at_ with | some (va, _) => w.group.outPending va 16 | none => false) then .wait none
      else
        let (op, w) := w.nextOp
        .ok ((w.noteAccs readNeeds as).addPending (loadPending w o op act (.rcd (o.ofs.toNat % 32)) true as)))

/-- REC.MK: four s registers become a record at once. -/
def execRecMk (o : MOp) (s : State) : Host.Outcome State Fault Refusal :=
  memSlot o s (fun w _ =>
    match o.da with
    | .s n => .ok (w.modCore (fun c => c.setBWords (o.ofs.toNat % 32) 0 (w.b.regs.sWords n.toNat 4)))
    | _ => .ok w)

-- events: data arrive (01 R25; 14 R301)

/-- The number under which an event names a group: even for a user group, odd for a firmware context. -/
def gidOf (n : Nat) : Gid := if n % 2 = 0 then .user (n / 2) else .fw (n / 2)
def gidNum : Gid → Nat
  | .user id => 2 * id
  | .fw key => 2 * key + 1

/-- RESULT_DATA_ARRIVAL: data that were read at issue reach the landing point's side (01 R25). -/
def execResultDataArrival (group op : Nat) (s : State) : Host.Outcome State Fault Refusal :=
  devStep s (fun d =>
    let gid := gidOf group
    let d := settleFences d gid
    match d.group gid with
    | none => d
    | some g =>
      if g.core.pend.any (fun p => p.op == op && !p.arrived && !p.unread && !p.vals.isEmpty && !p.isRsmp) then
        let waited := g.waitsData
        arrived (d.modGroup gid (fun g => fillPending g op (fun p => { p with arrived := true }))) gid waited
      else d)

/-- The lower of two failing lanes. -/
def lowerLane (a b : Option (Nat × Nat × Nat)) : Option (Nat × Nat × Nat) :=
  match a, b with
  | some x, some y => if y.1 < x.1 then some y else some x
  | some x, none => some x
  | none, y => y

/-- A line's data, or none for it, enter a pending load of a group, whose own earlier stores supply their bytes (13 R278): a uniform
destination takes the lead lane's value. -/
def Pending.answer (p : Pending) (g : Group) (line : Nat) (data : Option (List Byte)) : Pending :=
  let mine := p.loads.filter (fun l => l.va / 64 == line)
  let lines := p.lines.filter (· != line)
  let value (l : LaneLoad) (data : List Byte) : List Word :=
    loadValue p.msize (bytesNat ((List.range l.size).map (fun i =>
      match tget l.fwd i with
      | some b => b
      | none => (g.ownBefore p.op false true (l.va + i)).getD (data.getD ((l.va + i) % 64) 0))))
  let vals := match data with
    | none => p.vals
    | some data =>
      mine.foldl
        (fun t l => if p.uni then (if l.lane = p.lead then tput t 0 (value l data) else t) else tput t l.lane (value l data))
        p.vals
  { p with vals, lines, arrived := lines.isEmpty }

/-- Whether an earlier load is locally ordered before an access of a class, with the number below which the earlier operations stand
before a class-0 access (13 R276). -/
def Pending.before (q : Pending) (cls after : Nat) : Bool := q.cls == cls || q.cls == 0 || cls == 0 || decide (q.op < after)

/-- Whether a response may be the next: no earlier acquire of the group waits for data, nor an earlier load of the line that is
locally ordered before it (13 R276, R283) (log entry 25, DEDUCED). -/
def mayAnswer (g : Group) (p : Pending) (pa : Nat) : Bool :=
  !g.behindAcquire p.op &&
    g.core.pend.all (fun q =>
      decide (p.op ≤ q.op) || q.lines.isEmpty ||
        !(q.before p.cls p.after && q.loads.any (fun l => q.lines.contains (l.va / 64) && (l.pa == noPa || lineOf l.pa == lineOf pa))))

/-- What the answer to a load's last line leads to: a failing load traps for its lowest failing lane (11 R246 step 6, 14 R301); an
acquire drops stale lines, and what waited for the data goes on. -/
def loadDone (d : Device) (gid : Gid) (p : Pending) : Device :=
  if !p.lines.isEmpty then d
  else
    let d := settleStores (if p.acq then acquireL1 d gid (Scope.isWide p.scope) else d) gid
    match p.bad with
    | some (lane, c, va) =>
      deferTrap d gid
        { cause := c, code := 0, lane := some lane, addr := va, slot := 3, write := false, bpc := p.bpc, slotB := p.slotB, defer := true }
    | none => d

/-- LOAD_RESPONSE: a line request of a load is served and its tag byte checked. `line` is the line's virtual address divided by
64. -/
def execLoadResponse (group op line : Nat) (s : State) : Host.Outcome State Fault Refusal :=
  devStep s (fun d =>
    let gid := gidOf group
    let d := settleFences d gid
    match d.group gid with
    | none => d
    | some g =>
      match g.core.pend.find? (fun p => p.op == op && p.lines.contains line) with
      | none => d
      | some p =>
        match p.loads.find? (fun l => l.va / 64 == line) with
        | none => d
        | some l =>
          if l.pa = noPa ∨ mayAnswer g p l.pa = false then d
          else
            let waited := g.waitsData
            let (d, r) := serveLine d gid (Scope.isWide p.scope) p.cpol l.va l.pa
            let g := (d.group gid).getD g
            let answer (p : Pending) : Pending :=
              match r with
              | .ok data => p.answer g line (some data)
              | .error c => { p.answer g line none with bad := lowerLane p.bad (some (l.lane, c, l.va)) }
            let d := d.modGroup gid (fun g => fillPending g op answer)
            arrived (loadDone d gid (answer p)) gid waited)

/-- What the translation of the accesses that wait comes to, the earliest first: a cause, or a wait, or none of them. -/
def settleChecks (d : Device) (part die : Nat) : List (Nat × Bool × Bool × TrapInfo) → Option (Option TrapInfo)
  | [] => none
  | (va, r, wr, t) :: rest =>
    match translate d part die va { read := r, write := wr, exec := false } true with
    | .local_ _ => settleChecks d part die rest
    | .waits => some none
    | .fault c => some (some { t with cause := c })
    | .host _ | .peer _ _ => some (some { t with cause := 0x2E })

/-- The physical address of a virtual one that translates. -/
def paOf (d : Device) (part die va : Nat) : Nat :=
  match translate d part die va { read := false, write := false, exec := false } true with
  | .local_ pa => pa
  | _ => noPa

/-- ISSUE_CHECKS_DONE: the accesses of a span that waited for a migrating segment finish their checks, or the earliest that fails
traps at its bundle (14 R300, 11 R254). -/
def execIssueChecksDone (group : Nat) (s : State) : Host.Outcome State Fault Refusal :=
  devStep s (fun d =>
    let gid := gidOf group
    match d.group gid, d.coreOf gid with
    | some g, some core =>
      let part := d.partOf gid
      let die := dieOf core
      match settleChecks d part die g.checks with
      | some none => d
      | some (some t) => takeTrap d gid t
      | none =>
        let pa (va old : Nat) : Nat := if old = noPa then paOf d part die va else old
        let up (c : GCore) : GCore :=
          { c with pend := c.pend.map (fun p => { p with loads := p.loads.map (fun l => { l with pa := pa l.va l.pa }) }) }
        d.setGroup gid { g with checks := [], core := up g.core, hamper := g.hamper.map (fun x => { x with pa := if x.glob then pa x.addr x.pa else x.pa }) }
    | _, _ => d)

/-- STORE_AT_HOME_SLICE: released bytes of a line reach their home slice; `line` is the physical line. Committed stores that wait for
nothing any more set out first. -/
def execStoreAtHomeSlice (group line : Nat) (s : State) : Host.Outcome State Fault Refusal :=
  devStep s (fun d => storeAtHome (settleStores d (gidOf group)) (gidOf group) line)

end Sys2Proof.Machine
end

