-- ==== Sys2Proof/Machine/Atomics.lean ====
section
/-!
DEFINITION. Atomics (14 R304, R305; 13 R284): a commit point whose lanes act one after the other at the home slice or the frame.
-/
namespace Sys2Proof.Machine

inductive AtomOp where
  | add | min | max | and | or | xor | xchg | cas | inc | dec | fadd
  deriving DecidableEq, Repr

def atomSigned (m : MSize) : Bool := m == .i32 || m == .i64

/-- The new value (R304), at a width of w bits. -/
def atomNew (k : AtomOp) (signed : Bool) (w old a c : Nat) : Nat :=
  let less (x y : Nat) : Bool := decide (intOf signed x w < intOf signed y w)
  match k with
  | .add => (old + a) % 2 ^ w
  | .min => if less a old then a else old
  | .max => if less old a then a else old
  | .and => Nat.land old a
  | .or => Nat.lor old a
  | .xor => Nat.xor old a
  | .xchg => a
  | .cas => if old = c then a else old
  | .inc => if a ≤ old then 0 else old + 1
  | .dec => if old = 0 ∨ a < old then a else old - 1
  | .fadd => fp32.add .near old a

/-- A lane's operand and compare value. -/
def atomArgs (w : Work) (o : MOp) (lane : Nat) : Nat × Nat :=
  (readOperand w.b.regs w.b.lits o.da lane (msWords o.size), readOperand w.b.regs w.b.lits o.db lane (msWords o.size))

/-- What a lane of an atomic comes to: what it reads, or the cause its line holds. -/
structure AtomRes where
  lane : Nat
  addr : Nat
  res : Except Nat Nat

/-- One lane of a global atomic, at the home slice; the core's L1 copy follows (13 R283). -/
def atomGlobalLane (k : AtomOp) (o : MOp) (w : Work) (a : Acc) : Work × AtomRes :=
  match a.at_ with
  | none => (w, { lane := a.lane, addr := 0, res := .ok 0 })
  | some (va, pa) =>
    let line := lineOf pa
    let d := homeAccess (captureLoads (drainLine w.dev w.coreNo line none) w.b.gid w.coreNo w.group.nextOp line) w.part line
    match tagCause d w.part line with
    | some c => ({ w with dev := d }, { lane := a.lane, addr := va, res := .error c })
    | none =>
      let n := msBytes o.size
      let old := readHbm d pa n
      let (x, c) := atomArgs w o a.lane
      let bytes := natBytes n (atomNew k (atomSigned o.size) (8 * n) old x c)
      let d := d.modMem (fun m => { m with hbm := writeBytes m.hbm pa bytes })
      let d := bytes.zipIdx.foldl (fun d b => l1SetByte d w.coreNo w.part (va + b.2) b.1) d
      ({ w with dev := d }, { lane := a.lane, addr := va, res := .ok old })

/-- One lane of a scratchpad atomic, at the frame. -/
def atomScratchLane (k : AtomOp) (o : MOp) (team : Nat) (t : Team) (w : Work) (a : Nat × Nat) : Work × AtomRes :=
  let n := msBytes o.size
  if scratchBad w.dev w.group t w.group.nextOp a.2 n then (w, { lane := a.1, addr := a.2, res := .error 0xC1 })
  else
    let old := bytesNat (scratchBytes w.dev t a.2 n)
    let (x, c) := atomArgs w o a.1
    let bytes := natBytes n (atomNew k (atomSigned o.size) (8 * n) old x c)
    ({ w with dev := scratchPutBytes w.dev team a.2 bytes }, { lane := a.1, addr := a.2, res := .ok old })

/-- The lanes in ascending order. -/
def atomLanes {α : Type} (f : Work → α → Work × AtomRes) (w : Work) : List α → Work × List AtomRes
  | [] => (w, [])
  | a :: t =>
    let (w, r) := f w a
    let (w, rs) := atomLanes f w t
    (w, r :: rs)

/-- The end of an atomic: the first failing lane's cause is deferred, the others' results are pending. -/
def atomResult (o : MOp) (act : LaneMask) (pages : List Nat) (w : Work) (rs : List AtomRes) : SlotRes :=
  let w := match rs.find? (fun r => match r.res with | .error _ => true | .ok _ => false) with
    | some r => (match r.res with | .error c => w.defer c r.lane r.addr | .ok _ => w)
    | none => w
  if o.dst = .null then .ok w
  else
    let (op, w) := w.nextOp
    let vals := rs.filterMap (fun r => match r.res with | .ok x => some (r.lane, loadValue o.size x) | .error _ => none)
    .ok (w.addPending (readyResult w o op act vals pages))

/-- A global atomic; it comes after every release FENCE before it. -/
def atomGlobal (k : AtomOp) (o : MOp) (s : State) : Host.Outcome State Fault Refusal :=
  memNow o s (fun w act =>
    let r := w.rcd o
    let wide := Scope.isWide o.scope
    match checkEls w r bothNeeds true (decide (2 ^ r.esize < msBytes o.size)) (laneEls w o act) with
    | .error c => .trap c
    | .ok as =>
      if as.any Acc.waiting || w.group.behindRelease w.group.nextOp || (orderReleases o.order && !w.mayRelease wide) ||
          as.any (fun a => match a.at_ with | some (va, _) => w.group.outPending va (msBytes o.size) | none => false) then .wait none
      else
        let (w, rs) := atomLanes (atomGlobalLane k o) (w.noteAccs bothNeeds as) as
        let w := if orderAcquires o.order then { w with dev := acquireL1 w.dev w.b.gid wide } else w
        atomResult o act [] w rs)

/-- A scratchpad atomic; a WAITB that waits looks again. -/
def atomScratch (k : AtomOp) (o : MOp) (s : State) : Host.Outcome State Fault Refusal :=
  memNow o s (fun w act =>
    match scratchLanes w o (msBytes o.size) true act with
    | .error c => .trap c
    | .ok (w, as) =>
      if w.group.behindRelease w.group.nextOp || (orderReleases o.order && !w.mayRelease false) then .wait none
      else
        match w.dev.teamOf w.b.gid with
        | none => .trap (causeOf 0x23)
        | some (team, t) =>
          let w := match as with | a :: _ => { w with dev := poolRead w.dev w.part w.die t a.2 } | [] => w
          let (w, rs) := atomLanes (atomScratchLane k o team t) w as
          atomResult o act ((as.map (fun a => a.2 / pageSize)).eraseDups) { w with dev := wakeHeld w.dev team } rs)

/-- ATOM.G.ADD. -/
def execAtomGAdd (o : MOp) (s : State) : Host.Outcome State Fault Refusal := atomGlobal .add o s

/-- ATOM.G.MIN. -/
def execAtomGMin (o : MOp) (s : State) : Host.Outcome State Fault Refusal := atomGlobal .min o s

/-- ATOM.G.MAX. -/
def execAtomGMax (o : MOp) (s : State) : Host.Outcome State Fault Refusal := atomGlobal .max o s

/-- ATOM.G.AND. -/
def execAtomGAnd (o : MOp) (s : State) : Host.Outcome State Fault Refusal := atomGlobal .and o s

/-- ATOM.G.OR. -/
def execAtomGOr (o : MOp) (s : State) : Host.Outcome State Fault Refusal := atomGlobal .or o s

/-- ATOM.G.XOR. -/
def execAtomGXor (o : MOp) (s : State) : Host.Outcome State Fault Refusal := atomGlobal .xor o s

/-- ATOM.G.XCHG. -/
def execAtomGXchg (o : MOp) (s : State) : Host.Outcome State Fault Refusal := atomGlobal .xchg o s

/-- ATOM.G.CAS. -/
def execAtomGCas (o : MOp) (s : State) : Host.Outcome State Fault Refusal := atomGlobal .cas o s

/-- ATOM.G.INC. -/
def execAtomGInc (o : MOp) (s : State) : Host.Outcome State Fault Refusal := atomGlobal .inc o s

/-- ATOM.G.DEC. -/
def execAtomGDec (o : MOp) (s : State) : Host.Outcome State Fault Refusal := atomGlobal .dec o s

/-- ATOM.G.FADD. -/
def execAtomGFadd (o : MOp) (s : State) : Host.Outcome State Fault Refusal := atomGlobal .fadd o s

/-- ATOM.S.ADD. -/
def execAtomSAdd (o : MOp) (s : State) : Host.Outcome State Fault Refusal := atomScratch .add o s

/-- ATOM.S.MIN. -/
def execAtomSMin (o : MOp) (s : State) : Host.Outcome State Fault Refusal := atomScratch .min o s

/-- ATOM.S.MAX. -/
def execAtomSMax (o : MOp) (s : State) : Host.Outcome State Fault Refusal := atomScratch .max o s

/-- ATOM.S.AND. -/
def execAtomSAnd (o : MOp) (s : State) : Host.Outcome State Fault Refusal := atomScratch .and o s

/-- ATOM.S.OR. -/
def execAtomSOr (o : MOp) (s : State) : Host.Outcome State Fault Refusal := atomScratch .or o s

/-- ATOM.S.XOR. -/
def execAtomSXor (o : MOp) (s : State) : Host.Outcome State Fault Refusal := atomScratch .xor o s

/-- ATOM.S.XCHG. -/
def execAtomSXchg (o : MOp) (s : State) : Host.Outcome State Fault Refusal := atomScratch .xchg o s

/-- ATOM.S.CAS. -/
def execAtomSCas (o : MOp) (s : State) : Host.Outcome State Fault Refusal := atomScratch .cas o s

/-- ATOM.S.INC. -/
def execAtomSInc (o : MOp) (s : State) : Host.Outcome State Fault Refusal := atomScratch .inc o s

/-- ATOM.S.DEC. -/
def execAtomSDec (o : MOp) (s : State) : Host.Outcome State Fault Refusal := atomScratch .dec o s

/-- ATOM.S.FADD. -/
def execAtomSFadd (o : MOp) (s : State) : Host.Outcome State Fault Refusal := atomScratch .fadd o s

end Sys2Proof.Machine
end

