-- ==== Sys2Proof/Machine/Tiles.lean ====
section
/-!
DEFINITION. Tile transfers between global memory and rings or accumulator tiles (14 R307 to R309; 12 R272; 13 R291; 16 R321 to R325).
-/
namespace Sys2Proof.Machine

-- the tile scoreboard (16 R321)

/-- Whether a queued command uses a tile; an arrival takes rows of every tile. -/
def MxCmd.usesTile (m : MxCmd) (tile : Nat) : Bool :=
  match m.kind with
  | .mma _ _ _ _ _ | .accZero | .accRd _ _ | .accWr _ _ => m.tile == tile
  | .arrival _ _ | .cloneRows _ _ _ => true
  | .ringCfg _ _ | .ringRst _ | .ringStat _ _ => false

/-- Whether an accumulator tile of a group has an earlier use that has not taken effect. -/
def tileBusy (d : Device) (core : Nat) (g : Group) (id tile : Nat) : Bool :=
  g.core.tiles.any (fun t => t.tile == tile) ||
    (d.core core).mq.any (fun m => m.group == id && m.usesTile tile)

/-- The rows of a tile replaced (14 R309); the key is 32 × row + column. -/
def GCore.putTile (c : GCore) (tile : Nat) (rows : Tbl Word) : GCore :=
  (List.range 1024).foldl (fun c k => c.setAcc tile (k / 32) (k % 32) (tgetD rows k 0)) c

/-- Byte k of an accumulator tile: row k / 128, its elements in column order. -/
def GCore.tileByte (c : GCore) (tile k : Nat) : Byte :=
  BitVec.ofNat 8 ((c.accAt tile (k / 128) (k % 128 / 4)).toNat / 2 ^ (8 * (k % 4)))

/-- A transfer on a tile takes effect: a TLD's rows, or the bytes a TST reads. A TST whose checkpoint has passed sends its bytes
out; one of the current span leaves them to the checkpoint. -/
def runTilePend (d : Device) (id : Nat) (t : TilePend) : Device :=
  match d.group (.user id) with
  | none => d
  | some g =>
    let kept := g.ck.tiles.find? (fun x => x.op == t.op)
    let drop (c : GCore) : GCore := { c with tiles := c.tiles.filter (fun x => x.op != t.op) }
    let out (t : TilePend) : List ByteWrite := t.outs.map (fun x =>
      { op := t.op, glob := true, addr := x.2.1, pa := x.2.2.1, val := g.core.tileByte t.tile x.1, bpc := t.bpc, slotB := t.slotB,
        lane := x.2.2.2, tst := true })
    if t.load then
      let put (c : GCore) : GCore := (drop c).putTile t.tile t.rows
      d.setGroup (.user id) { g with core := put g.core, ck := if kept.isSome then put g.ck else g.ck }
    else
      match kept with
      | some k =>
        settleStores (d.modGroup (.user id) (fun g =>
          { g with core := drop g.core, ck := drop g.ck, waiting := g.waiting ++ out k })) (.user id)
      | none => d.setGroup (.user id) { g with core := drop g.core, hamper := g.hamper ++ out t }

/-- The transfers whose turn has come: those that no matrix command on their tile and no earlier transfer precedes. -/
def readyTile (d : Device) (core id : Nat) (g : Group) : Option TilePend :=
  g.core.tiles.find? (fun t =>
    !((d.core core).mq.any (fun m => m.group == id && m.usesTile t.tile && decide (m.op < t.op))) &&
      !(g.core.tiles.any (fun x => x.tile == t.tile && decide (x.op < t.op))))

/-- Runs a group's transfers whose turn has come. -/
def settleTiles (d : Device) (core id : Nat) : Nat → Device
  | 0 => d
  | n + 1 =>
    match d.group (.user id) with
    | none => d
    | some g =>
      match readyTile d core id g with
      | none => d
      | some t => settleTiles (runTilePend d id t) core id n

-- operands (14 R307)

def tileIsAcc (o : MOp) : Bool := o.ofs.getLsbD 4
def tileNum (o : MOp) : Nat := o.ofs.toNat % 16

/-- The elements that the active lanes move, row by row; one of each lane stands for all when the row does not hold whole
elements. -/
def tileEls (w : Work) (o : MOp) (act : LaneMask) (count : Nat) : List (Nat × Int) :=
  (lanesOf act).flatMap (fun l => (List.range count).map (fun (m : Nat) => (l, (readOperand w.b.regs w.b.lits o.aa l 1 : Int) + (m : Int))))

/-- The checks of a transfer up to translation (14 R308), the bytes of a row and its elements. -/
def tileAccs (w : Work) (o : MOp) (act : LaneMask) (n : Needs) (rb : Nat) : Except Cause (List Acc) :=
  let r := w.rcd o
  let e := 2 ^ r.esize
  let misfit := decide (rb % e ≠ 0)
  checkEls w r n false misfit (tileEls w o act (if r.bad || misfit then 1 else rb / e))

/-- The ring's page checks at a tile (12 R272): the lowest failing page decides. -/
def tilePages (t : Team) (addr len : Nat) (write : Bool) : Option Cause :=
  let pages := (List.range ((addr + len - 1) / pageSize - addr / pageSize + 1)).map (addr / pageSize + ·)
  match pages.find? (fun p => decide ((t.page p).state ≠ .resident)) with
  | none => none
  | some p =>
    let a := Nat.max addr (p * pageSize)
    some (causeAt (if (t.page p).state = .unmapped then 0x23 else 0x28) a write)

/-- Where a transfer's tile stands. -/
inductive TilePlace where
  | acc (tile : Nat)
  | ring (n : Nat) (c : RingConf)
  deriving DecidableEq, Repr

/-- The tile operand: causes 0x60 and 0x61. -/
def tilePlace (w : Work) (o : MOp) : Except Cause (Nat × Team × TilePlace) :=
  match w.dev.teamOf w.b.gid, w.dev.launchOf w.b.gid with
  | some (team, t), some (_, l) =>
    if tileIsAcc o then
      if l.spine.tiles ≤ tileNum o then .error (causeOf 0x60) else .ok (team, t, .acc (tileNum o))
    else
      match (t.ring (tileNum o)).conf with
      | some c => .ok (team, t, .ring (tileNum o) c)
      | none => .error (causeOf 0x61)
  | _, _ => .error (causeOf (if tileIsAcc o then 0x60 else 0x61))

def TilePlace.rowBytes : TilePlace → Nat
  | .acc _ => 128
  | .ring _ c => c.tsize * 2

-- TLD

/-- The lines of a TLD, read in ascending address order: each one's data or its cause. -/
def readLines (d : Device) (gid : Gid) (cpol : CPol) : List (Nat × Nat) → Device × Tbl (Except Nat (List Byte))
  | [] => (d, [])
  | (va, pa) :: t =>
    let (d, r) := serveLine d gid false cpol va pa
    let (d, rest) := readLines d gid cpol t
    (d, tput rest (va / 64) r)

/-- The bytes of one element as its group sees them. -/
def elemBytes (g : Group) (lines : Tbl (Except Nat (List Byte))) (va e : Nat) : List Byte :=
  (List.range e).map (fun i =>
    match g.ownByte true (va + i) with
    | some b => b
    | none =>
      match tget lines (va / 64) with
      | some (.ok data) => data.getD ((va + i) % 64) 0
      | _ => 0)

/-- Whether an element's line has failed its check. -/
def elemFailed (lines : Tbl (Except Nat (List Byte))) (a : Acc) : Bool :=
  match a.at_ with
  | some (va, _) => (match tget lines (va / 64) with | some (.error _) => true | _ => false)
  | none => false

/-- A tile's rows of `rb` bytes from the elements of its lanes: an inactive lane's row, that of a lane with a failing element, which
receives no data (14 R301), and elements out of bounds are zeros. -/
def tileBytes (g : Group) (lines : Tbl (Except Nat (List Byte))) (as : List Acc) (rb e : Nat) : List Byte :=
  (List.range 32).flatMap (fun l =>
    let els := as.filter (fun a => a.lane == l)
    if els.isEmpty || els.any (elemFailed lines) then List.replicate rb 0
    else els.flatMap (fun a => match a.at_ with | some (va, _) => elemBytes g lines va e | none => List.replicate e 0))

/-- The first failing element of a TLD, in ascending lane order. -/
def failedElem (lines : Tbl (Except Nat (List Byte))) (as : List Acc) : Option (Nat × Nat × Nat) :=
  as.findSome? (fun a =>
    match a.at_ with
    | some (va, _) => (match tget lines (va / 64) with | some (.error c) => some (c, a.lane, va) | _ => none)
    | none => none)

/-- Bytes as 32-bit words under their numbers. -/
def bytesTbl : Nat → List Byte → Tbl Word
  | k, a :: b :: c :: d :: t => (k, d ++ c ++ b ++ a) :: bytesTbl (k + 1) t
  | _, _ => []

/-- A transfer that waits for its tile; a TST writes over the bytes that an earlier waiting one would write. -/
def addTilePend (w : Work) (t : TilePend) : Work :=
  let covers (va : Nat) : Bool := t.outs.any (fun x => x.2.1 == va)
  w.modCore (fun c => { c with tiles := c.tiles.map (fun x => { x with outs := x.outs.filter (fun y => !covers y.2.1) }) ++ [t] })

/-- TLD into an accumulator tile: every row is replaced, now or when its turn comes. -/
def tldAcc (w : Work) (tile : Nat) (data : List Byte) : Work :=
  match w.b.gid with
  | .fw _ => w
  | .user id =>
    let rows := bytesTbl 0 data
    let (op, w) := w.nextOp
    if tileBusy w.dev w.coreNo w.group id tile then
      addTilePend w { op, tile, load := true, rows, outs := [], bpc := w.b.pc, slotB := w.b.slotB }
    else w.modCore (fun c => c.putTile tile rows)

/-- Whether a span's pushes or pops of a ring would exceed the ring (14 R309). -/
def spanFull (n : Nat) (c : RingConf) (l : List Nat) : Bool := decide (c.tcount ≤ (l.filter (· == n)).length)


/-- Whether an earlier load of the group that is locally ordered before a read of a line has not read it yet (13 R276, R283). -/
def lineAwaited (g : Group) (cls va pa : Nat) : Bool :=
  g.core.pend.any (fun q =>
    q.before cls g.core.zeroOp &&
      q.loads.any (fun l => q.lines.contains (l.va / 64) && (l.va / 64 == va / 64 || l.pa == noPa || lineOf l.pa == lineOf pa)))

/-- TLD (log entry 25, DEDUCED). -/
def execTld (o : MOp) (s : State) : Host.Outcome State Fault Refusal :=
  memNow o s (fun w act =>
    match tilePlace w o with
    | .error c => .trap c
    | .ok (team, t, place) =>
      match tileAccs w o act readNeeds place.rowBytes with
      | .error c => .trap c
      | .ok as =>
        let first := sortLines (as.filterMap (fun a => a.at_))
        if as.any Acc.waiting || first.any (fun x => lineAwaited w.group o.cls.toNat x.1 x.2) ||
            as.any (fun a => match a.at_ with | some (va, _) => w.group.outPending va (2 ^ (w.rcd o).esize) | none => false) then
          .wait none
        else
          let read (w : Work) : Work × List Byte :=
            let w := w.noteAccs readNeeds as
            let (d, lines) := readLines w.dev w.b.gid o.cpol first
            let data := tileBytes w.group lines as place.rowBytes (2 ^ (w.rcd o).esize)
            let w := { w with dev := d }
            (match failedElem lines as with | some (c, l, va) => w.defer c l va | none => w, data)
          match place with
          | .acc tile => let (w, data) := read w; .ok (tldAcc w tile data)
          | .ring n c =>
            let g := w.group
            let r := t.ring n
            let me := match w.b.gid with | .user id => Owner.group id | .fw _ => .group 0
            if spanFull n c (g.core.pushes.map (fun p => p.ring)) then .trap (causeOf 0x0D)
            else if (r.pushOwner.isSome && r.pushOwner != some me) || decide (c.tcount ≤ r.rtail - r.head) then .wait none
            else
              let addr := c.tileAddr r.rtail
              match tilePages t addr c.bytes true with
              | some k => .trap k
              | none =>
                match bringRange w.dev team addr c.bytes true with
                | none => .wait none
                | some d =>
                  let (w, data) := read { w with dev := d }
                  let w := w.modCore (fun k => { k with pushes := k.pushes ++ [{ ring := n, pos := r.rtail, data }] })
                  .ok { w with dev := w.dev.modTeam team (fun t =>
                          t.setRing n { t.ring n with rtail := r.rtail + 1, pushOwner := some me }) })

-- TST

/-- The bytes a TST writes: byte k of the tile for each element in bounds. -/
def tstOuts (as : List Acc) (e rb : Nat) : List (Nat × Nat × Nat × Nat) :=
  (lanes.flatMap (fun l =>
    (as.filter (fun a => a.lane == l)).zipIdx.flatMap (fun (a, m) =>
      match a.at_ with
      | some (va, pa) => (List.range e).map (fun i => (l * rb + m * e + i, va + i, pa + i, l))
      | none => [])))

/-- TST's bytes join the group's stores. -/
def tstWrites (w : Work) (op : Nat) (outs : List (Nat × Nat × Nat × Nat)) (byte : Nat → Byte) : Work :=
  (w.addWrites (outs.map (fun x =>
    { op, glob := true, addr := x.2.1, pa := x.2.2.1, val := byte x.1, bpc := w.b.pc, slotB := w.b.slotB, lane := x.2.2.2,
      tst := true }))).getD w

/-- TST: one from a ring reads its tile as its bundle executes, and waits like a load for an earlier acquire (log entry 25, DEDUCED). -/
def execTst (o : MOp) (s : State) : Host.Outcome State Fault Refusal :=
  memAccess o s (fun w act =>
    match tilePlace w o with
    | .error c => .trap c
    | .ok (team, t, place) =>
      match tileAccs w o act writeNeeds place.rowBytes with
      | .error c => .trap c
      | .ok as =>
        if as.any Acc.waiting then .wait none
        else
          let outs := tstOuts as (2 ^ (w.rcd o).esize) place.rowBytes
          let w := w.noteAccs writeNeeds as
          match place with
          | .acc tile =>
            (match w.b.gid with
            | .fw _ => .ok w
            | .user id =>
              let (op, w) := w.nextOp
              if tileBusy w.dev w.coreNo w.group id tile then
                .ok (addTilePend w { op, tile, load := false, rows := [], outs, bpc := w.b.pc, slotB := w.b.slotB })
              else .ok (tstWrites w op outs (fun k => w.group.core.tileByte tile k)))
          | .ring n c =>
            let g := w.group
            let r := t.ring n
            let me := match w.b.gid with | .user id => Owner.group id | .fw _ => .group 0
            if spanFull n c (g.core.pops.map (fun p => p.1)) then .trap (causeOf 0x0D)
            else if g.acquireOp.isSome || (r.popOwner.isSome && r.popOwner != some me) || decide (r.tail ≤ r.rhead) then .wait none
            else
              let addr := c.tileAddr r.rhead
              match tilePages t addr c.bytes false with
              | some k => .trap k
              | none =>
                let data := scratchBytes w.dev t addr c.bytes
                let (op, w) := w.nextOp
                let w := tstWrites w op outs (fun k => data.getD k 0)
                let bad := (List.range (c.bytes / 8)).find? (fun i => scratchPoisoned w.dev t (addr + 8 * i))
                let w := match bad with | some i => w.defer 0xC1 ((firstLane act).getD 0) (addr + 8 * i) | none => w
                let w := w.modCore (fun k => { k with pops := k.pops ++ [(n, r.rhead)] })
                .ok { w with dev := w.dev.modTeam team (fun t =>
                        t.setRing n { t.ring n with rhead := r.rhead + 1, popOwner := some me }) })

end Sys2Proof.Machine
end

