-- ==== Sys2Proof/Machine/Fetch.lean ====
section
/-!
DEFINITION. The decode stage of a bundle: its fetch (02 R60), its leaves in the decode tables (02 R62 to R67), the role budgets
(01 R11), the flask (21 R410), and which bundles are commit points (01 R27, 20 R393).
-/
namespace Sys2Proof.Machine

-- fetch (02 R60)

/-- What the fetch of a halfword comes to. -/
inductive Fetched where
  | half (h : Half)
  | waits
  | bad (cause addr : Nat)
  deriving DecidableEq, Repr

def execNeeds : Needs := { read := false, write := false, exec := true }

/-- A halfword at an address: a line that holds poison gives its cause, any other failure 0x02. -/
def fetchHalf (d : Device) (part die va : Nat) : Fetched :=
  match translate d part die va execNeeds true with
  | .waits => .waits
  | .fault _ | .host _ | .peer _ _ => .bad 0x02 va
  | .local_ pa =>
    match tagCause d part (lineOf pa) with
    | some c => .bad (if c = 0x26 ∨ c = 0x2C then 0x02 else c) va
    | none => .half (BitVec.ofNat 16 (readHbm d pa 2))

/-- The symbol errors of the table lines and of the line that the fetch of a halfword reads are settled first. -/
def resolveHalf (d : Device) (part die va : Nat) : Device :=
  let d := walkTables d part die va
  match translate d part die va execNeeds true with
  | .local_ pa => resolveLine d (lineOf pa)
  | _ => d

def fetchHalves (d : Device) (part die va : Nat) : Nat → List Half → Except Fetched (List Half)
  | 0, acc => .ok acc.reverse
  | n + 1, acc =>
    match fetchHalf d part die va with
    | .half h => fetchHalves d part die (va + 2) n (h :: acc)
    | f => .error f

/-- The halfwords of the bundle at an address: the header first, then exactly those it declares. -/
def fetchBundle (d : Device) (part die va : Nat) : Except Fetched (List Half) :=
  match fetchHalf d part die va with
  | .half h => fetchHalves d part die (va + 2) (Header.ofHalf h).len [h]
  | f => .error f

/-- Every line of the bundle at an address is read: that of its header, and that of its last halfword (11 R261). -/
def resolveCode (d : Device) (part die va : Nat) : Device :=
  let d := resolveHalf d part die va
  match fetchHalf d part die va with
  | .half h => resolveHalf d part die (va + 2 * (Header.ofHalf h).len)
  | _ => d

/-- The 57-bit address in the low bits of a PC. -/
def codeAddr (pc : DWord) : Nat := pc.toNat % 2 ^ 57

-- leaves (02 R63 to R65)

/-- An indexed leaf: its class, and the instruction unless the hazard filter refused it. -/
structure SlotLeaf where
  cls : SlotClass
  leaf : Option Instr
  deriving DecidableEq, Repr

def tableEntry (c : Core) (bank quad : Nat) (cls : SlotClass) (index : Nat) : Option TabEntry :=
  match tget c.tabs (tabKey bank quad cls) with
  | some t => (t.entries.find? (fun e => e.2.index == index)).map (fun e => e.2)
  | none => none

/-- The leaves of a user bundle; a missing one is listed apart. -/
def tableLeaves (c : Core) (bank quad : Nat) : List (SlotClass × Nat) → List SlotLeaf × List (SlotClass × Nat)
  | [] => ([], [])
  | (cls, i) :: t =>
    let (ls, miss) := tableLeaves c bank quad t
    match tableEntry c bank quad cls i with
    | some e => ({ cls, leaf := e.leaf } :: ls, miss)
    | none => (ls, (cls, i) :: miss)

/-- A leaf of the firmware quire (02 R74). -/
def firmwareLeaves : List (SlotClass × Nat) → List SlotLeaf
  | [] => []
  | (cls, i) :: t =>
    { cls, leaf := match decodeLeaf cls (Config.firmwareLeaf (clsNum cls) i % 2 ^ (8 * cls.leafBytes)) with
                   | .ok x => some x
                   | .error _ => none } :: firmwareLeaves t


-- role budgets (01 R11)

/-- The registers an operand occupies: whether they are s registers, the lowest and how many. -/
def operandRegs : Operand × Nat → List (Bool × Nat × Nat)
  | (.v n, k) => [(false, n.toNat, k)]
  | (.s n, k) => [(true, n.toNat, k)]
  | _ => []

def dstRegs (u : DstUse) : Dst → List (Bool × Nat × Nat)
  | .v n => [(false, n.toNat, u.words)]
  | .s n => [(true, n.toNat, u.words)]
  | .null => []

def cdstRegs (u : CDstUse) : CDst → List (Bool × Nat × Nat)
  | .s n => if u = .none then [] else [(true, n.toNat, if u = .sPair then 2 else 1)]
  | _ => []

/-- The v and s registers a leaf names in fields its function uses. -/
def Leaf.regs : Leaf → List (Bool × Nat × Nat)
  | .c o sp => (sp.sa.list o.sa).flatMap operandRegs ++ cdstRegs sp.d o.d
  | .v o sp =>
    (sp.a.list o.sa ++ sp.b.list o.sb ++ sp.c.list o.sc).flatMap operandRegs ++ dstRegs sp.dst o.dst
  | .m o sp =>
    (sp.aa.list o.aa ++ sp.ab.list o.ab ++ sp.da.list o.da ++ sp.db.list o.db).flatMap operandRegs ++ dstRegs sp.dst o.dst
  | .e o sp => (sp.src.list o.src).flatMap operandRegs ++ dstRegs sp.dst o.dst
  | .none => []

/-- Whether a leaf names a register outside the budgets; s56 to s63 are exempt in a handler. -/
def overBudget (vb sb : Nat) (inHandler : Bool) (i : Instr) : Bool :=
  (Leaf.regs i.leaf).any (fun (s, n, k) =>
    (List.range k).any (fun j =>
      if s then decide (sb ≤ n + j) && !(inHandler && decide (56 ≤ n + j)) else decide (vb ≤ n + j)))

-- which slots execute (01 R17, R18)

/-- Whether a slot operation executes: an active lane for V and M, a true guard for C and E. -/
def slotExecutes (c : GCore) (path : LaneMask) (pastC : Bool) (i : Instr) : Bool :=
  match i.leaf with
  | .c o _ => Guard.holds o.guard c 0 && !pastC
  | .v o _ => activeLanes c path o.guard != 0
  | .m o _ => activeLanes c path o.guard != 0
  | .e o _ => Guard.holds o.guard c 0
  | .none => false

/-- The lookahead of a result that lands by it, where the operation has one (01 R22); RSMP's outcome lands with or without a
destination (18 R378) (log entry 18, DEDUCED). -/
def lateLook (lookM lookE : Nat) (i : Instr) : Option Nat :=
  match i.leaf with
  | .v o sp => if sp.look then some o.look.toNat else none
  | .m o sp => if (sp.lat = .l ∨ sp.lat = .g) ∧ (o.dst ≠ .null ∨ sp.recResult) then some lookM else none
  | .e o sp => if o.dst ≠ .null ∨ sp.func.toNat = 0x013 then some lookE else none
  | _ => none

/-- Functions of the M slot that are commit points: atomics, and FENCE with release order. -/
def commitM (o : MOp) (func : Nat) : Bool :=
  (decide (0x010 ≤ func) && decide (func ≤ 0x02A)) || (func == 0x005 && orderReleases o.order)

/-- A commit point (01 R27; 04 R123 to R126, 18 R369): POP.STAT is the one E function that is none. -/
def isCommit (i : Instr) : Bool :=
  match i.leaf with
  | .c _ sp => sp.barrier
  | .m o sp => commitM o sp.func.toNat
  | .e _ sp => sp.func.toNat != 0x014
  | _ => false

-- the flask (21 R410)

/-- The lanes of every path of a group. -/
def GCore.paths (c : GCore) : List LaneMask :=
  let slots (a b : PcSlot) (st : List StackEntry) : List LaneMask :=
    (if a.st = .idle then [] else [a.lanes]) ++ (if b.st = .idle then [] else [b.lanes]) ++ st.map (fun e => e.lanes)
  slots c.slotA c.slotB c.stack

/-- The operations with a result pending on a path. -/
def opsOn (pend : List Pending) (path : LaneMask) : List Nat :=
  ((pend.filter (fun p => p.lanes &&& path != 0)).map (fun p => p.op)).eraseDups

/-- The flask entries of a group: an operation on a path is one. A handler's results are those from its first operation on. -/
def GCore.flask (c : GCore) : Nat :=
  let count (pend : List Pending) (paths : List LaneMask) : Nat := (paths.map (fun l => (opsOn pend l).length)).sum
  match c.handler with
  | none => count c.pend c.paths
  | some h =>
    let held := { c with slotA := h.slotA, slotB := h.slotB, stack := h.stack }
    count (c.pend.filter (fun p => decide (h.firstOp ≤ p.op))) c.paths +
      count (c.pend.filter (fun p => decide (p.op < h.firstOp))) held.paths

/-- The lanes BRD's condition holds in. -/
def brdTaken (c : GCore) (path : LaneMask) (o : COp) : LaneMask := maskOf (fun l => path.getLsbD l && c.predAt o.pa l)

/-- What a bundle's slots would add. -/
def flaskAdds (c : GCore) (path : LaneMask) (pastC : Bool) (lookM lookE : Nat) (i : Instr) : Nat :=
  if !slotExecutes c path pastC i then 0
  else
    match i with
    | .brd o =>
      let t := brdTaken c path o
      let f := path &&& ~~~t
      if t = 0 ∨ f = 0 then 0
      else
        let own := c.pend.filter (fun p => match c.handler with | some h => decide (h.firstOp ≤ p.op) | none => true)
        ((opsOn own t).filter (fun op => (opsOn own f).contains op)).length
    | _ =>
      match lateLook lookM lookE i with
      | some n => if 1 ≤ n then 1 else 0
      | none => 0

-- the bundle an eligible group would issue

/-- The leaves of the bundle at a user group's next slot, as far as its tables hold them. -/
def nextLeaves (d : Device) (id : Nat) : List Instr :=
  match d.group (.user id), d.teamOf (.user id) with
  | some g, some (_, t) =>
    match t.place, g.core.nextSlot with
    | some (core, bank), some b =>
      match fetchBundle d (d.partOf (.user id)) (dieOf core) (codeAddr (g.core.slot b).pc) with
      | .ok hs =>
        match decodeBundle hs with
        | some k => (tableLeaves (d.core core) bank g.quad k.idx).1.filterMap (fun l => l.leaf)
        | none => []
      | .error _ => []
    | _, _ => []
  | _, _ => []

/-- The engine port a bundle takes (09 R228): 1 matrix, 2 copy. -/
def leafPort (i : Instr) : Nat :=
  match i.leaf with
  | .e _ sp => if 1 ≤ sp.func.toNat ∧ sp.func.toNat ≤ 9 then 1 else if sp.func.toNat = 0x0A then 2 else 0
  | _ => 0

end Sys2Proof.Machine
end

