-- ==== Sys2Proof/Machine/Bundle.lean ====
section
/-!
DEFINITION. The beginning and the end of a bundle: the decode conditions in their order (02 R67), the checkpoint of a commit point
(01 R27), the commit, the paths' moves (07 R186, R190), and the boundary after it (01 R23, 07 R192).
-/
namespace Sys2Proof.Machine

/-- What the beginning of a bundle comes to: no slot runs, or the bundle is open and its leaves run in slot order. -/
inductive Opened where
  | done (d : Device)
  | run (d : Device) (b : OpenBundle) (leaves : List SlotLeaf)

/-- A trap at the decode stage, whose bundle has not issued: no weight is charged and no interval begins (log entry 38, DESIGN
CHOICE). -/
def decodeTrap (d : Device) (gid : Gid) (slotB : Bool) (pc : DWord) (cause slot addr : Nat) : Opened :=
  .done (takeTrap d gid
    { cause, code := 0, lane := none, addr, slot, write := false, bpc := pc, slotB, defer := false })

/-- What the firmware or a user group's launch fixes for its bundles. -/
structure IssueSite where
  part : Nat
  core : Nat
  bank : Nat
  quad : Nat
  counts : List Nat
  vbud : Nat
  sbud : Nat
  deriving DecidableEq, Repr

def userSite (d : Device) (id : Nat) : Option IssueSite :=
  match d.group (.user id), d.teamOf (.user id), d.launchOf (.user id) with
  | some g, some (_, t), some (_, l) =>
    match t.place with
    | some (core, bank) =>
      some { part := l.part, core, bank, quad := g.quad, counts := l.spine.counts, vbud := l.spine.vbud g.producer,
             sbud := l.spine.sbud g.producer }
    | none => none
  | _, _, _ => none

/-- A firmware context has v0 to v63 and s0 to s63, and a quire of 64 leaves of each class (02 R74, 21 R416). -/
def firmwareSite (d : Device) (key : Nat) : IssueSite :=
  { part := d.partOfDie (dieOf (key / 4)), core := key / 4, bank := 0, quad := key % 4,
    counts := [64, 64, 64, 64, 64], vbud := 64, sbud := 64 }

/-- The open bundle of a group that stands at its start. -/
def startBundle (d : Device) (gid : Gid) (g : Group) (slotB : Bool) (k : Bundle) : OpenBundle :=
  let s := g.core.slot slotB
  { start := d, gid, slotB, pc := s.pc, npc := s.pc + BitVec.ofNat 64 (2 * (k.header.len + 1)), idx := k.idx, cycle := 0, lits := k.lits, lookM := k.lookM,
    lookE := k.lookE, ew := k.header.ew, regs := g.core, lanes := s.lanes &&& g.core.live, fmt := s.fmt, redirect := .next,
    leave := none, hold := none, demand := (demandPages g).eraseDups, ckAfter := k.header.ck, parkAs := .none }

/-- The injector's REG target (22 R430): a double error halts the group at the boundary (22 R425). -/
def regFault (d : Device) (gid : Gid) (site : IssueSite) (slotB : Bool) (pc : DWord) : Bool × Device :=
  match inject d site.part 0 with
  | (none, d) => (false, d)
  | (some false, d) => (false, countCorrected d (dieOf site.core))
  | (some true, d) =>
    (true, deferTrap d gid
      { cause := 0xC1, code := 0, lane := none, addr := 0, slot := 7, write := false, bpc := pc, slotB, defer := true })

/-- The conditions after the leaves are at hand (02 R67, from the refused leaf on), the span's limit at the boundary before the
bundle (20 R393), and a commit point's checkpoint. -/
def openLeaves (d : Device) (gid : Gid) (site : IssueSite) (slotB : Bool) (k : Bundle) (leaves : List SlotLeaf) : Opened :=
  let d := closeFences d gid
  match d.group gid with
  | none => .done d
  | some g =>
    let s := g.core.slot slotB
    let pc := s.pc
    let path := s.lanes &&& g.core.live
    let pastC := g.past == some pc
    match leaves.find? (fun l => l.leaf.isNone) with
    | some l => decodeTrap d gid slotB pc 0x04 (clsNum l.cls) 0
    | none =>
      let pastBudget (l : SlotLeaf) : Bool :=
        match l.leaf with
        | some i => overBudget site.vbud site.sbud g.core.handler.isSome i
        | none => false
      match leaves.find? pastBudget with
      | some l => decodeTrap d gid slotB pc 0x05 (clsNum l.cls) 0
      | none =>
        let is := leaves.filterMap (fun l => l.leaf)
        let adds := (is.map (flaskAdds g.core path pastC k.lookM k.lookE)).sum
        if adds ≠ 0 ∧ 192 < g.core.flask + adds then decodeTrap d gid slotB pc 0x14 7 0
        else if 48 < g.spanV.length then decodeTrap d gid slotB pc 0x0D 7 0
        else
          let commit := is.any (fun i => isCommit i && slotExecutes g.core path pastC i)
          if commit && !g.mayCheckpoint then .done d
          else
            let d := if commit then checkpoint d gid else d
            match d.group gid with
            | none => .done d
            | some g =>
              let b := startBundle d gid g slotB k
              .run d { b with ckAfter := b.ckAfter || commit } leaves

/-- The trace records of a quire miss (02 R66), when tracing is on. -/
def traceMiss (d : Device) (site : IssueSite) (miss : List (SlotClass × Nat)) : Device :=
  if d.tracing then
    { d with trace := d.trace ++ miss.map (fun x =>
        { core := site.core, quad := site.quad, bank := site.bank, what := .miss x.1 x.2, cycle := (d.core site.core).cycle }) }
  else d

/-- A user group's bundle. -/
def openUser (d : Device) (id : Nat) : Opened :=
  match d.group (.user id), userSite d id with
  | some g, some site =>
    match g.core.nextSlot with
    | none => .done d
    | some slotB =>
      let pc := (g.core.slot slotB).pc
      let die := dieOf site.core
      let d := resolveCode d site.part die (codeAddr pc)
      match fetchBundle d site.part die (codeAddr pc) with
      | .error .waits => .done d
      | .error (.half _) => .done d
      | .error (.bad c a) => decodeTrap d (.user id) slotB pc c 7 a
      | .ok hs =>
        match decodeBundle hs with
        | none => decodeTrap d (.user id) slotB pc 0x03 7 0
        | some k =>
          match k.idx.find? (fun x => decide (site.counts.getD (clsNum x.1) 0 ≤ x.2)) with
          | some x => decodeTrap d (.user id) slotB pc 0x06 (clsNum x.1) 0
          | none =>
            let (leaves, miss) := tableLeaves (d.core site.core) site.bank site.quad k.idx
            if !miss.isEmpty then
              .done (traceMiss ((d.modGroup (.user id) (fun g => { g with park := .quire miss })).modCore site.core (fun c =>
                { c with missCount := c.missCount + miss.length })) site miss)
            else
              match regFault d (.user id) site slotB pc with
              | (true, d) => .done d
              | (false, d) => openLeaves d (.user id) site slotB k leaves
  | _, _ => .done d

/-- A firmware bundle, given as its halfwords. -/
def openFirmware (d : Device) (key : Nat) (hs : List Half) : Opened :=
  match d.group (.fw key) with
  | none => .done d
  | some g =>
    match g.core.nextSlot with
    | none => .done d
    | some slotB =>
      let pc := (g.core.slot slotB).pc
      match decodeBundle hs with
      | none => decodeTrap d (.fw key) slotB pc 0x03 7 0
      | some k =>
        match k.idx.find? (fun x => decide (64 ≤ x.2)) with
        | some x => decodeTrap d (.fw key) slotB pc 0x06 (clsNum x.1) 0
        | none => openLeaves d (.fw key) (firmwareSite d key) slotB k (firmwareLeaves k.idx)

-- the end of a bundle

/-- A bundle of a path is counted for the results that the path's lanes hold (01 R23, 07 R184); a handler's bundles count for
the handler's results alone (16 R334). -/
def GCore.countBundle (c : GCore) (path : LaneMask) : GCore :=
  let mine (p : Pending) : Bool :=
    p.lanes &&& path != 0 && (match c.handler with | some h => decide (h.firstOp ≤ p.op) | none => true)
  { c with pend := c.pend.map (fun p => if mine p then { p with rem := p.rem - 1 } else p) }

/-- A split turns an entry of the path into one for each half that holds lanes of it (07 R184, 21 R410); lanes of an RSMP that have
retired stay with the half that falls through. -/
def splitPend (t f : LaneMask) (l : List Pending) : List Pending :=
  l.flatMap (fun p =>
    if p.lanes &&& t != 0 && p.lanes &&& f != 0 then
      [{ p with lanes := p.lanes &&& t }, { p with lanes := if p.isRsmp then p.lanes &&& ~~~t else p.lanes &&& f }]
    else [p])

/-- BRD's split (07 R186): where the taken and the other lanes go. -/
def GCore.split (c : GCore) (b : Bool) (target fall : DWord) (t : LaneMask) : GCore :=
  let x := c.slot b
  let y := c.slot (!b)
  let f := x.lanes &&& ~~~t
  let c := { c with pend := splitPend t f c.pend }
  let stay := issuingSlot fall f x.fmt
  let go := issuingSlot target t x.fmt
  if y.st = .idle then (c.setSlot b stay).setSlot (!b) go
  else
    match pushedPath target y.pc fall with
    | .taken => ({ c with stack := { w := false, fmt := x.fmt, lanes := t, pc := target } :: c.stack }).setSlot b stay
    | .fall => ({ c with stack := { w := false, fmt := x.fmt, lanes := f, pc := fall } :: c.stack }).setSlot b go
    | .other =>
      (({ c with stack := { w := false, fmt := y.fmt, lanes := y.lanes, pc := y.pc } :: c.stack }).setSlot b stay).setSlot (!b) go

/-- The issuing slot's move at the end of its bundle. -/
def GCore.redirect (c : GCore) (b : OpenBundle) : GCore :=
  let s := c.slot b.slotB
  match b.redirect with
  | .next => c.setSlot b.slotB { s with pc := b.npc }
  | .jump pc => c.setSlot b.slotB { s with pc }
  | .split target taken => c.split b.slotB target b.npc taken
  | .join mask => c.setSlot b.slotB { s with st := .joining, next := b.npc, mask }
  | .iret =>
    let first := match c.handler with | some h => h.firstOp | none => 0
    { c.setSlot b.slotB idleSlot with pend := c.pend.map (fun p => if first ≤ p.op then { p with rem := 0 } else p) }
  | .exit => c.setSlot b.slotB { s with pc := b.npc }

/-- The lanes that leave at the end of the bundle: every live lane of the slot by EXIT, else the members and reserve lanes of
POP.LEAVE's population. -/
def OpenBundle.leaving (b : OpenBundle) (c : GCore) : LaneMask :=
  let slot := b.lanes &&& c.live
  if b.redirect = .exit then slot
  else
    match b.leave with
    | some pop => maskOf (fun l => slot.getLsbD l &&
        (match c.popAt l with | .member p _ _ _ => p == pop | .reserve p => p == pop | .none => false))
    | none => 0

/-- Retires the lanes that leave: stores become visible first (04 R113). In a firmware context EXIT retires no lane (log entry 34,
DESIGN CHOICE). -/
def retireLeaving (d : Device) (b : OpenBundle) : Device :=
  match d.group b.gid, b.gid with
  | some g, .user id =>
    let m := b.leaving g.core
    if m = 0 then d
    else
      settleStores ((retireLanes (releaseHamper d b.gid) id m false).modGroup b.gid (fun g => { g with core := g.core.dropLanes m })) b.gid
  | _, _ => d

/-- The commit of an open bundle, and the boundary after it. -/
def commitBundle (d : Device) (b : OpenBundle) : Device :=
  let d := (issueBundle d b).modGroup b.gid (fun g =>
    let c := (g.core.countBundle b.lanes).redirect b
    { g with core := { c with turnB := !b.slotB }
             spanLen := g.spanLen + 1
             past := if g.past = some b.pc then none else g.past
             park := if b.parkAs = .none then g.park else b.parkAs })
  let d := storeStack d b.gid b.regs.pathStack
  let d := match b.gid, d.teamOf b.gid with | .user id, some (_, t) => wakeGroup d t id | _, _ => d
  let d := retireLeaving d b
  let d := if b.ckAfter then checkpoint d b.gid else d
  let d := match b.gid, b.hold with
    | .user id, some h => holdGroup (d.modGroup b.gid (fun g => { g with holdWait := some h })) id
    | _, _ => d
  boundary d b.gid

/-- The end of an open bundle (01 R16): in protected mode the two copies' signatures are compared (22 R424); a checkpoint bundle
waits until every access of its span has passed its checks (14 R300). -/
def closeBundle (d : Device) (b : OpenBundle) : Device :=
  match d.group b.gid with
  | none => d
  | some g =>
    let part := d.partOf b.gid
    let (sig, d) := if (d.part part).prot then inject d part 3 else (none, d)
    if sig.isSome then takeTrap (issueBundle (b.undo d) b) b.gid (b.trap 7 (causeOf 0xC0))
    else if b.ckAfter && !g.mayCheckpoint then holdBack b d none
    else commitBundle d b

end Sys2Proof.Machine
end

