-- ==== Sys2Proof/Machine/Aes.lean ====
section
/-!
DEFINITION. AES-256-GCM, which the cipher unit (16 R336) and the link flits (27 R470) use. The manual names the algorithm and does not
print it; it is written here from FIPS 197 and NIST SP 800-38D (log entry 20, PRESUMED).
-/
namespace Sys2Proof.Machine

/-- Multiplication in the field of AES, modulo x^8 + x^4 + x^3 + x + 1. -/
def aesMul (a b : Nat) : Nat :=
  ((List.range 8).foldl
    (fun (s : Nat × Nat) i =>
      (if b / 2 ^ i % 2 = 1 then Nat.xor s.1 s.2 else s.1, if 128 ≤ s.2 then Nat.xor (s.2 * 2) 0x11B else s.2 * 2))
    (0, a)).1

/-- The inverse in that field, 0 for 0: the power 254. -/
def aesInv (a : Nat) : Nat :=
  let sq (x : Nat) : Nat := aesMul x x
  let a2 := sq a
  let a3 := aesMul a2 a
  let a12 := sq (sq a3)
  let a15 := aesMul a12 a3
  let a240 := sq (sq (sq (sq a15)))
  aesMul (aesMul a240 a12) a2

/-- The substitution of one byte. -/
def subByte (x : Byte) : Byte :=
  let i := BitVec.ofNat 8 (aesInv x.toNat)
  i ^^^ i.rotateLeft 1 ^^^ i.rotateLeft 2 ^^^ i.rotateLeft 3 ^^^ i.rotateLeft 4 ^^^ 0x63

def xorBytes (a b : List Byte) : List Byte := a.zipWith (fun x y => x ^^^ y) b

/-- Round constant i of the key schedule. -/
def roundConst : Nat → Nat
  | 0 => 1
  | n + 1 => aesMul (roundConst n) 2

/-- Key words 8 to 59, newest first, from the 8 words of the key. -/
def expandWords : Nat → Nat → List (List Byte) → List (List Byte)
  | 0, _, ws => ws
  | n + 1, i, ws =>
    let prev := ws.headD []
    let t :=
      if i % 8 = 0 then
        xorBytes ((prev.drop 1 ++ prev.take 1).map subByte) [BitVec.ofNat 8 (roundConst (i / 8 - 1)), 0, 0, 0]
      else if i % 8 = 4 then prev.map subByte
      else prev
    expandWords n (i + 1) (xorBytes (ws.getD 7 []) t :: ws)

/-- A list cut into pieces of n. -/
def chunksOf {α : Type} (n : Nat) : Nat → List α → List (List α)
  | 0, _ => []
  | k + 1, l => if l.isEmpty then [] else l.take n :: chunksOf n k (l.drop n)

/-- The 15 round keys of a 32-byte key. -/
def roundKeys (key : List Byte) : List (List Byte) :=
  (chunksOf 4 15 (expandWords 52 8 (chunksOf 4 8 key).reverse).reverse).map List.flatten

def shiftRows (s : List Byte) : List Byte :=
  (List.range 16).map (fun i => s.getD (4 * ((i / 4 + i % 4) % 4) + i % 4) 0)

def mixColumn (c : List Byte) : List Byte :=
  (List.range 4).map (fun r =>
    let b (k : Nat) : Nat := (c.getD ((r + k) % 4) 0).toNat
    BitVec.ofNat 8 (Nat.xor (Nat.xor (aesMul (b 0) 2) (aesMul (b 1) 3)) (Nat.xor (b 2) (b 3))))

def mixColumns (s : List Byte) : List Byte := (chunksOf 4 4 s).flatMap mixColumn

/-- AES-256 of one 16-byte block under its round keys. -/
def aesBlock (keys : List (List Byte)) (block : List Byte) : List Byte :=
  let first := xorBytes block (keys.getD 0 [])
  let mid := (List.range 13).foldl
    (fun s i => xorBytes (mixColumns (shiftRows (s.map subByte))) (keys.getD (i + 1) [])) first
  xorBytes (shiftRows (mid.map subByte)) (keys.getD 14 [])

-- GCM

/-- Bytes as a number, the first byte most significant, and back. -/
def bigNat (l : List Byte) : Nat := l.foldl (fun x b => 256 * x + b.toNat) 0
def bigBytes (n x : Nat) : List Byte := (natBytes n x).reverse

/-- Multiplication of GCM's blocks: bit 0 is the most significant. -/
def ghashMul (x y : Nat) : Nat :=
  ((List.range 128).foldl
    (fun (s : Nat × Nat) i =>
      (if x / 2 ^ (127 - i) % 2 = 1 then Nat.xor s.1 s.2 else s.1,
       if s.2 % 2 = 1 then Nat.xor (s.2 / 2) (0xE1 * 2 ^ 120) else s.2 / 2))
    (0, y)).1

/-- Zeros up to a multiple of 16 bytes. -/
def padBlock (l : List Byte) : List Byte := l ++ List.replicate ((16 - l.length % 16) % 16) 0

def ghash (h : Nat) (l : List Byte) : Nat :=
  (chunksOf 16 (l.length / 16 + 1) l).foldl (fun y b => ghashMul (Nat.xor y (bigNat b)) h) 0

/-- The key stream over a text: counter blocks from 2 on. -/
def gcmCtr (keys : List (List Byte)) (iv : List Byte) (text : List Byte) : List Byte :=
  ((chunksOf 16 (text.length / 16 + 1) text).zipIdx).flatMap (fun (b, i) =>
    xorBytes b (aesBlock keys (iv ++ bigBytes 4 (i + 2))))

/-- The tag of a ciphertext with its additional data. -/
def gcmTag (keys : List (List Byte)) (iv aad cipher : List Byte) : List Byte :=
  let h := bigNat (aesBlock keys (List.replicate 16 0))
  let s := ghash h (padBlock aad ++ padBlock cipher ++ bigBytes 8 (8 * aad.length) ++ bigBytes 8 (8 * cipher.length))
  xorBytes (bigBytes 16 s) (aesBlock keys (iv ++ bigBytes 4 1))

/-- Encryption: the ciphertext and its tag. -/
def gcmSeal (key iv aad plain : List Byte) : List Byte × List Byte :=
  let keys := roundKeys key
  let c := gcmCtr keys iv plain
  (c, gcmTag keys iv aad c)

/-- Decryption: none when the tag does not verify. -/
def gcmOpen (key iv aad cipher tag : List Byte) : Option (List Byte) :=
  let keys := roundKeys key
  if gcmTag keys iv aad cipher = tag then some (gcmCtr keys iv cipher) else none

/-- A 256-bit key as its 32 bytes, the most significant first. -/
def keyBytes (k : BitVec 256) : List Byte := bigBytes 32 k.toNat

end Sys2Proof.Machine
end

