-- ==== Sys2Proof/Machine/Flits.lean ====
section
/-!
DEFINITION. The flits of the Fremas link ports: their layout, the sender with its replay buffer and key slots, and the receiver (27 R470
to R473).
-/
namespace Sys2Proof.Machine

-- layout (R470)

/-- The header of a flit, sent in clear. -/
def flitHeader (slot ctr : Nat) (marker : Bool) : List Byte :=
  natBytes 8 ctr ++ [BitVec.ofNat 8 ((if marker then 2 else 1) + 16 * slot)] ++ List.replicate 7 0

def linkIv (k : LinkKey) (ctr : Nat) : List Byte := bigBytes 4 k.salt.toNat ++ bigBytes 8 ctr

/-- Bytes brought to a length with zeros. -/
def padTo (n : Nat) (l : List Byte) : List Byte := l.take n ++ List.replicate (n - l.length) 0

def makeFlit (k : LinkKey) (slot ctr : Nat) (marker : Bool) (payload : List Byte) : List Byte :=
  let h := flitHeader slot ctr marker
  let (c, t) := gcmSeal (keyBytes k.key) (linkIv k ctr) h (padTo 224 payload)
  h ++ c ++ t

def LinkKey.empty : LinkKey := { valid := false, key := 0, salt := 0 }

def keyOf (keys : Tbl LinkKey) (slot : Nat) : LinkKey := tgetD keys slot LinkKey.empty

-- the sender (R472, R473)

/-- A key marker is due: the other slot is valid and the next counter is high. -/
def Port.markDue (p : Port) : Bool := (keyOf p.txKeys (1 - p.txSlot)).valid && decide (0xF0000000 ≤ p.txCtr)

/-- A flit can go out now. -/
def Port.maySend (p : Port) : Bool :=
  p.up && !p.failed && (keyOf p.txKeys p.txSlot).valid && decide (p.replay.length < 512)

def Port.sent (p : Port) (marker : Bool) (payload : List Byte) : Port :=
  { p with txCtr := p.txCtr + 1
           replay := p.replay ++ [{ slot := p.txSlot, ctr := p.txCtr, marker,
                                    bytes := makeFlit (keyOf p.txKeys p.txSlot) p.txSlot p.txCtr marker payload }] }

/-- The waiting packets go out in order as far as they can: data flits use counters below 0xFFFF_FFFF. -/
def Port.pump : Nat → Port → Port
  | 0, p => p
  | n + 1, p =>
    match p.queue with
    | [] => p
    | k :: rest =>
      if p.maySend && !p.markDue && decide (p.txCtr < 0xFFFFFFFF) then ({ p.sent false k with queue := rest }).pump n else p

/-- A transaction packet joins a port's traffic. -/
def sendPacket (d : Device) (port : Nat) (packet : List Byte) : Device :=
  d.modPort port (fun p => ({ p with queue := p.queue ++ [padTo 224 packet] }).pump (p.queue.length + 1))

/-- KEY_MARKER_SEND (R472). -/
def execKeyMarkerSend (port : Nat) (s : State) : Host.Outcome State Fault Refusal :=
  devStep s (fun d =>
    let p := d.port port
    if p.maySend && p.markDue then
      let (n, d) := d.draw
      let p := p.sent true ((List.range 224).map (Config.markerByte n))
      d.setPort port (({ p with txSlot := 1 - p.txSlot, txCtr := 0 }).pump p.queue.length)
    else d)

/-- A key slot becomes invalid (log entry 23, DEDUCED). -/
def dropKey (keys : Tbl LinkKey) (slot : Nat) : Tbl LinkKey := tput keys slot { keyOf keys slot with valid := false }

/-- FLIT_ACKNOWLEDGE (R472): the flits up to the acknowledged one leave the replay buffer; a marker's acknowledgement makes its
slot invalid. -/
def execFlitAcknowledge (port slot counter : Nat) (s : State) : Host.Outcome State Fault Refusal :=
  devStep s (fun d => d.modPort port (fun p =>
    match p.replay.findIdx? (fun f => f.slot == slot && f.ctr == counter) with
    | none => p
    | some i =>
      let gone := p.replay.take (i + 1)
      let keys := gone.foldl (fun (k : Tbl LinkKey) (f : SentFlit) => if f.marker then dropKey k f.slot else k) p.txKeys
      ({ p with replay := p.replay.drop (i + 1), txKeys := keys, naks := 0 }).pump p.queue.length))

/-- LINK_KEY_PROVISION (R471): only an invalid slot is written. -/
def execLinkKeyProvision (port : Nat) (sending : Bool) (slot : Nat) (key : BitVec 256) (salt : Word) (s : State) :
    Host.Outcome State Fault Refusal :=
  hostStep s (fun d =>
    if 12 ≤ port ∨ 2 ≤ slot then d
    else
      d.modPort port (fun p =>
        let put (keys : Tbl LinkKey) : Tbl LinkKey := if (keyOf keys slot).valid then keys else tput keys slot { valid := true, key, salt }
        if sending then ({ p with txKeys := put p.txKeys }).pump p.queue.length else { p with rxKeys := put p.rxKeys }))

-- the receiver (R473)

def flitCtr (f : List Byte) : Nat := bytesNat (f.take 8)
def flitType (f : List Byte) : Nat := (f.getD 8 0).toNat
def flitSlot (f : List Byte) : Nat := flitType f / 16 % 2

/-- A flit of a kind with its header's zeros in place. -/
def flitIs (f : List Byte) (kind : Nat) : Bool :=
  f.length == 256 && flitType f % 16 == kind && flitType f / 32 == 0 && ((f.drop 9).take 7).all (· == 0)

/-- What the receiver makes of an arriving flit. -/
inductive Received where
  | accepted (payload : List Byte)
  | ignored
  | asked
  deriving DecidableEq, Repr

/-- Log entry 23, DEDUCED. -/
def Port.judge (p : Port) (f : List Byte) (kind : Nat) : Received :=
  let k := keyOf p.rxKeys p.rxSlot
  if f.length = 256 ∧ flitSlot f = p.rxSlot ∧ flitCtr f < p.rxCtr then .ignored
  else if !k.valid || !flitIs f kind || flitSlot f != p.rxSlot || flitCtr f != p.rxCtr then .asked
  else
    match gcmOpen (keyBytes k.key) (linkIv k p.rxCtr) (f.take 16) ((f.drop 16).take 224) (f.drop 240) with
    | some x => .accepted x
    | none => .asked

/-- The receiver after a flit it did not accept: it has asked for its expected counter, or dropped the flit silently. -/
def Port.refuse (p : Port) (r : Received) : Port :=
  match r with
  | .asked => { p with wantReplay := some p.rxCtr }
  | _ => p

/-- The step that a delivered packet leads to, by its OP (R474). -/
def packetEvent (port : Nat) (packet : List Byte) : Option Instr :=
  match (packet.getD 0 0).toNat with
  | 1 => some (.remoteWrite port packet)
  | 2 => some (.readRequest port packet)
  | 3 => some (.readData port packet)
  | 4 => some (.writeCompletion port packet)
  | _ => none

/-- FLIT_RECEIVE (R473): an accepted flit is acknowledged and its packet delivered, as a step to come. -/
def execFlitReceive (port : Nat) (flit : List Byte) (s : State) : Host.Outcome State Fault Refusal :=
  let p := s.dev.port port
  if !p.up then .next s
  else
    match p.judge flit 1 with
    | .accepted x =>
      let p2 := { p with rxCtr := p.rxCtr + 1, wantReplay := none, acked := some (p.rxSlot, p.rxCtr) }
      .next { s with dev := s.dev.setPort port p2, agenda := s.agenda ++ ((packetEvent port x).map Turn.event).toList }
    | r => .next { s with dev := s.dev.setPort port (p.refuse r) }

/-- KEY_MARKER_RECEIVE (R473): the receiver expects the other slot from counter 0; the old one is invalid once the marker is
acknowledged (R472). -/
def execKeyMarkerReceive (port : Nat) (flit : List Byte) (s : State) : Host.Outcome State Fault Refusal :=
  devStep s (fun d => d.modPort port (fun p =>
    if !p.up then p
    else
      match p.judge flit 2 with
      | .accepted _ =>
        { p with rxKeys := dropKey p.rxKeys p.rxSlot, rxSlot := 1 - p.rxSlot, rxCtr := 0, wantReplay := none,
                 acked := some (p.rxSlot, p.rxCtr) }
      | r => p.refuse r))

-- transaction packets (R474)

structure Packet where
  op : Nat
  len : Nat
  tag : Nat
  world : Nat
  region : Nat
  offset : Nat
  akey : Nat
  status : Nat
  data : List Byte
  deriving DecidableEq, Repr

def Packet.bytes (p : Packet) : List Byte :=
  natBytes 1 p.op ++ natBytes 1 p.len ++ natBytes 2 p.tag ++ natBytes 1 p.world ++ natBytes 1 p.region ++ [0, 0] ++
    natBytes 8 p.offset ++ natBytes 8 p.akey ++ natBytes 1 p.status ++ List.replicate 7 0 ++ padTo 192 p.data

def packetOf (b : List Byte) : Packet :=
  let f (o n : Nat) : Nat := bytesNat ((b.drop o).take n)
  { op := f 0 1, len := f 1 1, tag := f 2 2, world := f 4 1, region := f 5 1, offset := f 8 8, akey := f 16 8, status := f 24 1,
    data := (b.drop 32).take (f 1 1) }

/-- A packet whose zero fields are zero and whose length is in range. -/
def packetGood (b : List Byte) : Bool :=
  let p := packetOf b
  1 ≤ p.len && decide (p.len ≤ 192) && ((b.drop 6).take 2).all (· == 0) && ((b.drop 25).take 7).all (· == 0) &&
    decide (p.offset < 2 ^ 40)

end Sys2Proof.Machine
end

