-- ==== Sys2Proof/Machine/MatrixMath.lean ====
section
/-!
DEFINITION. The arithmetic of one accumulator element (03 R95 to R101) and the layout of the tiles (17 R341, R342, R345).
-/
namespace Sys2Proof.Machine

/-- The element formats of AFMT and BFMT (01 R12). -/
inductive MFmt where
  | bf16 | e4m3 | e5m2 | e2m1 | lg6 | i8
  deriving DecidableEq, Repr

def MFmt.ofCode (c : Nat) : Option MFmt := [MFmt.bf16, .e4m3, .e5m2, .e2m1, .lg6, .i8][c]?

def fmtA (f : Word) : Option MFmt := MFmt.ofCode (natBits f.toNat 0 4)
def fmtB (f : Word) : Option MFmt := MFmt.ofCode (natBits f.toNat 4 4)
def fmtScale (f : Word) : Bool := natBits f.toNat 8 2 == 1
def fmtLgacc (f : Word) : Bool := natBits f.toNat 14 2 == 1

def MFmt.isFp8 (f : MFmt) : Bool := f == .e4m3 || f == .e5m2

/-- R95: the pairs that MMA accepts. -/
def pairAccepted (f : Word) : Bool :=
  match fmtA f, fmtB f with
  | some a, some b =>
    (a.isFp8 && b.isFp8) || (a == b && (a == .e2m1 || a == .lg6)) || (a == b && (a == .bf16 || a == .i8) && !fmtScale f)
  | _, _ => false

/-- The bytes of n elements. -/
def MFmt.bytes (f : MFmt) (n : Nat) : Nat :=
  match f with
  | .bf16 => 2 * n
  | .e2m1 => n / 2
  | _ => n

/-- R342: a tile's line length for n elements of a line. -/
def lineLen (f : MFmt) (scale : Bool) (n : Nat) : Nat := f.bytes n + (if scale then 2 else 0)

/-- Element k of the line that starts at byte `at_` of a tile (R341). -/
def tileElem (f : MFmt) (tile : List Byte) (at_ k : Nat) : Nat :=
  let byte (i : Nat) : Nat := (tile.getD (at_ + i) 0).toNat
  match f with
  | .bf16 => byte (2 * k) + 256 * byte (2 * k + 1)
  | .e2m1 => natBits (byte (k / 2)) (4 * (k % 2)) 4
  | .lg6 => byte k % 64
  | _ => byte k

def MFmt.value (f : MFmt) (code : Nat) : Exact :=
  match f with
  | .bf16 => Sys2Proof.Machine.bf16.value code
  | .e4m3 => Sys2Proof.Machine.e4m3.value code
  | .e5m2 => Sys2Proof.Machine.e5m2.value code
  | .e2m1 => Sys2Proof.Machine.e2m1.value code
  | .lg6 => .zero false
  | .i8 => .ofInt (sextNat code 8)

/-- A block's sum, and whether a product of the block is not zero. -/
abbrev BlockSum := Exact × Bool

/-- The special products of R98; otherwise the given finite sum. -/
def withSpecials (ps : List Exact) (sum : Exact) : BlockSum :=
  let some_ := ps.any (fun p => !p.isZero)
  let inf (neg : Bool) : Bool := ps.any (fun p => match p with | .inf n => n == neg | _ => false)
  if ps.any Exact.isNan || (inf true && inf false) then (.nan, some_)
  else if inf true then (.inf true, some_)
  else if inf false then (.inf false, some_)
  else (sum, some_)

/-- R98, R101: the exact sum of the products. -/
def exactBlock (fa fb : MFmt) (ab : List (Nat × Nat)) : BlockSum :=
  let ps := ab.map (fun x => (fa.value x.1).mul (fb.value x.2))
  withSpecials ps (ps.foldl (Exact.add false) (.zero false))

/-- R100: products aligned to the largest and truncated to a 48-bit window. -/
def bf16Block (ab : List (Nat × Nat)) : BlockSum :=
  let ps := ab.map (fun x => (bf16.value x.1).mul (bf16.value x.2))
  let top (p : Exact) : Option Int := match p with
    | .num _ m e _ => if m = 0 then none else some ((Nat.log2 m : Int) + e + 1)
    | _ => none
  match ps.filterMap top with
  | [] => withSpecials ps (.zero false)
  | x :: t =>
    let e := t.foldl max x
    let term (p : Exact) : Int := match p with
      | .num neg m k _ =>
        let s := k + 48 - e
        signedNat neg (if 0 ≤ s then m * 2 ^ s.toNat else m / 2 ^ (-s).toNat)
      | _ => 0
    withSpecials ps (.scaled ((ps.map term).foldl (· + ·) 0) (e - 48))

/-- R99: an LG6 block on the linearization table. -/
def lg6Block (ab : List (Nat × Nat)) : BlockSum :=
  let term (x : Nat × Nat) : Int :=
    if x.1 % 32 = 0 ∨ x.2 % 32 = 0 then 0
    else
      let s : Int := ((x.1 % 32 : Nat) : Int) + (x.2 % 32 : Nat) - 32
      signedNat (x.1 / 32 % 2 != x.2 / 32 % 2) (lgTable (s % 4).toNat * 2 ^ (s / 4 + 8).toNat)
  (.scaled ((ab.map term).foldl (· + ·) 0) (-30), ab.any (fun x => x.1 % 32 != 0 && x.2 % 32 != 0))

def blockSum (fa fb : MFmt) (ab : List (Nat × Nat)) : BlockSum :=
  match fa with
  | .bf16 => bf16Block ab
  | .lg6 => lg6Block ab
  | _ => exactBlock fa fb ab

/-- R96: acc_add of the floating-point and logarithmic pairs. -/
def accAdd (acc : Nat) (s : BlockSum) : Nat :=
  let a := fp32.value acc
  if a.isNan || s.1.isNan then 0x7FC00000
  else if s.1.isZero && !s.2 then acc
  else
    let v := a.add false s.1
    if v.isZero then 0 else roundFloat v fp32 .near false 0

/-- R96: acc_add of an i8 pair. -/
def accAddInt (acc : Nat) (s : BlockSum) : Nat :=
  match s.1 with
  | .num neg m e _ => wrapNat ((acc : Int) + signedNat neg (m * 2 ^ e.toNat)) 32
  | _ => acc

/-- R96: one element's update by the two blocks of a K-step, with the scales of its A row and B column. -/
def elemUpdate (f : Word) (fa fb : MFmt) (acc : Nat) (blocks : List (List (Nat × Nat))) (sa sb : List Nat) : Nat :=
  let sum (b : Nat) : BlockSum :=
    let s := blockSum fa fb (blocks.getD b [])
    if fmtScale f then (scaledBy s.1 (sa.getD b 0) (sb.getD b 0), s.2) else s
  let s0 := sum 0
  let s1 := sum 1
  if fa = .i8 then accAddInt (accAddInt acc s0) s1
  else if fa = .lg6 ∧ fmtLgacc f then accAdd acc (s0.1.add false s1.1, s0.2 || s1.2)
  else accAdd (accAdd acc s0) s1

/-- The pairs of block b for row i of A and column j of B (R344), or by a sparsity entry's row (R345). -/
def blockPairs (fa fb : MFmt) (ta tb : List Byte) (la lb i j b : Nat) : Option Nat → List (Nat × Nat)
  | none => (List.range 32).map (fun k => (tileElem fa ta (i * la) (32 * b + k), tileElem fb tb (j * lb) (32 * b + k)))
  | some q =>
    (List.range 8).flatMap (fun h =>
      let g := 8 * b + h
      let n := natBits q (4 * g) 4
      [(tileElem fa ta (i * la) (2 * g), tileElem fb tb (j * lb) (4 * g + n % 4)),
       (tileElem fa ta (i * la) (2 * g + 1), tileElem fb tb (j * lb) (4 * g + n / 4))])

/-- The new element (i, j) after a K-step. `q` is the sparsity entry's bytes. -/
def kstepElem (f : Word) (fa fb : MFmt) (ta tb : List Byte) (q : Option (List Byte)) (acc i j : Nat) : Nat :=
  let na := if q.isSome then 32 else 64
  let la := lineLen fa (fmtScale f) na
  let lb := lineLen fb (fmtScale f) 64
  let row := q.map (fun e => bytesNat ((e.drop (8 * i)).take 8))
  let blocks := [0, 1].map (fun b => blockPairs fa fb ta tb la lb i j b row)
  let scales (t : List Byte) (at_ : Nat) : List Nat := [(t.getD at_ 0).toNat, (t.getD (at_ + 1) 0).toNat]
  elemUpdate f fa fb acc blocks (scales ta (i * la + fa.bytes na)) (scales tb (j * lb + fb.bytes 64))

end Sys2Proof.Machine
end

