-- ==== Sys2Proof/Machine/Matrix.lean ====
section
/-!
DEFINITION. The matrix port: MMA, accumulator, ring and queue commands (17 R338 to R353), and the matrix engine that performs them in
port order (16 R321 to R328).
-/
namespace Sys2Proof.Machine

-- the E slot

/-- An E operation: nothing when guarded off; cause 0x07 for an absent literal (02 R57). -/
def engSlot (o : EOp) (s : State) (f : Work → SlotRes) : Host.Outcome State Fault Refusal :=
  runSlot 4 s (fun w =>
    if !Guard.holds o.guard w.b.regs 0 then .ok w
    else if litMissing w.b.lits o.src then .trap (causeOf 0x07)
    else f w)

/-- One that names an accumulator tile: cause 0x60 whatever the guard holds (11 R240). -/
def accSlot (o : EOp) (s : State) (f : Work → SlotRes) : Host.Outcome State Fault Refusal :=
  runSlot 4 s (fun w =>
    let tiles := match w.dev.launchOf w.b.gid with | some (_, l) => l.spine.tiles | none => 0
    if tiles ≤ o.acc.toNat then .trap (causeOf 0x60)
    else if !Guard.holds o.guard w.b.regs 0 then .ok w
    else if litMissing w.b.lits o.src then .trap (causeOf 0x07)
    else f w)

/-- SRC as 32 bits. -/
def engWord (w : Work) (o : EOp) : Nat := readOperand w.b.regs w.b.lits o.src 0 1

/-- x[XB + k]. -/
def engX (w : Work) (o : EOp) (k : Nat) : Nat := (w.b.regs.xAt (o.xb.toNat + k)).toNat

-- delivery of a deferred engine trap (16 R484)

/-- A deferred trap of an engine operation: to its group, else for kind L to the lowest surviving group of the team, else to the error
log. A copy request's fault is of kind L whatever its cause (20 R397). -/
def engineTrap (d : Device) (group team : Nat) (bpc : DWord) (slotB : Bool) (cause addr : Nat) (kind : Kind) : Device :=
  let t : TrapInfo := { cause, code := 0, lane := none, addr, slot := 4, write := false, bpc, slotB, defer := true }
  let alive (id : Nat) : Bool := match d.group (.user id) with | some g => !g.retired && !g.halted | none => false
  let next := match d.team team with
    | some tm => if kind = Kind.ends then tm.groups.find? alive else none
    | none => none
  if alive group then takeTrapAs d (.user group) t kind
  else
    match next with
    | some id => takeTrapAs d (.user id) t kind
    | none =>
      match d.group (.user group), d.launchOf (.user group) with
      | some g, some (lid, l) =>
        let rec_ := trapRecord t g.index false (g.core.pathPc 0)
        let (d, seq) := logEntry d l.part (recordEntry d (.user group) t g.index rec_)
        let d := noteCause d lid cause seq
        if kind = Kind.ends then endLaunch (d.modLaunch lid (fun l => { l with status := 3 })) lid
        else d.modLaunch lid (fun l => if l.status = 0 then { l with status := 4 } else l)
      | _, _ => d

/-- A deferred trap of a matrix command. -/
def matrixTrap (d : Device) (m : MxCmd) (cause addr : Nat) : Device :=
  engineTrap d m.group m.team m.bpc m.slotB cause addr (causeKind cause false)

-- the port queue

/-- The ring a matrix command configures or resets, if it is one. -/
def MxCmd.ringCmd (m : MxCmd) : Option Nat :=
  match m.kind with
  | .ringCfg r _ => some r
  | .ringRst r => some r
  | _ => none

/-- Reserves a command's pops on a ring where they stand now: `tget` of RHEAD (16 R323, 17 R343). -/
def reserveOn (r : Ring) (ring : Nat) (m : MxCmd) : Ring × MxCmd :=
  match m.kind with
  | .mma _ ka kb sq n =>
    if m.resA.isNone && ka == ring && kb == ring then
      ({ r with rhead := r.rhead + 2 * n }, { m with resA := some r.rhead, resB := some (r.rhead + 1) })
    else if m.resA.isNone && ka == ring then ({ r with rhead := r.rhead + n }, { m with resA := some r.rhead })
    else if m.resB.isNone && kb == ring then ({ r with rhead := r.rhead + n }, { m with resB := some r.rhead })
    else if m.resQ.isNone && sq == ring then ({ r with rhead := r.rhead + n }, { m with resQ := some r.rhead })
    else (r, m)
  | _ => (r, m)

/-- After a ring command's effect, the commands behind it reserve on the ring, up to the next command for it (17 R351). -/
def reserveQueue (team ring : Nat) : List MxCmd → Ring → Ring × List MxCmd
  | [], r => (r, [])
  | m :: t, r =>
    if m.team = team ∧ m.ringCmd = some ring then (r, m :: t)
    else
      let (r, m2) := if m.team = team then reserveOn r ring m else (r, m)
      let (r, t) := reserveQueue team ring t r
      (r, m2 :: t)

/-- The values of the next commands' checks (17 R343): those of a waiting RING.CFG first. -/
def Ring.portConf (r : Ring) : Option RingConf := match r.view with | some c => some c | none => r.conf

/-- The state word of a ring (16 R322). -/
def Ring.word (r : Ring) : Nat :=
  match r.conf with
  | none => 0
  | some c => 2 ^ 56 + r.tail % 256 * 2 ^ 48 + r.head % 256 * 2 ^ 40 + c.tcount * 2 ^ 32 + c.tsize % 256 * 2 ^ 24 + c.base

/-- A group's accumulator rows change, and those of its kept state: no rollback undoes an engine command (20 R392). -/
def modAcc (d : Device) (id : Nat) (f : GCore → GCore) : Device :=
  d.modGroup (.user id) (fun g => { g with core := f g.core, ck := f g.ck })

def zeroRows (tile : Nat) (rows : LaneMask) (c : GCore) : GCore :=
  (lanesOf rows).foldl (fun c i => (List.range 32).foldl (fun c j => c.setAcc tile i j 0) c) c

def popHead (d : Device) (core : Nat) : Device := d.modCore core (fun c => { c with mq := c.mq.drop 1 })

/-- Data of an engine command's register result (17 R348, R353). -/
def engineResult (d : Device) (id op : Nat) (vals : Pending → Tbl (List Word)) : Device :=
  match d.group (.user id) with
  | some g =>
    arrived (d.modGroup (.user id) (fun g => fillPending g op (fun p => { p with vals := vals p, arrived := true }))) (.user id)
      g.waitsData
  | none => d

/-- Whether the head command's tile has no earlier transfer to wait for (16 R321). -/
def tileClear (d : Device) (m : MxCmd) : Bool :=
  match d.group (.user m.group) with
  | some g => !g.core.tiles.any (fun t => m.usesTile t.tile && decide (t.op < m.op))
  | none => true

/-- The rows of a lane in every tile, as an image holds them. -/
def GCore.rowsOf (c : GCore) (lane : Nat) : Tbl Word :=
  c.acc.filterMap (fun x => if x.1 / 32 % 32 = lane then some (32 * (x.1 / 1024) + x.1 % 32, x.2) else none)

/-- A group's arrival takes its accumulator rows and is complete (18 R375). -/
def takeRows (d : Device) (id pop round : Nat) : Device :=
  match d.group (.user id) with
  | none => d
  | some g =>
    modPopul d (d.partOf (.user id)) pop (fun x =>
      { x with rounds := x.rounds.map (fun r =>
          if r.1 = round then
            (r.1, { r.2 with arrived := r.2.arrived.map (fun a =>
              if a.group = id then { a with ready := true, image := { a.image with acc := g.core.rowsOf a.lane } } else a) })
          else r) })

/-- Performs a head command that waits for nothing but its tile; false when the head must wait for an event of its own. -/
def settleHead (d : Device) (core : Nat) : Option Device :=
  match (d.core core).mq with
  | [] => none
  | m :: _ =>
    if !tileClear d m then none
    else
      match m.kind with
      | .accZero => some (popHead (modAcc d m.group (zeroRows m.tile m.rows)) core)
      | .accWr chunk vals =>
        some (popHead (modAcc d m.group (fun c =>
          (lanesOf m.rows).foldl
            (fun c i => ((tgetD vals i []).zipIdx).foldl (fun c x => c.setAcc m.tile i (4 * chunk + x.2) x.1) c) c)) core)
      | .accRd chunk op =>
        let row (c : GCore) (i : Nat) : List Word := (List.range 4).map (fun k => c.accAt m.tile i (4 * chunk + k))
        match d.group (.user m.group) with
        | some g => some (popHead (engineResult d m.group op (fun _ => (lanesOf m.rows).map (fun i => (i, row g.core i)))) core)
        | none => some (popHead d core)
      | .ringStat ring op =>
        let w := match d.team m.team with | some t => (t.ring ring).word | none => 0
        some (popHead (engineResult d m.group op (fun p =>
          if p.uni then [(0, wordsOf 2 w)] else (lanesOf m.rows).map (fun i => (i, wordsOf 2 w)))) core)
      | .arrival pop round => some (popHead (takeRows d m.group pop round) core)
      | .cloneRows rsmp lane acc =>
        some (popHead (d.modGroup (.user m.group) (fun g =>
          { g with core := g.core.cloneRows lane acc
                   ck := if g.ck.pend.any (fun p => p.op == rsmp) then g.ck else g.ck.cloneRows lane acc })) core)
      | .mma _ _ _ _ _ | .ringCfg _ _ | .ringRst _ => none

/-- The port's commands take effect in order as far as none of them waits, and tile transfers whose turn comes with them. -/
def settleQueue (d : Device) (core : Nat) : Nat → Device
  | 0 => d
  | n + 1 =>
    let d := (coreGids d core).foldl (fun d g => match g with | .user id => settleTiles d core id 64 | .fw _ => d) d
    match settleHead d core with
    | some d => settleQueue d core n
    | none => d

def settleAll (d : Device) (core : Nat) : Device := settleQueue d core 17

/-- A command passes the port. -/
def pushCmd (w : Work) (m : MxCmd) : SlotRes :=
  if 16 ≤ (w.dev.core w.coreNo).mq.length then .wait none
  else .ok { w with dev := settleAll (w.dev.modCore w.coreNo (fun c => { c with mq := c.mq ++ [m] })) w.coreNo }

/-- A command of the open bundle. -/
def Work.cmd (w : Work) (team op tile : Nat) (kind : MxKind) : MxCmd :=
  { group := w.id, team, kind, tile, rows := w.slotLanes, fmt := w.b.fmt, step := 0, resA := none, resB := none, resQ := none,
    zero := false, bpc := w.b.pc, slotB := w.b.slotB, op }

-- MMA and MMA.SP (17 R343 to R345)

/-- The rings of a command and the pops on each: a ring that serves both sides has them together. -/
def mmaRings (sparse : Bool) (ka kb sq : Nat) : List Nat := ([ka, kb] ++ (if sparse then [sq] else [])).eraseDups

/-- The checks from the count on, in order; the port views decide. -/
def mmaCause (w : Work) (t : Team) (sparse : Bool) (ka kb sq n : Nat) : Option Nat :=
  if n = 0 ∨ 255 < n then some 0x64
  else if !pairAccepted w.b.fmt then some 0x43
  else
    match (t.ring ka).portConf, (t.ring kb).portConf with
    | some a, some b =>
      if sparse && (t.ring sq).portConf.isNone then some 0x62
      else
        match fmtA w.b.fmt, fmtB w.b.fmt with
        | some fa, some fb =>
          let sc := fmtScale w.b.fmt
          if 2 * a.tsize ≠ lineLen fa sc (if sparse then 32 else 64) ∨ 2 * b.tsize ≠ lineLen fb sc 64 then some 0x63 else none
        | _, _ => some 0x43
    | _, _ => some 0x61

/-- Reserves on each ring of a command whose ring commands have all taken effect; none while another group owns a ring's pops (16
R323), and when RHEAD would run 255 ahead. -/
def reserveAll (t : Team) (rings : List Nat) (m : MxCmd) : Option (Team × MxCmd) :=
  match rings with
  | [] => some (t, m)
  | k :: rest =>
    if (t.ring k).waiting ≠ 0 then reserveAll t rest m
    else if (t.ring k).popOwner.isSome && (t.ring k).popOwner != some (.group m.group) then none
    else
      let (r, m) := reserveOn (t.ring k) k m
      if 255 < r.rhead - r.head then none else reserveAll (t.setRing k r) rest m

def mmaSlot (sparse : Bool) (o : EOp) (s : State) : Host.Outcome State Fault Refusal :=
  accSlot o s (fun w =>
    match w.dev.teamOf w.b.gid with
    | none => .trap (causeOf 0x61)
    | some (team, t) =>
      let n := engWord w o
      let ka := o.ka.toNat
      let kb := o.kb.toNat
      let sq := if sparse then 16 + o.cmd.toNat / 2 % 4 else 32
      match mmaCause w t sparse ka kb sq n with
      | some c => .trap (causeOf c)
      | none =>
        let (op, w) := w.nextOp
        let m := { w.cmd team op o.acc.toNat (.mma sparse ka kb sq n) with zero := o.cmd.getLsbD 0 }
        if 16 ≤ (w.dev.core w.coreNo).mq.length then .wait none
        else
          match reserveAll t (mmaRings sparse ka kb sq) m with
          | none => .wait none
          | some (t, m) => pushCmd { w with dev := w.dev.setTeam team t } m)

/-- MMA. -/
def execMma (o : EOp) (s : State) : Host.Outcome State Fault Refusal := mmaSlot false o s

/-- MMA.SP. -/
def execMmaSp (o : EOp) (s : State) : Host.Outcome State Fault Refusal := mmaSlot true o s

-- accumulator commands (17 R347 to R349)

/-- A command on an accumulator tile of the issuing group. -/
def accCmd (o : EOp) (s : State) (f : Work → Nat → Nat → SlotRes) : Host.Outcome State Fault Refusal :=
  accSlot o s (fun w =>
    match w.dev.teamOf w.b.gid with
    | none => .ok w
    | some (team, _) => let (op, w) := w.nextOp; f w team op)

/-- ACC.ZERO. -/
def execAccZero (o : EOp) (s : State) : Host.Outcome State Fault Refusal :=
  accCmd o s (fun w team op => pushCmd w (w.cmd team op o.acc.toNat .accZero))

/-- ACC.RD: its result lands by lookahead. -/
def execAccRd (o : EOp) (s : State) : Host.Outcome State Fault Refusal :=
  accCmd o s (fun w team op =>
    match o.dst with
    | .v n =>
      let p := { w.pending op w.b.lookE w.slotLanes (.v n.toNat 4) false with arrived := false }
      pushCmd (w.addPending p) (w.cmd team op o.acc.toNat (.accRd (o.cmd.toNat % 8) op))
    | _ => .ok w)

/-- The four words of each live lane of the slot. -/
def accSource (w : Work) (o : EOp) : Tbl (List Word) :=
  (lanesOf w.slotLanes).map (fun l => (l, wordsOf 4 (readOperand w.b.regs w.b.lits o.src l 4)))

/-- ACC.WR. -/
def execAccWr (o : EOp) (s : State) : Host.Outcome State Fault Refusal :=
  accCmd o s (fun w team op => pushCmd w (w.cmd team op o.acc.toNat (.accWr (o.cmd.toNat % 8) (accSource w o))))

-- ring and queue commands (17 R350 to R353)

/-- The parameters of x[XB], or none where they are invalid (R351). -/
def ringParams (x : Nat) (queue : Bool) : Option RingConf :=
  let base := natBits x 0 24
  let ts := natBits x 24 8
  let tsize := if ts = 0 then 256 else ts
  let tcount := natBits x 32 8
  if natBits x 40 24 ≠ 0 ∨ tcount = 0 ∨ 64 < tcount ∨ base % 64 ≠ 0 ∨ stackBase < base + tcount * tsize * 64 ∨
      (queue ∧ ts ≠ 4) then none
  else some { base, tsize, tcount }

/-- A ring command waits in port order until it may take effect. -/
def ringCommand (w : Work) (team ring : Nat) (kind : MxKind) (view : Option RingConf) : SlotRes :=
  let (op, w) := w.nextOp
  let m := { w.cmd team op 16 kind with tile := 16 }
  if 16 ≤ (w.dev.core w.coreNo).mq.length then .wait none
  else
    let d := w.dev.modTeam team (fun t =>
      let r := t.ring ring
      t.setRing ring { r with waiting := r.waiting + 1, view := if view.isSome then view else r.view })
    pushCmd { w with dev := d } m

def cfgSlot (queue : Bool) (o : EOp) (s : State) : Host.Outcome State Fault Refusal :=
  engSlot o s (fun w =>
    match ringParams (engX w o 0) queue, w.dev.teamOf w.b.gid with
    | none, _ => .trap (causeOf 0x65)
    | some _, none => .ok w
    | some c, some (team, _) =>
      let ring := if queue then 16 + o.ka.toNat % 4 else o.ka.toNat
      ringCommand w team ring (.ringCfg ring c) (some c))

/-- RING.CFG. -/
def execRingCfg (o : EOp) (s : State) : Host.Outcome State Fault Refusal := cfgSlot false o s

/-- SQ.CFG. -/
def execSqCfg (o : EOp) (s : State) : Host.Outcome State Fault Refusal := cfgSlot true o s

/-- The ring or queue that KA and CMD[0] name. -/
def ringNamed (o : EOp) : Nat := if o.cmd.getLsbD 0 then 16 + o.ka.toNat % 4 else o.ka.toNat

/-- RING.RST: nothing on a ring that is not configured. -/
def execRingRst (o : EOp) (s : State) : Host.Outcome State Fault Refusal :=
  engSlot o s (fun w =>
    match w.dev.teamOf w.b.gid with
    | none => .ok w
    | some (team, _) => ringCommand w team (ringNamed o) (.ringRst (ringNamed o)) none)

/-- RING.STAT. -/
def execRingStat (o : EOp) (s : State) : Host.Outcome State Fault Refusal :=
  engSlot o s (fun w =>
    match w.dev.teamOf w.b.gid with
    | none => .ok w
    | some (team, _) =>
      let (op, w) := w.nextOp
      let (dst, uni) : PendDst × Bool := match o.dst with
        | .v n => (.v n.toNat 2, false)
        | .s n => (.s n.toNat 2, true)
        | .null => (.none, false)
      let p := { w.pending op w.b.lookE w.slotLanes dst uni with arrived := false }
      pushCmd (w.addPending p) { w.cmd team op 16 (.ringStat (ringNamed o) op) with tile := 16 })

/-- Whether a copy request waits for ownership of a team's ring (16 R323), on whichever core it runs. -/
def copyQueued (d : Device) (team ring : Nat) : Bool :=
  d.cores.any (fun c => c.2.reqs.any (fun r => r.awaits team ring))

/-- The effect of a ring command: the counters return to 0, and the commands behind it reserve from there. -/
def ringEffect (d : Device) (core team ring : Nat) (conf : Option RingConf) : Device :=
  match d.team team with
  | none => popHead d core
  | some t =>
    let r := t.ring ring
    let left := r.waiting - 1
    let moreCfg := ((d.core core).mq.drop 1).any (fun m =>
      m.team == team && (match m.kind with | .ringCfg k _ => k == ring | _ => false))
    let c := match conf with | some c => some c | none => r.conf
    let r := { Ring.reset with conf := c, waiting := left, view := if moreCfg then r.view else none }
    let (r, rest) := reserveQueue team ring ((d.core core).mq.drop 1) r
    (d.setTeam team (t.setRing ring r)).modCore core (fun c => { c with mq := rest })

/-- RING_CFG_TAKE_EFFECT (R351): no owner, and no copy request queued for ownership. -/
def execRingCfgTakeEffect (core : Nat) (s : State) : Host.Outcome State Fault Refusal :=
  devStep s (fun d =>
    match (d.core core).mq with
    | m :: _ =>
      match m.kind, d.team m.team with
      | .ringCfg ring c, some t =>
        let r := t.ring ring
        if r.pushOwner.isSome || r.popOwner.isSome || copyQueued d m.team ring then d
        else settleAll (ringEffect d core m.team ring (some c)) core
      | _, _ => d
    | [] => d)

/-- RING_RST_TAKE_EFFECT (16 R325). -/
def execRingRstTakeEffect (core : Nat) (s : State) : Host.Outcome State Fault Refusal :=
  devStep s (fun d =>
    match (d.core core).mq with
    | m :: _ =>
      match m.kind, d.team m.team with
      | .ringRst ring, some t =>
        let r := t.ring ring
        if r.pushOwner.isSome || r.popOwner.isSome then d
        else if r.conf.isNone then
          settleAll (popHead (d.setTeam m.team (t.setRing ring { r with waiting := r.waiting - 1 })) core) core
        else settleAll (ringEffect d core m.team ring none) core
      | _, _ => d
    | [] => d)

-- the K-step (16 R326, R327)

/-- The popped tiles of a K-step: ring, position and configuration. -/
def kstepPops (t : Team) (m : MxCmd) : Option (List (Nat × Nat × RingConf)) :=
  match m.kind with
  | .mma sparse ka kb sq _ =>
    let stride := if ka = kb then 2 else 1
    match m.resA, m.resB, (t.ring ka).conf, (t.ring kb).conf with
    | some a, some b, some ca, some cb =>
      let base := [(ka, a + stride * m.step, ca), (kb, b + stride * m.step, cb)]
      if sparse then
        match m.resQ, (t.ring sq).conf with
        | some q, some cq => some (base ++ [(sq, q + m.step, cq)])
        | _, _ => none
      else some base
    | _, _, _, _ => none
  | _ => none

/-- Whether every tile is committed. -/
def popsReady (t : Team) (ps : List (Nat × Nat × RingConf)) : Bool := ps.all (fun p => decide (p.2.1 < (t.ring p.1).tail))

/-- Reads the tiles one after the other: the bytes of each, and the first poisoned word; none while a page waits for a frame (12
R272). -/
def fetchTiles (d : Device) (team : Nat) : List (Nat × Nat × RingConf) → Option (Device × List (List Byte) × Option Nat)
  | [] => some (d, [], none)
  | (_, n, c) :: t =>
    (fetchRange d team (c.tileAddr n) c.bytes).bind (fun r =>
      (fetchTiles r.dev team t).map (fun (d, tiles, bad) => (d, r.bytes :: tiles, r.poison.or bad)))

/-- The K-step's pops commit; the command leaves the queue with its last step. -/
def retireStep (d : Device) (core : Nat) (m : MxCmd) (ps : List (Nat × Nat × RingConf)) : Device :=
  let d := d.modTeam m.team (fun t => ps.foldl (fun t p => t.setRing p.1 ((t.ring p.1).popped p.2.1)) t)
  let last := match m.kind with | .mma _ _ _ _ n => decide (n ≤ m.step + 1) | _ => true
  d.modCore core (fun c =>
    { c with mq := if last then c.mq.drop 1 else { m with step := m.step + 1, zero := false } :: c.mq.drop 1 })

/-- The rows of the target tile after the K-step. -/
def kstepRows (m : MxCmd) (ta tb : List Byte) (q : Option (List Byte)) (c : GCore) : GCore :=
  match fmtA m.fmt, fmtB m.fmt with
  | some fa, some fb =>
    (lanesOf m.rows).foldl
      (fun r i => (List.range 32).foldl
        (fun r j => r.setAcc m.tile i j (BitVec.ofNat 32 (kstepElem m.fmt fa fb ta tb q (c.accAt m.tile i j).toNat i j))) r)
      c
  | _, _ => c

/-- The first byte of the popped tiles that a condition holds at. -/
def popAddr (ps : List (Nat × Nat × RingConf)) (f : Nat → Bool) : Option Nat :=
  ps.findSome? (fun p => ((List.range p.2.2.bytes).map (p.2.2.tileAddr p.2.1 + ·)).find? f)

/-- The product of a K-step whose tiles are read. A planted residue mismatch (16 R327) is corrected with a log entry, or it is the
deferred cause 0xC2. -/
def kstepProduct (d : Device) (core : Nat) (m : MxCmd) (ps : List (Nat × Nat × RingConf)) (tiles : List (List Byte)) : Device :=
  let part := d.partOf (.user m.group)
  let bad := if (d.part part).prot then (d.core core).residue else none
  let d := if bad.isSome then d.modCore core (fun c => { c with residue := none }) else d
  if bad = some true then matrixTrap (retireStep d core m ps) m 0xC2 0
  else
    let index := match d.group (.user m.group) with | some g => g.index | none => 0
    let d := if bad = some false then logPlain d part (plainEntry 0xC2 0 part srcCore (dieOf core) (some core) index false) else d
    retireStep (modAcc d m.group (kstepRows m (tiles.getD 0 []) (tiles.getD 1 []) tiles[2]?)) core m ps

/-- A K-step whose positions are committed: a popped position in an unmapped page is the deferred cause 0x23, a poisoned word of one
0xC1 (22 R425); the pops stand. -/
def kstep (d : Device) (core : Nat) (t : Team) (m : MxCmd) (ps : List (Nat × Nat × RingConf)) : Device :=
  let zeroed (d : Device) : Device := if m.zero then modAcc d m.group (zeroRows m.tile m.rows) else d
  match popAddr ps (fun a => decide ((t.page (a / pageSize)).state = .unmapped)) with
  | some a => settleAll (matrixTrap (retireStep (zeroed d) core m ps) m 0x23 a) core
  | none =>
    match fetchTiles d m.team ps with
    | none => d
    | some (d, _, some a) => settleAll (matrixTrap (retireStep (zeroed d) core m ps) m 0xC1 a) core
    | some (d, tiles, none) => settleAll (kstepProduct (zeroed d) core m ps tiles) core

/-- MATRIX_KSTEP: the head command's next step, when its tiles are available. -/
def execMatrixKstep (core : Nat) (s : State) : Host.Outcome State Fault Refusal :=
  devStep s (fun d =>
    match (d.core core).mq with
    | [] => d
    | m :: _ =>
      match d.team m.team with
      | none => d
      | some t =>
        match kstepPops t m with
        | none => d
        | some ps => if !popsReady t ps || !tileClear d m then d else kstep d core t m ps)

end Sys2Proof.Machine
end

