-- ==== Sys2Proof/Machine/CopyEngine.lean ====
section
/-!
DEFINITION. Copy requests (16 R329 to R332, R335, R337; 17 R354 to R359): their records, the checks, the transfer line by line, and
user-level interrupts (16 R333, 17 R360).
-/
namespace Sys2Proof.Machine

/-- A gated die is ungated before a copy request uses it (24 R440). -/
def ungate (d : Device) (die : Nat) : Device := if (d.die die).gated then d.modDie die (fun x => { x with gated := false }) else d

-- the record (17 R355)

def signed32 (x : Nat) : Int := if x < 2 ^ 31 then (x : Int) else (x : Int) - 2 ^ 32

def copyField (b : List Byte) (o n : Nat) : Nat := bytesNat ((b.drop o).take n)

def copyRecOf (b : List Byte) : CopyRec :=
  let f := copyField b
  { skind := f 0 1 % 16, dkind := f 0 1 / 16, count := f 1 1 % 2 == 1, uint := f 1 1 / 2 % 2 == 1, form := f 1 1 / 4 % 2 == 1,
    peer := f 2 2, x0 := f 4 4, x1 := f 0x18 2, x2 := f 0x1A 2, saddr := f 8 8, daddr := f 0x10 8, bobj := f 0x1C 4,
    sstr1 := signed32 (f 0x20 4), sstr2 := signed32 (f 0x24 4), dstr1 := signed32 (f 0x28 4), dstr2 := signed32 (f 0x2C 4),
    akey := BitVec.ofNat 64 (f 0x30 8) }

/-- The bits the record must hold 0. -/
def copyReserved (b : List Byte) : Bool := copyField b 1 1 / 8 != 0 || copyField b 0x38 8 != 0

-- the box (17 R357)

/-- The address of box byte n on a side, exact. -/
def boxAt (r : CopyRec) (base : Nat) (s1 s2 : Int) (n : Nat) : Int :=
  (base : Int) + ((n / r.x0 / r.x1 : Nat) : Int) * s2 + ((n / r.x0 % r.x1 : Nat) : Int) * s1 + ((n % r.x0 : Nat) : Int)

def CopyRec.src (r : CopyRec) (n : Nat) : Int := boxAt r r.saddr r.sstr1 r.sstr2 n
def CopyRec.dst (r : CopyRec) (n : Nat) : Int := boxAt r r.daddr r.dstr1 r.dstr2 n

/-- Whether every computed address of a side lies in 0 to 2^57 - 1: the corners of the box decide. -/
def boxInSpace (r : CopyRec) (base : Nat) (s1 s2 : Int) : Bool :=
  let corner (a b : Nat) : Int := (base : Int) + (a : Int) * s1 + (b : Int) * s2
  [corner 0 0, corner (r.x1 - 1) 0, corner 0 (r.x2 - 1), corner (r.x1 - 1) (r.x2 - 1)].all
    (fun a => decide (0 ≤ a) && decide (a + (r.x0 : Int) ≤ 2 ^ 57))

/-- The segments that a side of kind 0 touches, run by run (11 R253). -/
def sideSegs (r : CopyRec) (kind base : Nat) (s1 s2 : Int) : List Nat :=
  if kind ≠ 0 then []
  else
    ((List.range (r.x1 * r.x2)).flatMap (fun i =>
      let lo := (boxAt r base s1 s2 (i * r.x0)).toNat
      (List.range ((lo + r.x0 - 1) / segSize - lo / segSize + 1)).map (lo / segSize + ·))).eraseDups

/-- The segments whose busy count a request raises. -/
def CopyRec.segs (r : CopyRec) : List Nat :=
  (sideSegs r r.skind r.saddr r.sstr1 r.sstr2 ++ sideSegs r r.dkind r.daddr r.dstr1 r.dstr2).eraseDups

/-- A segment's busy count in a partition: the running requests that touch it. -/
def busyCount (d : Device) (part seg : Nat) : Nat :=
  (d.cores.flatMap (fun c => c.2.reqs.filter (fun r => r.moving && r.part == part && r.rcd.segs.contains seg))).length

-- validation at fetch (17 R356, R358)

/-- Fields that the kinds require to be 0. -/
def kindFields (kind addr : Nat) (s1 s2 : Int) : Bool :=
  match kind with
  | 1 => decide (addr < 2 ^ 53)
  | 2 => decide (addr < 2 ^ 32)
  | 4 => decide (addr < 16) && s1 == 0 && s2 == 0
  | 5 => decide (addr < 4) && s1 == 0 && s2 == 0
  | 6 => addr == 0 && s1 == 0 && s2 == 0
  | _ => true

/-- Step 3 of R358. -/
def copyValid (r : CopyRec) (reserved : Bool) : Bool :=
  !reserved && [0, 1, 2, 3, 6].contains r.skind && decide (r.dkind ≤ 5) && !(r.skind == 1 && r.dkind == 1) &&
    (r.skind == 1 || r.dkind == 1 || (r.peer == 0 && r.akey == 0)) && decide (1 ≤ r.x0) && decide (r.x0 ≤ 2 ^ 24) &&
    decide (1 ≤ r.x1) && decide (1 ≤ r.x2) && decide (r.total ≤ 2 ^ 32) && kindFields r.skind r.saddr r.sstr1 r.sstr2 &&
    kindFields r.dkind r.daddr r.dstr1 r.dstr2 && (r.skind != 0 || boxInSpace r r.saddr r.sstr1 r.sstr2) &&
    (r.dkind != 0 || boxInSpace r r.daddr r.dstr1 r.dstr2)

-- barrier objects (16 R330 to R332)

def readObj (d : Device) (team obj off n : Nat) : Nat :=
  match d.team team with
  | some t => bytesNat (scratchBytes d t (obj + off) n)
  | none => 0

def putObj (d : Device) (team obj off n x : Nat) : Device := scratchPutBytes d team (obj + off) (natBytes n x)

def poisonedObj (d : Device) (team a : Nat) : Bool :=
  match d.team team with
  | some t => scratchPoisoned d t a
  | none => false

/-- What counting bytes on an object comes to: it waits for the object's page, or a word it reads is poisoned. -/
inductive Counted where
  | waits
  | poisoned (addr : Nat)
  | unmapped
  | done (d : Device)

/-- Counts bytes on an object (R331); a poisoned word of it is cause 0xC1 (22 R425), an unmapped page 0x23 (12 R272). -/
def countObject (d : Device) (team obj bytes : Nat) : Counted :=
  match bringRange d team obj 16 true with
  | none => .waits
  | some d =>
    if (match d.team team with | some t => rangeUnmapped t obj 16 | none => false) then .unmapped
    else if poisonedObj d team obj then .poisoned obj
    else
      let arrived := (readObj d team obj 4 4 + bytes) % 2 ^ 32
      let expect := readObj d team obj 0 4
      if expect = 0 ∨ arrived < expect then .done (putObj d team obj 4 4 arrived)
      else if poisonedObj d team (obj + 8) then .poisoned (obj + 8)
      else
        let d := putObj d team obj 4 4 (arrived - expect)
        .done (wakeHeld (putObj d team obj 8 4 ((readObj d team obj 8 4 + 1) % 2 ^ 32)) team)

/-- Records a fault on an object (R332). FAULT and PHASE lie in one word that the record reads: poisoned, it is cause 0xC1 and the object
stays as it is (22 R425). -/
def faultObject (d : Device) (team obj cause : Nat) : Counted :=
  match bringRange d team obj 16 true with
  | none => .waits
  | some d =>
    if (match d.team team with | some t => rangeUnmapped t obj 16 | none => false) then .unmapped
    else if poisonedObj d team (obj + 8) then .poisoned (obj + 8)
    else
      let flags := readObj d team obj 12 1
      let d := if flags % 2 = 1 then d else putObj (putObj d team obj 12 1 (flags + 1)) team obj 15 1 cause
      let d := putObj d team obj 4 4 0
      .done (wakeHeld (putObj d team obj 8 4 ((readObj d team obj 8 4 + 1) % 2 ^ 32)) team)

-- interrupts (16 R333)

def uvecOf (d : Device) (team : Nat) : Nat :=
  match d.team team with
  | some t => (match d.launch t.launch with | some l => l.spine.uvec.toNat | none => 0)
  | none => 0

/-- A completion joins its group's queue; those past the first 16 wait in the engine for room, which nothing but timing shows (R333). A
group that has retired drops it (07 R196). -/
def queueUint (d : Device) (k : Kick) (cause : Nat) : Device :=
  match d.group (.user k.group) with
  | none => d
  | some g =>
    if g.retired || g.halted then d else d.setGroup (.user k.group) { g with uq := g.uq ++ [{ record := k.record, cause }] }

-- the end of a request

def dropReq (d : Device) (core id : Nat) : Device :=
  d.modCore core (fun c => { c with reqs := c.reqs.filter (fun r => r.id != id) })


/-- A request gives up its ring; `undo` releases its uncommitted pushes. -/
def leaveRing (d : Device) (r : CopyReq) (undo : Bool) : Device :=
  match r.kick, r.rcd.ring with
  | some k, some n =>
    if r.owner then
      d.modTeam k.team (fun t =>
        let g := t.ring n
        t.setRing n { g with pushOwner := none, rtail := if undo then g.tail else g.rtail })
    else d
  | _, _ => d

/-- A fault goes to its object and `told` follows (R332); none while the object's page is brought in. An object that cannot take the
record leaves a deferred trap: a word that is poisoned after `told`, with cause 0xC1, an unmapped page as `missed` says (log entry 17,
DEDUCED). -/
def faultTo (d : Device) (team obj cause : Nat) (told : Device → Device) (trap : Device → Nat → Nat → Device)
    (missed : Device → Device) : Option Device :=
  match faultObject d team obj cause with
  | .waits => none
  | .done d => some (told d)
  | .unmapped => some (missed d)
  | .poisoned a => some (trap (told d) 0xC1 a)

/-- What a fault leads to once the request has stopped (R332): a barrier object, an interrupt, else a deferred trap (R484). None while
the object's page is brought in. -/
def recordFault (d : Device) (core : Nat) (k : Kick) (obj : Option Nat) (uint : Bool) (cause addr : Nat) : Option Device :=
  let part := d.partOf (.user k.group)
  let index := match d.group (.user k.group) with | some g => g.index | none => 0
  let told (d : Device) : Device :=
    logPlain (if uint then queueUint d k cause else d) part (plainEntry cause addr part srcCopy (dieOf core) (some core) index false)
  let trap (d : Device) (c a : Nat) : Device := engineTrap d k.group k.team k.bpc k.slotB c a .ends
  let bare (d : Device) : Device := if uint then told d else trap d cause addr
  match obj with
  | none => some (bare d)
  | some o => faultTo d k.team o cause told trap bare

def setReq (d : Device) (core : Nat) (r : CopyReq) : Device :=
  d.modCore core (fun c => { c with reqs := c.reqs.map (fun x => if x.id = r.id then r else x) })

/-- The end of a request that has stopped at a fault or moved every byte: the fault is recorded (R332), or the completion is delivered
(R333). It stays in the engine while its object's page is brought in. -/
def endReq (d : Device) (core : Nat) (r : CopyReq) : Device :=
  let gone := dropReq d core r.id
  match r.kick, r.fault with
  | some k, some (cause, addr) =>
    (recordFault gone core k (if r.rcd.count then some r.rcd.bobj else none) (r.rcd.uint && uvecOf d k.team != 0) cause addr).getD d
  | some k, none => if r.rcd.uint then queueUint gone k 0 else gone
  | none, fault =>
    match r.stream, fault with
    | some s, some (cause, addr) =>
      streamError (logPlain gone r.part (plainEntry cause addr r.part srcCopy (dieOf core) (some core) 0 false)) r.part s.idx 8 cause
    | some s, none => gone.modPart r.part (fun p => p.setStream s.idx (p.stream s.idx).packetEnd)
    | none, _ => gone

/-- A request that stops, at a byte it cannot move (log entry 17, DEDUCED) or at its end, gives up its ring at once. -/
def stopReq (d : Device) (core : Nat) (r : CopyReq) (fault : Option (Nat × Nat)) : Device :=
  let r2 := { r with owner := false, peerTag := none, fault }
  endReq (setReq (leaveRing d r fault.isSome) core r2) core r2

def copyFault (d : Device) (core : Nat) (r : CopyReq) (cause addr : Nat) : Device := stopReq d core r (some (cause, addr))

def copyComplete (d : Device) (core : Nat) (r : CopyReq) : Device := stopReq d core r none

-- COPY.KICK (17 R354)

/-- COPY.KICK (log entry 17, DEDUCED). -/
def execCopyKick (o : EOp) (s : State) : Host.Outcome State Fault Refusal :=
  engSlot o s (fun w =>
    match w.dev.teamOf w.b.gid with
    | none => .ok w
    | some (team, t) =>
      let a := engX w o 0
      let e := t.page (a / pageSize)
      if 2 ^ 24 ≤ a then .trap (causeAt 0x23 a false)
      else if a % 64 ≠ 0 then .trap (causeAt 0x66 a false)
      else if inStackRange a then .trap (causeAt 0x24 a false)
      else if e.state = .unmapped then .trap (causeAt 0x23 a false)
      else if e.state ≠ .resident then .trap (causeAt 0x28 a false)
      else if 32 ≤ (w.dev.core w.coreNo).kicks.length || !w.mayRelease true then .wait none
      else
        let g := w.group
        let data := (scratchBytes w.dev t a 64).zipIdx.map (fun (b, i) => (g.ownByte false (a + i)).getD b)
        let bad := (List.range 8).any (fun i =>
          scratchPoisoned w.dev t (a + 8 * i) && (List.range 8).any (fun j => (g.ownByte false (a + 8 * i + j)).isNone))
        let k : Kick := { group := w.id, team, record := a, bytes := if bad then none else some data, bpc := w.b.pc, slotB := w.b.slotB }
        let w := w.noteZero
        .ok { w with dev := w.dev.modCore w.coreNo (fun c => { c with kicks := c.kicks ++ [k] }) })

-- COPY_RECORD_FETCH (17 R358)

/-- Whether a segment of a request is migrating: the request waits at the copy engine (11 R254). -/
def touchesMoving (d : Device) (part die : Nat) (r : CopyRec) : Bool :=
  r.segs.any (fun g => segState (segEntry d part die (g * segSize)) == 2)

/-- The object's fault of step 1. -/
def objectBad (t : Team) (r : CopyRec) : Bool :=
  if r.count then r.bobj % 16 != 0 || decide (stackBase ≤ r.bobj) || rangeUnmapped t r.bobj 16 else r.bobj != 0

/-- The lowest-numbered up port to a peer (27 R475). -/
def peerPort (d : Device) (peer : Nat) : Option Nat :=
  (List.range 12).find? (fun i => (d.port i).up && !(d.port i).failed && (d.port i).partner == peer)

/-- A request that its record starts; it keeps the port it starts on (27 R475). -/
def newReq (d : Device) (kick : Option Kick) (stream : Option Stream) (part : Nat) (r : CopyRec) : CopyReq :=
  { id := d.nextReq, kick, stream, part, rcd := r, n := 0, buf := [], sealedLine := false, owner := false, peerTag := none,
    port := if r.skind = 1 ∨ r.dkind = 1 then peerPort d r.peer else none, fault := none }

def addReq (d : Device) (core : Nat) (r : CopyReq) : Device :=
  { d.modCore core (fun c => { c with reqs := c.reqs ++ [r] }) with nextReq := d.nextReq + 1 }

/-- A request whose record fails (R358): it stands in the engine, stopped, until its fault is recorded, and holds no other back. -/
def faultedReq (d : Device) (core : Nat) (k : Kick) (r : CopyRec) (cause addr : Nat) : Device :=
  let q := { newReq d (some k) none (d.partOf (.user k.group)) r with fault := some (cause, addr) }
  endReq (addReq d core q) core q

/-- COPY_RECORD_FETCH: the first queued KICK's record is validated. -/
def execCopyRecordFetch (core : Nat) (s : State) : Host.Outcome State Fault Refusal :=
  devStep s (fun d =>
    match (d.core core).kicks with
    | [] => d
    | k :: rest =>
      match d.team k.team with
      | none => d.modCore core (fun c => { c with kicks := rest })
      | some t =>
        match bringRange d k.team k.record 64 false with
        | none => d
        | some d1 =>
          let gone := d1.modCore core (fun c => { c with kicks := rest })
          let part := d.partOf (.user k.group)
          match k.bytes with
          | none => faultedReq gone core k (copyRecOf []) 0xC1 k.record
          | some b =>
            let r := copyRecOf b
            if objectBad t r then faultedReq gone core k { r with count := false } 0x67 r.bobj
            else if r.uint && uvecOf d k.team == 0 then faultedReq gone core k r 0x09 k.record
            else if !copyValid r (copyReserved b) then faultedReq gone core k r 0x67 k.record
            else if touchesMoving d part (dieOf core) r then d
            else addReq gone core (newReq gone (some k) none part r))

/-- COPY_OWNERSHIP_GRANT (16 R323): in the order of the fetches; the new owner checks the ring (17 R358). -/
def execCopyOwnershipGrant (core req : Nat) (s : State) : Host.Outcome State Fault Refusal :=
  devStep s (fun d =>
    match (d.core core).reqs.find? (fun r => r.id == req) with
    | none => d
    | some r =>
      match r.kick, r.rcd.ring with
      | some k, some n =>
        match d.team k.team with
        | none => d
        | some t =>
          let earlier := d.cores.any (fun c => c.2.reqs.any (fun x => decide (x.id < r.id) && x.awaits k.team n))
          if !r.awaits k.team n || (t.ring n).pushOwner.isSome || earlier then d
          else
            match (t.ring n).conf with
            | none => copyFault d core r (if n < 16 then 0x61 else 0x62) r.rcd.daddr
            | some c =>
              if r.rcd.total % c.bytes ≠ 0 then copyFault d core r 0x67 r.rcd.daddr
              else
                setReq (d.modTeam k.team (fun t => t.setRing n { t.ring n with pushOwner := some (.copy r.id) })) core
                  { r with owner := true }
      | _, _ => d)

-- places (17 R359)

/-- Translation for a copy request: one that runs was counted before its segments began to migrate, and goes on under the old
entry (11 R253, R254) (log entry 17, DEDUCED). -/
def copyXlate (d : Device) (part die va : Nat) (n : Needs) : Xlate := heldXlate d part die va n false

/-- A staging address: whether it lies in the user staging area of a present die of the partition (11 R257). -/
def stagingGood (d : Device) (part : Nat) (a : Int) : Bool :=
  let n := a.toNat
  let die := n / 2 ^ 28
  let x := d.die die
  decide (0 ≤ a) && decide (n < 2 ^ 32) && (d.part part).dies.getLsbD die && !x.absent &&
    decide (n % 2 ^ 24 < (x.sways - x.rways) * 2 ^ 19)

def stagingKey (n : Nat) : Nat := stageKey (n / 2 ^ 28) (n / 2 ^ 24 % 16) (n % 2 ^ 24)

/-- The scratchpad's outcome for a run of bytes within a line. -/
inductive Scratch where
  | ready (d : Device)
  | waits
  | bad (cause : Nat)

def scratchPlace (d : Device) (team : Nat) (a : Int) (len : Nat) (write : Bool) : Scratch :=
  if a < 0 ∨ (2 ^ 24 : Int) ≤ a then .bad 0x23
  else if inStackRange a.toNat then .bad 0x24
  else
    match d.team team with
    | none => .waits
    | some t =>
      if rangeUnmapped t a.toNat len then .bad 0x23
      else match bringRange d team a.toNat len write with
        | some d => .ready d
        | none => .waits

/-- What a read of the next source bytes comes to. -/
inductive Chunk where
  | data (d : Device) (bytes : List Byte) (form : Bool)
  | sent (d : Device) (port tag : Nat)
  | waits
  | bad (cause addr : Nat)

/-- Sends a transaction for a request on its port. -/
def sendPeer (d : Device) (r : CopyReq) (op len : Nat) (a : Int) (data : List Byte) : Option (Device × Nat × Nat) :=
  match r.port with
  | none => none
  | some port =>
    let tag := (d.port port).nextTag
    let n := a.toNat
    let p : Packet :=
      { op, len, tag, world := n / 2 ^ 48 % 32, region := n / 2 ^ 40 % 256, offset := n % 2 ^ 40, akey := r.rcd.akey.toNat, status := 0, data }
    let d := d.modPort port (fun p => { p with nextTag := (tag + 1) % 2 ^ 16 })
    some (sendPacket d port p.bytes, port, tag)

/-- Reads source bytes that lie in one line. -/
def readSource (d : Device) (core : Nat) (r : CopyReq) (a : Int) (len : Nat) : Chunk :=
  let n := a.toNat
  let die := dieOf core
  match r.rcd.skind with
  | 0 =>
    let d := walkTables d r.part die n
    match copyXlate d r.part die n { read := true, write := false, exec := false } with
    | .local_ pa =>
      let d := homeAccess (ungate d (homeDie pa)) r.part (lineOf pa)
      let t := tagOf d (lineOf pa)
      if t.world ≠ r.part then .bad 0x26 n
      else if t.poison then .bad t.cause n
      else .data d (readBytes d.mem.hbm pa len) t.form
    | .host h => .data d (readBytes d.mem.host h len) false
    | .peer _ _ => .bad 0x67 n
    | .waits => .waits
    | .fault c => .bad c n
  | 1 =>
    if a < 0 ∨ (2 ^ 53 : Int) ≤ a then .bad 0x69 n
    else
      match sendPeer d r 2 len a [] with
      | some (d, port, tag) => .sent d port tag
      | none => .bad 0x69 n
  | 2 =>
    let d := ungate d (n / 2 ^ 28)
    if !stagingGood d r.part a then .bad 0x68 n
    else if d.mem.stagingPoison.contains (stagingKey n / 64) then .bad 0xC1 n
    else .data d (readBytes d.mem.staging (stagingKey n) len) (d.mem.stagingForm.contains (stagingKey n / 64))
  | 3 =>
    match r.kick with
    | none => .bad 0x67 n
    | some k =>
      match scratchPlace d k.team a len false with
      | .waits => .waits
      | .bad c => .bad c n
      | .ready d =>
        match d.team k.team with
        | none => .waits
        | some t =>
          match (List.range len).find? (fun i => scratchPoisoned d t (n + i)) with
          | some i => .bad 0xC1 (n + i)
          | none => .data d (scratchBytes d t n len) r.rcd.form
  | _ => .data d (List.replicate len 0) false

-- the transfer

/-- Bytes of the destination write that begins at byte n: to the end of the run, and of the line or the part of a tile. -/
def CopyRec.pieceLen (r : CopyRec) (n : Nat) : Nat :=
  let at_ := if r.ring.isSome then n % 64 else ((r.dst n) % 64).toNat
  Nat.min (r.x0 - n % r.x0) (64 - at_)

/-- Whether a ring has room for the push that byte n begins or continues. -/
def pushRoom (d : Device) (r : CopyReq) : Bool :=
  match r.kick, r.rcd.ring with
  | some k, some ring =>
    (match d.team k.team with
    | some t =>
      let g := t.ring ring
      match g.conf with
      | some c => r.owner && (r.n % c.bytes != 0 || decide (g.rtail - g.head < c.tcount))
      | none => false
    | none => false)
  | _, _ => true

/-- Source bytes join those in hand. The FORM bit of a destination write is that of its source line; where the bytes in hand are of two
source lines it is 1 when both are sealed, and a write of part of a line gives the whole line its bit (log entry 39, DESIGN CHOICE: R335
names one source line). -/
def CopyReq.take (r : CopyReq) (bytes : List Byte) (form : Bool) : CopyReq :=
  { r with buf := r.buf ++ bytes, sealedLine := if r.buf.isEmpty then form else r.sealedLine && form, peerTag := none }

/-- Reads the next source bytes of a request, at most one line of them. -/
def copyRead (d : Device) (core : Nat) (r : CopyReq) : Device :=
  let left := r.rcd.pieceLen r.n - r.buf.length
  let a := r.rcd.src (r.n + r.buf.length)
  let len := if r.rcd.skind = 6 then left else Nat.min left (64 - (a % 64).toNat)
  match readSource d core r a len with
  | .waits => d
  | .bad c x => copyFault d core r c x
  | .sent d port tag => setReq d core { r with peerTag := some (port, tag) }
  | .data d bytes form =>
    if form && r.rcd.skind != 3 && r.rcd.ring.isSome then copyFault d core r 0x2C a.toNat
    else setReq d core (r.take bytes form)

def reqOf (d : Device) (core req : Nat) : Option CopyReq := (d.core core).reqs.find? (fun r => r.id == req)

/-- A request may move its next bytes: it has work left, waits for no peer, and its ring has room. -/
def CopyReq.ready (r : CopyReq) (d : Device) : Bool := r.moving && r.peerTag.isNone && pushRoom d r

/-- COPY_SOURCE_LINE_READ: a source line in HBM, host memory, staging, or a peer's. -/
def execCopySourceLineRead (core req : Nat) (s : State) : Host.Outcome State Fault Refusal :=
  devStep s (fun d =>
    match reqOf d core req with
    | none => d
    | some r =>
      if r.ready d && decide (r.rcd.skind ≤ 2) && decide (r.buf.length < r.rcd.pieceLen r.n) then
        copyRead (ungate d (dieOf core)) core r
      else d)

/-- What a destination write comes to. -/
inductive Put where
  | done (d : Device)
  | sent (d : Device) (port tag : Nat)
  | waits
  | bad (cause addr : Nat)

/-- A write of a copy request to a line at home: a whole line clears its poison (22 R426). -/
def writeHome (d : Device) (part pa : Nat) (data : List Byte) (form : Bool) : Device :=
  let d := d.modMem (fun m => { m with hbm := writeBytes m.hbm pa data })
  let t := tagOf d (lineOf pa)
  setTag d (lineOf pa)
    (if data.length = 64 then { world := part, poison := false, form, cause := 0 } else { t with form })

/-- Drops every L1 copy of a line of a partition, under whichever address it stands. -/
def l1DropLine (d : Device) (core part line : Nat) : Device :=
  let same (key : Nat) : Bool :=
    key / 2 ^ 51 == part &&
      (let pa := paOf d part (dieOf core) (key % 2 ^ 51 * 64); pa != noPa && lineOf pa == line)
  d.modCore core (fun c => { c with l1 := c.l1.filter (fun x => !same x.1) })

/-- No stale copy of a line stays in the L1 of the engine's core or of the core its team is on (13 R293). -/
def dropStale (d : Device) (core part : Nat) (kick : Option Kick) (va pa : Nat) : Device :=
  let there := match kick with
    | some k => (match d.coreOf (.user k.group) with | some c => [c] | none => [])
    | none => []
  ((core :: there).eraseDups).foldl
    (fun d c => l1DropLine (l1Drop (drainLine d c (lineOf pa) none) c part va) c part (lineOf pa)) d

/-- Writes the bytes in hand at the destination. -/
def writeDest (d : Device) (core : Nat) (r : CopyReq) : Put :=
  let a := r.rcd.dst r.n
  let n := a.toNat
  let die := dieOf core
  let export_ := (d.part r.part).conf && !r.sealedLine
  match r.rcd.dkind with
  | 0 =>
    let d := walkTables d r.part die n
    match copyXlate d r.part die n { read := false, write := true, exec := false } with
    | .local_ pa =>
      let d := homeAccess (dropStale (ungate d (homeDie pa)) core r.part r.kick n pa) r.part (lineOf pa)
      if (tagOf d (lineOf pa)).world ≠ r.part then .bad 0x26 n else .done (writeHome d r.part pa r.buf r.sealedLine)
    | .host h => if export_ then .bad 0x2D n else .done (d.modMem (fun m => { m with host := writeBytes m.host h r.buf }))
    | .peer _ _ => .bad 0x67 n
    | .waits => .waits
    | .fault c => .bad c n
  | 1 =>
    if a < 0 ∨ (2 ^ 53 : Int) ≤ a then .bad 0x69 n
    else if export_ then .bad 0x2D n
    else
      match sendPeer d r 1 r.buf.length a r.buf with
      | some (d, port, tag) => .sent d port tag
      | none => .bad 0x69 n
  | 2 =>
    if stagingGood d r.part a then
      let key := stagingKey n
      .done ((ungate d (n / 2 ^ 28)).modMem (fun m =>
        let rest := m.stagingForm.filter (· != key / 64)
        { m with
          staging := writeBytes m.staging key r.buf
          stagingForm := if r.sealedLine then key / 64 :: rest else rest
          stagingPoison := if r.buf.length = 64 then m.stagingPoison.filter (· != key / 64) else m.stagingPoison }))
    else .bad 0x68 n
  | 3 =>
    match r.kick with
    | none => .bad 0x67 n
    | some k =>
      (match scratchPlace d k.team a r.buf.length true with
      | .waits => .waits
      | .bad c => .bad c n
      | .ready d => .done (wakeHeld (writeScratch d k.team n r.buf) k.team))
  | _ =>
    match r.kick, r.rcd.ring with
    | some k, some ring =>
      match d.team k.team with
      | none => .waits
      | some t =>
        match (t.ring ring).conf with
        | none => .waits
        | some c =>
          let g := t.ring ring
          let first := r.n % c.bytes == 0
          let pos := if first then g.rtail else g.rtail - 1
          let addr := c.tileAddr pos + r.n % c.bytes
          if rangeUnmapped t addr r.buf.length then .bad 0x23 addr
          else
            match bringRange d k.team addr r.buf.length true with
            | none => .waits
            | some d =>
              let d := writeScratch d k.team addr r.buf
              let full := (r.n + r.buf.length) % c.bytes == 0
              .done (wakeHeld (d.modTeam k.team (fun t =>
                let g := t.ring ring
                t.setRing ring { g with rtail := if first then g.rtail + 1 else g.rtail, tail := if full then pos + 1 else g.tail })) k.team)
    | _, _ => .waits

/-- A destination write is done: it is counted, and the request completes with its last byte. None while the object's page is
brought in. -/
def pieceDone (d : Device) (core : Nat) (r : CopyReq) : Option Device :=
  let next (d : Device) : Device :=
    let r2 := { r with n := r.n + r.buf.length, buf := [], sealedLine := false, peerTag := none }
    let d := setReq d core r2
    if r2.n = r.rcd.total then copyComplete d core r2 else d
  match r.kick, r.rcd.count with
  | some k, true =>
    match countObject d k.team r.rcd.bobj r.buf.length with
    | .waits => none
    | .poisoned a => some (copyFault d core r 0xC1 a)
    | .unmapped => some (copyFault d core r 0x23 r.rcd.bobj)
    | .done d => some (next d)
  | _, _ => some (next d)

/-- COPY_LINE_WRITE: the destination write for the bytes in hand; scratchpad and zeros are read here. A request that has stopped waits
here for its object's page. -/
def execCopyLineWrite (core req : Nat) (s : State) : Host.Outcome State Fault Refusal :=
  devStep s (fun d =>
    match reqOf d core req with
    | none => d
    | some r =>
      if !r.moving then settleAll (endReq d core r) core
      else if !r.ready d then d
      else if r.buf.length < r.rcd.pieceLen r.n then (if r.rcd.skind = 3 ∨ r.rcd.skind = 6 then copyRead d core r else d)
      else
        let d := ungate d (dieOf core)
        match writeDest d core r with
        | .waits => d
        | .bad c a => copyFault d core r c a
        | .sent d port tag => setReq d core { r with peerTag := some (port, tag) }
        | .done d2 =>
          match pieceDone d2 core r with
          | some d => settleAll d core
          | none => d)

-- user-level interrupts (16 R333, R334; 17 R360)

/-- UINT.ARM. -/
def execUintArm (o : EOp) (s : State) : Host.Outcome State Fault Refusal :=
  engSlot o s (fun w => .ok (w.mod (fun g => { g with armed := o.cmd.getLsbD 0 })))

/-- Whether a group may enter its handler at the boundary it stands at: a group that is stopped, saved or in the back bank does not
(21 R422). -/
def mayEnterHandler (d : Device) (id : Nat) (g : Group) : Bool :=
  g.armed && !g.uq.isEmpty && g.core.handler.isNone && g.park == .none && !g.retired && !g.halted && groupRuns d id && !g.trapSet &&
    !g.waitsData && !g.stackWait && g.holdWait.isNone && g.mayCheckpoint && g.core.live != 0

/-- UINT_ENTRY: the boundary is a checkpoint, and the entry belongs to the state it keeps. -/
def execUintEntry (group : Nat) (s : State) : Host.Outcome State Fault Refusal :=
  devStep s (fun d =>
    let gid := Gid.user group
    match d.group gid, d.teamOf gid with
    | some g, some (team, _) =>
      match g.uq with
      | k :: rest =>
        if !mayEnterHandler d group g then d
        else
          (checkpoint d gid).modGroup gid (fun g =>
            let c := g.core.enterHandler (BitVec.ofNat 64 (uvecOf d team)) g.nextOp k
            { g with core := c, ck := c, armed := false, uq := rest })
      | [] => d
    | _, _ => d)

end Sys2Proof.Machine
end

