-- ==== Sys2Proof/Machine/Cipher.lean ====
section
/-!
DEFINITION. The cipher unit: SEAL and OPEN (16 R336; 17 R361 to R363).
-/
namespace Sys2Proof.Machine

/-- The operands of SEAL and OPEN (R361). -/
structure CipherArgs where
  src : Nat
  dst : Nat
  obj : Nat
  tag : Nat
  deriving DecidableEq, Repr

def cipherArgs (w : Work) (o : EOp) : CipherArgs :=
  { src := engX w o 0 % 2 ^ 32, dst := engX w o 0 / 2 ^ 32, obj := engX w o 1 % 2 ^ 32, tag := engX w o 1 / 2 ^ 32 }

/-- The four operands with their lengths. -/
def CipherArgs.ranges (a : CipherArgs) : List (Nat × Nat) := [(a.src, 4096), (a.dst, 4096), (a.obj, 16), (a.tag, 16)]

/-- Bits [55:32] and [23:0] hold addresses; the others are 0. -/
def cipherReserved (x : Nat) : Bool := natBits x 24 8 != 0 || natBits x 56 8 != 0

def rangesMeet (a b : Nat × Nat) : Bool := decide (a.1 < b.1 + b.2) && decide (b.1 < a.1 + a.2)

/-- The operands' fit: alignment, and no overlap but a source that is the destination. -/
def CipherArgs.fits (a : CipherArgs) : Bool :=
  a.src % 4096 == 0 && a.dst % 4096 == 0 && a.obj % 16 == 0 && a.tag % 16 == 0 &&
    (a.src == a.dst || !rangesMeet (a.src, 4096) (a.dst, 4096)) && !rangesMeet (a.obj, 16) (a.tag, 16) &&
    [(a.src, 4096), (a.dst, 4096)].all (fun t => !rangesMeet t (a.obj, 16) && !rangesMeet t (a.tag, 16))

/-- The checks of R362 in order: space and mapping, the stack range, the operands, the key slot. A bit above [23:0] in an address field
puts the operand at or above 2^24 only in a reserved position, which is cause 0x6A. -/
def cipherCause (w : Work) (o : EOp) (t : Team) (a : CipherArgs) : Option Cause :=
  let low := { src := a.src % 2 ^ 24, dst := a.dst % 2 ^ 24, obj := a.obj % 2 ^ 24, tag := a.tag % 2 ^ 24 : CipherArgs }
  match low.ranges.find? (fun r => decide (2 ^ 24 < r.1 + r.2) || (!inStackRange r.1 && rangeUnmapped t r.1 r.2)) with
  | some r => some (causeAt 0x23 r.1 (r.1 == low.dst))
  | none =>
    match low.ranges.find? (fun r => inStackRange r.1 || inStackRange (r.1 + r.2 - 1)) with
    | some r => some (causeAt 0x24 r.1 (r.1 == low.dst))
    | none =>
      if cipherReserved (engX w o 0) || cipherReserved (engX w o 1) || !low.fits ||
          (tget (w.dev.part w.part).keys (o.cmd.toNat % 16)).isNone then
        some (causeOf 0x6A)
      else none

/-- The 12 bytes of the IV: SRC, then x[XB + 2], each most significant byte first. -/
def cipherIv (w : Work) (o : EOp) : List Byte := bigBytes 4 (engWord w o) ++ bigBytes 8 (engX w o 2)

/-- SEAL and OPEN: their reads are ordered like a copy request's, so they wait as COPY.KICK does (13 R293). -/
def cipherSlot (isSeal : Bool) (o : EOp) (s : State) : Host.Outcome State Fault Refusal :=
  engSlot o s (fun w =>
    match w.dev.teamOf w.b.gid with
    | none => .ok w
    | some (team, t) =>
      let a := cipherArgs w o
      match cipherCause w o t a with
      | some c => .trap c
      | none =>
        if !w.mayRelease true then .wait none
        else
        let w := w.noteZero
        let k : CipherOp :=
          { group := w.id, team, isSeal, src := a.src, dst := a.dst, obj := a.obj, tag := a.tag, iv := cipherIv w o,
            key := o.cmd.toNat % 16, bpc := w.b.pc, slotB := w.b.slotB }
        .ok { w with dev := w.dev.modCore w.coreNo (fun c => { c with ciphers := c.ciphers ++ [k] }) })

/-- SEAL. -/
def execSealTile (o : EOp) (s : State) : Host.Outcome State Fault Refusal := cipherSlot true o s

/-- OPEN. -/
def execOpenTile (o : EOp) (s : State) : Host.Outcome State Fault Refusal := cipherSlot false o s

/-- An operation's fault: on its object, and in the log (16 R332), else a deferred trap (R484); none while the object's page is brought
in. -/
def cipherFault (d : Device) (core : Nat) (k : CipherOp) (cause addr : Nat) : Option Device :=
  let part := d.partOf (.user k.group)
  let index := match d.group (.user k.group) with | some g => g.index | none => 0
  let trap (d : Device) (c a : Nat) : Device := engineTrap d k.group k.team k.bpc k.slotB c a .ends
  faultTo d k.team k.obj cause (fun d => logPlain d part (plainEntry cause addr part srcCore (dieOf core) (some core) index false)) trap
    (fun d => trap d cause addr)

/-- Counts an operation's lines on its object, one after the other (16 R331). -/
def countLines (d : Device) (core : Nat) (k : CipherOp) : Nat → Option Device
  | 0 => some d
  | n + 1 =>
    match countObject d k.team k.obj 64 with
    | .waits => none
    | .poisoned a => cipherFault d core k 0xC1 a
    | .unmapped => cipherFault d core k 0x23 k.obj
    | .done d => countLines d core k n

/-- What an operation reads: its text, and an OPEN's tag; the first poisoned word of them. -/
def cipherInput (d : Device) (k : CipherOp) : Option (Device × List Byte × List Byte × Option Nat) :=
  (fetchRange d k.team k.src 4096).bind (fun r =>
    if k.isSeal then some (r.dev, r.bytes, [], r.poison)
    else (fetchRange r.dev k.team k.tag 16).map (fun q => (q.dev, r.bytes, q.bytes, r.poison.or q.poison)))

/-- The operation on bytes in hand: the output, a SEAL's tag, and the count; an OPEN that fails writes zeros and faults. None while a
page is brought in. -/
def cipherWork (d : Device) (core : Nat) (k : CipherOp) (text tag : List Byte) : Option Device :=
  let key := keyBytes (tgetD (d.part (d.partOf (.user k.group))).keys k.key 0)
  let put (d : Device) (a : Nat) (x : List Byte) : Option Device := (putRange d k.team a x).map (fun d => wakeHeld d k.team)
  if k.isSeal then
    let (c, t) := gcmSeal key k.iv [] text
    ((put d k.dst c).bind (fun d => put d k.tag t)).bind (fun d => countLines d core k 64)
  else
    match gcmOpen key k.iv [] text tag with
    | some p => (put d k.dst p).bind (fun d => countLines d core k 64)
    | none => (put d k.dst (List.replicate 4096 0)).bind (fun d => cipherFault d core k 0x6B k.src)

/-- CIPHER_OPERATION: the unit performs its first queued operation (R336, R363). A poisoned operand word is the fault 0xC1 (22
R425); a page that has gone unmapped is 0x23. -/
def execCipherOperation (core : Nat) (s : State) : Host.Outcome State Fault Refusal :=
  devStep s (fun d =>
    match (d.core core).ciphers with
    | [] => d
    | k :: rest =>
      let gone (d : Device) : Device := d.modCore core (fun c => { c with ciphers := rest })
      match d.team k.team with
      | none => gone d
      | some t =>
        let lost := rangeUnmapped t k.src 4096 || rangeUnmapped t k.dst 4096 || rangeUnmapped t k.tag 16 || rangeUnmapped t k.obj 16
        let done :=
          if lost then cipherFault d core k 0x23 k.src
          else
            match cipherInput d k with
            | none => none
            | some (d, _, _, some a) => cipherFault d core k 0xC1 a
            | some (d, text, tag, none) => cipherWork d core k text tag
        match done with
        | some d => gone d
        | none => d)

end Sys2Proof.Machine
end

