-- ==== Sys2Proof/Machine/LaneCross.lean ====
section
/-!
DEFINITION. The lane-crossing and lane-predicate functions of the V slots (08 R200 to R208). The participating lanes are the
active lanes; the source lanes are the live lanes of the issuing slot.
-/
namespace Sys2Proof.Machine

-- lane exchanges (08 R203)

/-- The four exchanges. -/
inductive XlForm where
  | get | up | dn | bfly
  deriving DecidableEq, Repr

/-- The source lane of lane i under the lane operand d, none outside the segment. -/
def xlSource (f : XlForm) (wrap : Bool) (w i d : Nat) : Option Nat :=
  let base := i / w * w
  let o := i % w
  match f with
  | .get => some (base + d % w)
  | .up => if wrap then some (base + (o + w - d % w) % w) else if d ≤ o then some (i - d) else none
  | .dn => if wrap then some (base + (o + d) % w) else if o + d < w then some (i + d) else none
  | .bfly => some (Nat.xor i (d % w))

/-- One lane of an exchange: the source lane's SA where it is valid, else the lane's own fill. -/
def xlLane (f : XlForm) (o : VOp) (b : OpenBundle) (i : Nat) : LaneOut :=
  let k := o.type.words
  let d := readOperand b.regs b.lits o.sb i 1
  let src := xlSource f (o.imm8.getLsbD 3) (2 ^ (o.imm8.toNat % 8)) i d
  match src.filter (fun j => (b.lanes &&& b.regs.live).getLsbD j) with
  | some j => { val := readOperand b.regs b.lits o.sa j k, prim := true }
  | none => { val := readOperand b.regs b.lits o.sc i k, prim := false }

def xlSlot (f : XlForm) (o : VOp) (s : State) : Host.Outcome State Fault Refusal :=
  vecSlot o s (fun w act =>
    shortResult w o.dst o.type.words o.pd o.pc2 act (fun l => (xlLane f o w.b l).val) (fun l => (xlLane f o w.b l).prim))

/-- XL.GET (08 R203). -/
def execXlGet (o : VOp) (s : State) : Host.Outcome State Fault Refusal := xlSlot .get o s

/-- XL.UP (08 R203). -/
def execXlUp (o : VOp) (s : State) : Host.Outcome State Fault Refusal := xlSlot .up o s

/-- XL.DN (08 R203). -/
def execXlDn (o : VOp) (s : State) : Host.Outcome State Fault Refusal := xlSlot .dn o s

/-- XL.BFLY (08 R203). -/
def execXlBfly (o : VOp) (s : State) : Host.Outcome State Fault Refusal := xlSlot .bfly o s

-- ballot, votes and folds (08 R204 to R206)

/-- The predicate of IMM8[4:0] in a lane, inverted by SUB[0]. -/
def immPred (o : VOp) (b : OpenBundle) (lane : Nat) : Bool := b.regs.predAt (immPredOf o) lane != o.sub.getLsbD 0

/-- An operation with one result for all participating lanes. -/
def crossSlot (o : VOp) (f : Work → LaneMask → LaneOut) (s : State) : Host.Outcome State Fault Refusal :=
  vecSlot o s (fun w act =>
    let r := f w act
    shortResult w o.dst o.type.words o.pd o.pc2 act (fun _ => r.val) (fun _ => r.prim))

/-- BALLOT (08 R204). -/
def execBallot (o : VOp) (s : State) : Host.Outcome State Fault Refusal :=
  crossSlot o (fun w act => outNonZero (maskOf (fun l => act.getLsbD l && immPred o w.b l)).toNat) s

/-- VOTE.ANY (08 R205). -/
def execVoteAny (o : VOp) (s : State) : Host.Outcome State Fault Refusal :=
  crossSlot o (fun w act => { val := 0, prim := (lanesOf act).any (immPred o w.b) }) s

/-- VOTE.ALL (08 R205). -/
def execVoteAll (o : VOp) (s : State) : Host.Outcome State Fault Refusal :=
  crossSlot o (fun w act => { val := 0, prim := (lanesOf act).all (immPred o w.b) }) s

/-- The SA values of the participating lanes, by lane. -/
def partValues (o : VOp) (w : Work) (act : LaneMask) : List (Nat × Nat) :=
  (lanesOf act).map (fun l => (l, readOperand w.b.regs w.b.lits o.sa l o.type.words))

/-- VOTE.EQ (08 R205). -/
def execVoteEq (o : VOp) (s : State) : Host.Outcome State Fault Refusal :=
  crossSlot o
    (fun w act =>
      let vs := partValues o w act
      { val := 0, prim := vs.all (fun a => vs.all (fun b => a.2 == b.2)) })
    s

/-- One step of LFOLD's operations, on patterns of a type (08 R206). -/
def foldStep (t : VType) (op a b : Nat) : Nat :=
  let w := typeBits t
  let va := intOf (typeSigned t) a w
  let vb := intOf (typeSigned t) b w
  match op with
  | 0 => (a + b) % 2 ^ w
  | 1 => if vb < va then b else a
  | 2 => if va < vb then b else a
  | 3 => Nat.land a b
  | 4 => Nat.lor a b
  | _ => Nat.xor a b

/-- The fold of a list of values. -/
def foldValues (t : VType) (op : Nat) : List (Nat × Nat) → Nat
  | [] => 0
  | (_, v) :: rest => rest.foldl (fun a x => foldStep t op a x.2) v

/-- LFOLD (08 R206): over all participating lanes, or over those numbered no higher. -/
def execLfold (o : VOp) (s : State) : Host.Outcome State Fault Refusal :=
  vecSlot o s (fun w act =>
    let vs := partValues o w act
    let r := fun l =>
      foldValues o.type o.sub.toNat (if o.imm8.getLsbD 0 then vs.filter (fun x => decide (x.1 ≤ l)) else vs)
    shortResult w o.dst o.type.words o.pd o.pc2 act r (fun l => r l != 0))

-- lane predicates and moves (08 R207, R208)

/-- The predicate of a code of 02 R39. -/
def predOfCode (n : Nat) : PredRef :=
  if n < 16 then .p (BitVec.ofNat 4 n) else if n < 24 then .q (BitVec.ofNat 3 n) else .none

/-- A predicate-logic function on PA and PB, each inverted as SUB says. -/
def predSlot (f : Bool → Bool → Bool) (o : VOp) (s : State) : Host.Outcome State Fault Refusal :=
  vecSlot o s (fun w act =>
    shortResult w .null 1 o.pd o.pc2 act (fun _ => 0)
      (fun l =>
        f (w.b.regs.predAt (immPredOf o) l != o.sub.getLsbD 0)
          (w.b.regs.predAt (predOfCode o.predBCode) l != o.sub.getLsbD 1)))

/-- PAND (08 R207). -/
def execPand (o : VOp) (s : State) : Host.Outcome State Fault Refusal := predSlot (fun a b => a && b) o s

/-- POR (08 R207). -/
def execPor (o : VOp) (s : State) : Host.Outcome State Fault Refusal := predSlot (fun a b => a || b) o s

/-- PXOR (08 R207). -/
def execPxor (o : VOp) (s : State) : Host.Outcome State Fault Refusal := predSlot (fun a b => a != b) o s

/-- PNOT (08 R207). -/
def execPnot (o : VOp) (s : State) : Host.Outcome State Fault Refusal := predSlot (fun a _ => !a) o s

/-- PMOV (08 R207). -/
def execPmov (o : VOp) (s : State) : Host.Outcome State Fault Refusal := predSlot (fun a _ => a) o s

/-- The predicates of a lane as P2V packs them. -/
def packedPreds (c : GCore) (lane : Nat) : Nat :=
  bitsFrom (fun i => (if i < 16 then (c.pAt i).getLsbD lane else if i < 24 then c.qAt (i - 16) else false).toNat) 32

/-- P2V (08 R208). -/
def execP2v (o : VOp) (s : State) : Host.Outcome State Fault Refusal :=
  vecSlot o s (fun w act =>
    let r := fun l => packedPreds w.b.regs l
    shortResult w o.dst 1 o.pd o.pc2 act r (fun l => r l != 0))

/-- p0 to p14 of a lane where the mask bit is 1. -/
def spreadPreds (c : GCore) (lane a m : Nat) : GCore :=
  (List.range 15).foldl (fun c k => if bitOf m k = 1 then c.setPLane k lane (bitOf a k == 1) else c) c

/-- V2P (08 R208). -/
def execV2p (o : VOp) (s : State) : Host.Outcome State Fault Refusal :=
  vecSlot o s (fun w act =>
    .ok (w.modCore (fun c =>
      (lanesOf act).foldl
        (fun c l =>
          spreadPreds c l (readOperand w.b.regs w.b.lits o.sa l 1) (readOperand w.b.regs w.b.lits o.sb l 1))
        c)))

end Sys2Proof.Machine
end

