-- ==== Sys2Proof/Machine/Spawn.lean ====
section
/-!
DEFINITION. SPAWN: the team descriptor, its checks, and the teams it enqueues (08 R215 to R219, 07 R195, R196, R198).
-/
namespace Sys2Proof.Machine

/-- A team descriptor's fields (08 R216). -/
structure TeamDesc where
  first : Nat
  entry : Nat
  sbase : Nat
  scount : Nat
  idxreg : Nat
  vals : List Nat
  reserved : Bool
  deriving DecidableEq, Repr

def teamDescOf (b : List Byte) : TeamDesc :=
  let f (o n : Nat) : Nat := bytesNat ((b.drop o).take n)
  { first := f 0 4, entry := f 8 8, sbase := f 0x10 1, scount := f 0x11 1, idxreg := f 0x12 1,
    vals := (List.range 11).map (fun i => f (0x14 + 4 * i) 4), reserved := f 4 4 != 0 || f 0x13 1 != 0 }

/-- The smallest s budget among the roles that have groups (07 R179). -/
def Spine.leastSbud (s : Spine) : Nat :=
  if s.pgroups = 0 then s.csbud else if s.pgroups = s.tgroups then s.psbud else Nat.min s.psbud s.csbud

/-- The sixth and seventh conditions of 08 R218. -/
def spawnCause (l : Launch) (t : TeamDesc) (k : Nat) : Option Nat :=
  let bud := l.spine.leastSbud
  if 65536 < k || t.reserved || !(t.entry == 0 || validTarget (BitVec.ofNat 64 t.entry)) || decide (11 < t.scount) ||
      decide (bud < t.sbase + t.scount) || (t.idxreg != 0xFF && decide (bud ≤ t.idxreg)) || decide (2 ^ 32 < t.first + k) then some 0x13
  else if 2 ^ 24 ≤ l.counter + k ∨ (l.rgrid ∧ l.declared < l.spawned + k) then some 0x12
  else none

/-- Team i of a SPAWN. -/
def spawnedTeam (launch : Nat) (l : Launch) (t : TeamDesc) (i home : Nat) : Team :=
  let vals := (List.range t.scount).map (fun m => (t.sbase + m, BitVec.ofNat 32 (t.vals.getD m 0)))
  { launch, index := BitVec.ofNat 32 (t.first + i), place := none, saved := false, groups := [],
    entry := if t.entry = 0 then l.spine.entry else BitVec.ofNat 64 t.entry
    inits := vals ++ (if t.idxreg = 0xFF then [] else [(t.idxreg, BitVec.ofNat 32 i)])
    seed := false, spt := [], fifo := [], rings := [], bars := [], retired := false, frames := [], starved := false, home, heldBy := false, last := [], pageIns := [] }

/-- Enqueues k teams in ascending order. -/
def enqueueTeams (d : Device) (launch : Nat) (l : Launch) (t : TeamDesc) (home : Nat) : Nat → Nat → Device
  | 0, _ => d
  | k + 1, i =>
    let id := d.nextTeam
    let d := { d with teams := tput d.teams id (spawnedTeam launch l t i home), nextTeam := id + 1 }
    enqueueTeams (d.modPart l.part (fun p => { p with gq := p.gq ++ [id] })) launch l t home k (i + 1)

/-- The counter rises, and an open phase of the grid barrier expects the new groups too (07 R198). -/
def countSpawned (d : Device) (launch k : Nat) : Device :=
  d.modLaunch launch (fun l =>
    { l with counter := l.counter + k, spawned := l.spawned + k
             grid := { l.grid with expected := l.grid.expected.map (· + k * l.spine.tgroups) } })

/-- SPAWN. It is a release at device scope, so it waits for the core's stores (08 R219). In the firmware context, which has no team and no
launch, it does nothing (log entry 34, DESIGN CHOICE); cause 0x2F comes at the page step, before 0x13 of the fields and 0x12 (log entry 39,
DESIGN CHOICE). -/
def execSpawn (o : EOp) (s : State) : Host.Outcome State Fault Refusal :=
  engSlot o s (fun w =>
    match w.dev.teamOf w.b.gid, w.dev.launchOf w.b.gid with
    | some (_, t), some (lid, l) =>
      let k := engWord w o
      let a := engX w o 0
      if w.inHandler then .trap (causeOf 0x09)
      else if 2 ^ 24 ≤ a then .trap (causeAt 0x23 a false)
      else if a % 64 ≠ 0 then .trap (causeAt 0x13 a false)
      else if inStackRange a then .trap (causeAt 0x24 a false)
      else
        match slotScratch w a false true with
        | .error c => .trap c
        | .ok w =>
        let g := w.group
        let own (i : Nat) : Option Byte := g.ownByte false (a + i)
        let bad := (List.range 8).find? (fun i => scratchPoisoned w.dev t (a + 8 * i) && (List.range 8).any (fun j => (own (8 * i + j)).isNone))
        match bad with
        | some i => .trap (causeAt 0xC1 (a + 8 * i) false)
        | none =>
          let desc := teamDescOf ((scratchBytes w.dev t a 64).zipIdx.map (fun (b, i) => (own i).getD b))
          match spawnCause l desc k with
          | some c => .trap (causeAt c a false)
          | none =>
            if !w.mayRelease true then .wait none
            else
              let w := w.noteZero
              .ok { w with dev := countSpawned (enqueueTeams w.dev lid l desc w.die k 0) lid k }
    | _, _ => .ok w)

end Sys2Proof.Machine
end

