-- ==== Sys2Proof/Machine/Populations.lean ====
section
/-!
DEFINITION. Populations: activation, joining, leaving, POP.STAT, and the resampling round (18 R365 to R383).
-/
namespace Sys2Proof.Machine

-- the descriptor (18 R365, R366)

/-- A field of a descriptor's 128 bytes. -/
def descField (x : BitVec 1024) (off n : Nat) : Nat := natBits x.toNat (8 * off) (8 * n)

def popMagic : Nat := 0x504F504C

/-- The lineage log's record. -/
def descLog (x : BitVec 1024) : Rcd := rcdOf (BitVec.ofNat 128 (descField x 0x40 16))

def descLogs (x : BitVec 1024) : Bool := descField x 5 1 % 2 == 1

/-- Valid for activation (R366). -/
def descValid (x : BitVec 1024) (tgroups : Nat) : Bool :=
  let f := descField x
  let wpages := f 0x32 2
  let log := descLog x
  f 0 4 == popMagic && f 4 1 == 0 && f 6 2 == 0 && f 0x34 4 == 0 && f 0x50 48 == 0 && decide (f 5 1 < 2) && decide (1 ≤ f 8 4) &&
    decide (f 8 4 ≤ 2 ^ 24) && decide (f 0x20 8 < 2 ^ 48 - 1) && decide (wpages ≤ 64) &&
    (wpages == 0 || decide (f 0x30 2 + 32 * tgroups * wpages ≤ 8128)) && (!descLogs x || (!log.bad && log.esize == 4 && log.write))

/-- The port's translation of a descriptor needs both rights (log entry 18, DEDUCED). -/
def descCause (d : Device) (part va : Nat) : Option Nat :=
  match translate d part (d.part part).lead va { read := true, write := true, exec := false } true with
  | .local_ _ => none
  | .waits => some 0x2A
  | .fault c => some c
  | .host _ | .peer _ _ => some 0x2E

/-- Whether the descriptor's segment is migrating: the port waits (11 R254). -/
def descWaits (d : Device) (part va : Nat) : Bool :=
  match translate d part (d.part part).lead va { read := true, write := true, exec := false } true with
  | .waits => true
  | _ => false

def readDesc (d : Device) (part va : Nat) : BitVec 1024 :=
  match readVirtual d part va 128 with
  | .ok x => BitVec.ofNat 1024 x
  | .error _ => 0

/-- The stores of a core's groups that are on their way to the descriptor are visible to the port (R370), which then reads its lines (11
R261); inside a bundle they are no candidate events of the injector (log entry 26, DEDUCED). -/
def portView (d : Device) (core part va : Nat) : Device :=
  let d := match translate d part (d.part part).lead va { read := true, write := true, exec := false } true with
    | .local_ pa => drainLine (drainLine d core (lineOf pa) none) core (lineOf pa + 1) none
    | _ => d
  touchLines resolveLine d part va 128

/-- Activates a population for a launch, or for the next LAUNCH of a stream (R370). -/
def activate (d : Device) (part va : Nat) (launch : Option Nat) : Device :=
  let h : PopHeld := { live := 0, reserve := 0, round := 0, nextId := descField (readDesc d part va) 0x20 8, lastStat := 0, logPos := 0 }
  let d := d.modPart part (fun p =>
    { p with pops := tput p.pops va
               { launch, desc := readDesc d part va, held := h, current := none, rounds := [], nextRound := 0 } })
  let d := match launch with | some l => d.modLaunch l (fun x => { x with pops := x.pops ++ [va] }) | none => d
  writeHeld (writeVirtual d part (va + 4) 1 1) part va h

/-- R370's own checks. -/
def activateCause (d : Device) (part va tgroups : Nat) : Option Nat :=
  if !descValid (readDesc d part va) tgroups then some 0x80 else if 16 ≤ (d.part part).pops.length then some 0x86 else none

/-- A live population: its STATE is 1 and the port holds it. -/
def livePop (d : Device) (part va : Nat) : Option Popul :=
  if descField (readDesc d part va) 4 1 = 1 then (d.part part).popul va else none

-- lanes

/-- The lanes that belong to a population: group, lane, and the identifier of a member. -/
def popLanes (d : Device) (va : Nat) : List (Nat × Nat × Option Nat) :=
  d.groups.flatMap (fun g =>
    (lanesOf g.2.core.live).filterMap (fun l =>
      match g.2.core.popAt l with
      | .member p id _ _ => if p = va then some (g.1, l, some id) else none
      | .reserve p => if p = va then some (g.1, l, none) else none
      | .none => none))

/-- The lanes of a population in one partition. -/
def popLanesIn (d : Device) (part va : Nat) : List (Nat × Nat × Option Nat) :=
  (popLanes d va).filter (fun x => d.partOf (.user x.1) == part)

/-- The lanes a round that opens now awaits: outcomes that have still to land, or to land again after a rollback, count as landed, so a
killed lane is none and a lane bound for a clone stands under the clone's identifier (R375, R378) (log entry 18, DEDUCED). -/
def lanesAfter (d : Device) (part va : Nat) (x : Popul) : List (Nat × Nat × Option Nat) :=
  let open_ : List LaneOutcome := x.rounds.flatMap (fun r => (outcomesDue d va r.1 r.2).filter (fun o => o.killed || o.clone.isSome))
  (popLanesIn d part va).filter (fun m => !open_.any (fun o => o.group == m.1 && o.lane == m.2.1)) ++
    open_.filterMap (fun o => o.clone.map (fun k => (o.group, o.lane, some k.id)))

def Group.rsmpPending (g : Group) : Bool := g.core.pend.any Pending.isRsmp

-- the common part of the instructions (R369)

/-- A population instruction: guarded off or without a live lane it does nothing; the address and its translation come first. -/
def popSlot (o : EOp) (s : State) (f : Work → Nat → SlotRes) : Host.Outcome State Fault Refusal :=
  engSlot o s (fun w =>
    let va := engX w o 0
    if w.slotLanes = 0 then .ok w
    else if 2 ^ 57 ≤ va ∨ va % 128 ≠ 0 then .trap (causeAt 0x80 va false)
    else
      let w := { w with dev := portView w.dev w.coreNo w.part va }
      if descWaits w.dev w.part va then .wait none
      else match descCause w.dev w.part va with
        | some c => .trap (causeAt c va true)
        | none => f w va)

/-- POP.INIT (R370): the stores of its group that precede it are visible first. -/
def execPopInit (o : EOp) (s : State) : Host.Outcome State Fault Refusal :=
  popSlot o s (fun w va =>
    match w.dev.launchOf w.b.gid with
    | none => .ok w
    | some (lid, l) =>
      if !w.group.storesOut then .wait none
      else match activateCause w.dev w.part va l.spine.tgroups with
      | some c => .trap (causeAt c va false)
      | none => .ok { w with dev := activate w.dev w.part va (some lid) })

/-- The identifiers the joining lanes bring. -/
def joinIds (w : Work) (o : EOp) : List (Nat × Nat) := (lanesOf w.slotLanes).map (fun l => (l, readOperand w.b.regs w.b.lits o.src l 1))

/-- Whether joining lanes break R371's membership row. -/
def joinViolates (w : Work) (va : Nat) (x : Popul) : Bool :=
  let g := w.group
  let isLane (k : Nat) : Bool := g.core.popAt k != .none
  let other (k : Nat) : Bool := match g.core.popAt k with | .member p _ _ _ => p != va | .reserve p => p != va | .none => false
  let mine := match w.dev.launchOf w.b.gid with | some (lid, _) => some lid | none => none
  (lanesOf w.slotLanes).any isLane || (lanesOf g.core.live).any other ||
    (popLanesIn w.dev w.part va).any (fun m => match w.dev.group (.user m.1) with | some y => y.producer != g.producer | none => false) ||
    x.launch != mine

/-- Whether an identifier is taken or out of range. -/
def idsViolate (w : Work) (va : Nat) (x : Popul) (ids : List (Nat × Nat)) : Bool :=
  let held := (popLanesIn w.dev w.part va).filterMap (fun m => m.2.2)
  ids.any (fun i => decide (x.held.nextId ≤ i.2) || held.contains i.2) || ids.any (fun i => ids.any (fun j => i.1 != j.1 && i.2 == j.2))

/-- The lookahead result of a population instruction in each live lane of the slot, or uniform. -/
def popResult (w : Work) (o : EOp) (val : Nat → Nat) : Work :=
  match o.dst with
  | .v n =>
    let (op, w) := w.nextOp
    w.addPending { w.pending op w.b.lookE w.slotLanes (.v n.toNat 1) false with vals := valsOf w.slotLanes 1 val }
  | .s n =>
    let (op, w) := w.nextOp
    w.addPending { w.pending op w.b.lookE w.slotLanes (.s n.toNat 1) true with vals := [(0, wordsOf 1 (val 0))] }
  | .null => w

/-- POP.JOIN (R371). -/
def execPopJoin (o : EOp) (s : State) : Host.Outcome State Fault Refusal :=
  popSlot o s (fun w va =>
    match livePop w.dev w.part va with
    | none => .trap (causeAt 0x80 va false)
    | some x =>
      let resv := o.cmd.getLsbD 0
      let ids := joinIds w o
      if joinViolates w va x || (!resv && idsViolate w va x ids) then .trap (causeAt 0x81 va false)
      else if w.group.rsmpPending then .trap (causeAt 0x85 va false)
      else
        let n := ids.length
        let h := if resv then { x.held with reserve := x.held.reserve + n } else { x.held with live := x.held.live + n }
        let w := popResult w o (fun l => if resv then 0xFFFFFFFF else readOperand w.b.regs w.b.lits o.src l 1)
        let w := w.modCore (fun c => ids.foldl
          (fun c i => c.setPop i.1 (if resv then .reserve va else .member va i.2 (2 ^ 64 - 1) 0)) c)
        .ok { w with dev := writeLive (modPopul w.dev w.part va (fun x => { x with held := h })) w.part va h })

/-- POP.LEAVE (R372): the lanes retire at the end of the bundle. -/
def execPopLeave (o : EOp) (s : State) : Host.Outcome State Fault Refusal :=
  popSlot o s (fun w va =>
    match livePop w.dev w.part va with
    | none => .trap (causeAt 0x80 va false)
    | some _ => .ok { w with b := { w.b with leave := some va } })

/-- A field of POP.STAT: what the port holds of a live population, else the descriptor's bytes. -/
def statField (d : Device) (part va k : Nat) : Nat :=
  let x := readDesc d part va
  let mem := match k with
    | 0 => descField x 0xC 4 | 1 => descField x 0x28 4 | 2 => descField x 0x18 4 | 3 => descField x 0x20 4 | 4 => descField x 0x2C 4
    | _ => descField x 8 4
  match (d.part part).popul va with
  | none => mem
  | some p =>
    match k with
    | 0 => p.held.live | 1 => p.held.reserve | 2 => p.held.round % 2 ^ 32 | 3 => p.held.nextId % 2 ^ 32 | 4 => p.held.lastStat
    | _ => mem

/-- POP.STAT (R373). An address that breaks R368's or R365's obligation is cause 0x0F (00 R8) (log entry 18, DEDUCED). -/
def execPopStat (o : EOp) (s : State) : Host.Outcome State Fault Refusal :=
  engSlot o s (fun w =>
    let va := engX w o 0
    if w.slotLanes = 0 then .ok w
    else if 2 ^ 57 ≤ va ∨ va % 128 ≠ 0 then .trap (causeAt 0x0F va false)
    else
      let w := { w with dev := portView w.dev w.coreNo w.part va }
      if descWaits w.dev w.part va then .wait none
      else match descCause w.dev w.part va with
        | some c => .trap (causeAt c va true)
        | none =>
          if w.group.rsmpPending then .trap (causeAt 0x85 va false)
          else .ok (popResult w o (fun _ => statField w.dev w.part va (o.cmd.toNat % 8))))

-- arrival (R374, R375)

/-- The register image of a lane, but for its accumulator rows. -/
def imageOf (c : GCore) (lane vbud : Nat) : Image :=
  { v := (List.range vbud).map (fun n => (n, c.vAt n lane))
    p := (List.range 15).map (fun n => (n, (c.pAt n).getLsbD lane))
    perf := c.perfAt lane, acc := [] }

/-- The arrivals of a group: its member and reserve lanes in the slot. -/
def arrivalsOf (w : Work) (o : EOp) (va n vbud : Nat) : List Arrival :=
  let g := w.group
  let place := match w.dev.teamOf w.b.gid with | some (_, t) => t.place.getD (0, 0) | none => (0, 0)
  (lanesOf w.slotLanes).filterMap (fun l =>
    let weight := readOperand w.b.regs w.b.lits o.src l 1
    let base (id : Option Nat) (gen : Nat) : Arrival :=
      { group := w.id, lane := l, id, gen, weight, n, image := imageOf g.core l vbud, window := [], place, gone := false, ready := false }
    match g.core.popAt l with
    | .member p id _ gen => if p = va then some (base (some id) gen) else none
    | .reserve p => if p = va then some (base none 0) else none
    | .none => none)

/-- A round that opens with arrivals: the port reads the descriptor, and the lanes of the population that have not arrived are awaited
(R366, R375). -/
def openRound (d : Device) (part va : Nat) (x : Popul) (as : List Arrival) : Round :=
  let left := (lanesAfter d part va x).filter (fun m => !as.any (fun a => a.group == m.1 && a.lane == m.2.1))
  { desc := readDesc d part va
    members := left.filterMap (fun m => m.2.2.map (fun id => (m.1, m.2.1, id)))
    reserves := left.filterMap (fun m => if m.2.2.isNone then some (m.1, m.2.1) else none)
    arrived := as, errdep := false, outcome := none, short := false, landed := [], copies := [] }

/-- The round numbered next opens. -/
def Popul.openWith (x : Popul) (d : Device) (part va : Nat) (as : List Arrival) : Popul :=
  let r := openRound d part va x as
  { x with desc := r.desc, current := some x.nextRound, rounds := tput x.rounds x.nextRound r, nextRound := x.nextRound + 1 }

/-- Arrivals at the open round: lanes that joined after it opened take no part. -/
def Round.arrive (r : Round) (as : List Arrival) : Round :=
  let mine := as.filter (fun a =>
    r.members.any (fun m => m.1 == a.group && m.2.1 == a.lane) || r.reserves.any (fun m => m.1 == a.group && m.2 == a.lane))
  let here (g l : Nat) : Bool := mine.any (fun a => a.group == g && a.lane == l)
  { r with members := r.members.filter (fun m => !here m.1 m.2.1), reserves := r.reserves.filter (fun m => !here m.1 m.2)
           arrived := r.arrived ++ mine }

/-- Whether some arrival is awaited by a round. -/
def Round.awaits (r : Round) (as : List Arrival) : Bool := decide ((r.arrive as).arrived.length ≠ r.arrived.length)

/-- A round that waits to open, with the arrivals of lanes that belong to it. -/
def queuedRound (as : List Arrival) : Round :=
  { desc := 0, members := [], reserves := [], arrived := as, errdep := false, outcome := none, short := false, landed := [], copies := [] }

/-- Adds a group's arrivals: to the open round, to the one that opens with them, or to the next; the answer is the round's number. -/
def addArrivals (d : Device) (part va : Nat) (x : Popul) (as : List Arrival) : Nat × Popul :=
  match x.current with
  | none =>
    (x.nextRound, x.openWith d part va as)
  | some k =>
    match tget x.rounds k with
    | some r =>
      if r.awaits as then (k, { x with rounds := tput x.rounds k (r.arrive as) })
      else
        let q := match tget x.rounds x.nextRound with | some q => { q with arrived := q.arrived ++ as } | none => queuedRound as
        (x.nextRound, { x with rounds := tput x.rounds x.nextRound q })
    | none => (k, x)

/-- NaN and +infinity are no weights. -/
def weightBad (w : Nat) : Bool := decide (0x7F800000 ≤ w % 2 ^ 31) && w != 0xFF800000

/-- RSMP (R374, R375). An arrival is a release at device scope (R382). -/
def execRsmp (o : EOp) (s : State) : Host.Outcome State Fault Refusal :=
  engSlot o s (fun w =>
    if w.slotLanes != 0 && w.inHandler then .trap (causeOf 0x09)
    else
      let va := engX w o 0
      if w.slotLanes = 0 then .ok w
      else if 2 ^ 57 ≤ va ∨ va % 128 ≠ 0 then .trap (causeAt 0x80 va false)
      else
        let w := { w with dev := portView w.dev w.coreNo w.part va }
        if descWaits w.dev w.part va then .wait none
        else match descCause w.dev w.part va with
          | some c => .trap (causeAt c va true)
          | none =>
            match livePop w.dev w.part va, w.dev.launchOf w.b.gid with
            | none, _ => .trap (causeAt 0x80 va false)
            | some _, none => .ok w
            | some x, some (_, l) =>
              let n := engX w o 1 % 2 ^ 32
              let g := w.group
              let as := arrivalsOf w o va n (l.spine.vbud g.producer)
              let anyLane := (popLanesIn w.dev w.part va).any (fun m => m.1 == w.id)
              if !anyLane then .trap (causeAt 0x81 va false)
              else if (w.b.regs.slot (!w.b.slotB)).st != .idle || !w.b.regs.stack.isEmpty then .trap (causeAt 0x82 va false)
              else if descField (readDesc w.dev w.part va) 8 4 < n then .trap (causeAt 0x83 va false)
              else
                match as.find? (fun a => a.id.isSome && weightBad a.weight) with
                | some a => .trap (laneCause 0x84 a.lane va false)
                | none =>
                  if g.rsmpPending then .trap (causeAt 0x85 va false)
                  else if !w.mayRelease true then .wait none
                  else
                    let (op, w) := w.nextOp
                    let (k, x) := addArrivals w.dev w.part va x as
                    let lanes := as.foldl (fun m a => m ||| laneBit a.lane) (0 : LaneMask)
                    let w := w.addPending { w.pending op w.b.lookE lanes (.rsmp o.dst va k) false with arrived := false }
                    let w := { w with dev := modPopul w.dev w.part va (fun _ => x), b := { w.b with hold := some (va, k) } }
                    let team := match w.dev.teamOf w.b.gid with | some (t, _) => t | none => 0
                    let mark := { w.cmd team op 16 (.arrival va k) with tile := 16 }
                    .ok { w with dev := settleAll (w.dev.modCore w.coreNo (fun c => { c with mq := c.mq ++ [mark] })) w.coreNo })

-- evaluation (R376, R377)

/-- The number of j below N with (U + j × T) / N below a bound, T > 0. -/
def pointsBelow (u t n a : Nat) : Nat := if a * n ≤ u then 0 else Nat.min n ((a * n - u + t - 1) / t)

/-- q of a weight against the largest: a distance in 1/256 octaves. -/
def copyShare (w m : Exact) : Nat :=
  let diff := roundInt (((m.add false w.neg)).shift 8) false 32 .near 0
  if 7936 < diff then 0 else tableTQ.getD (diff % 256) 0 / 2 ^ (diff / 256)

/-- The exact weight of a member that has one: none for zero weight. -/
def Arrival.exactWeight (a : Arrival) : Option Exact := if a.gone || a.weight == 0xFF800000 then none else some (fp32.value a.weight)

/-- The largest of exact values. -/
def largest (l : List Exact) : Option Exact :=
  l.foldl (fun m w => match m with | some x => if Exact.lt x w then some w else some x | none => some w) none

/-- Members in ascending order of identifier. -/
def insertMember (a : Arrival) : List Arrival → List Arrival
  | [] => [a]
  | x :: t => if a.id.getD 0 < x.id.getD 0 then a :: x :: t else x :: insertMember a t

def sortMembers (l : List Arrival) : List Arrival := l.foldl (fun acc a => insertMember a acc) []

/-- The running sums of a list, beginning with 0. -/
def runningSums (acc : Nat) : List Nat → List Nat
  | [] => [acc]
  | x :: t => acc :: runningSums (acc + x) t

/-- Copies of each member: from the running sums, U, T and N. -/
def copiesOf (cum : List Nat) (u t n : Nat) : List Nat :=
  (cum.zip (cum.drop 1)).map (fun x => pointsBelow u t n x.2 - pointsBelow u t n x.1)

/-- A clone to place: identifier, parent arrival. -/
structure ClonePlan where
  id : Nat
  from_ : Arrival
  deriving DecidableEq, Repr

def lexLt : List Nat → List Nat → Bool
  | [], _ => false
  | _ :: _, [] => false
  | a :: s, b :: t => decide (a < b) || (a == b && lexLt s t)

/-- Fabric hops between dies (11 R257). -/
def hops (a b : Nat) : Nat := (a / 4 - b / 4) + (b / 4 - a / 4) + ((a % 4 - b % 4) + (b % 4 - a % 4))

/-- Where a vacancy stands from a parent's lane (R377). -/
def tierKey (d : Device) (parent v : Arrival) : List Nat :=
  let group (a : Arrival) : Nat := match d.group (.user a.group) with | some g => g.index | none => 0
  let teamOf (a : Arrival) : Option Nat := (d.teamOf (.user a.group)).map (fun t => t.1)
  let index (a : Arrival) : Nat := match d.teamOf (.user a.group) with | some (_, t) => t.index.toNat | none => 0
  if v.group = parent.group then [1, v.lane]
  else if teamOf v = teamOf parent then [2, group v, v.lane]
  else if v.place = parent.place then [3, index v, group v, v.lane]
  else if dieOf v.place.1 = dieOf parent.place.1 then [4, v.place.1, v.place.2, index v, group v, v.lane]
  else [5, hops (dieOf v.place.1) (dieOf parent.place.1), dieOf v.place.1, v.place.1, v.place.2, index v, group v, v.lane]

/-- The first free vacancy for a clone. -/
def bestVacancy (d : Device) (parent : Arrival) : List Arrival → Option Arrival
  | [] => none
  | v :: t =>
    match bestVacancy d parent t with
    | some b => if lexLt (tierKey d parent b) (tierKey d parent v) then some b else some v
    | none => some v

/-- Places clones in canonical order: vacancy and clone (log entry 18, DEDUCED). -/
def placeClones (d : Device) : List ClonePlan → List Arrival → List (Arrival × ClonePlan)
  | [], _ => []
  | k :: t, free =>
    match bestVacancy d k.from_ free with
    | some v => (v, k) :: placeClones d t (free.filter (fun x => !(x.group == v.group && x.lane == v.lane)))
    | none => []

/-- Each clone's mappings of its parent's held pages are counted (R381, 12 R273). -/
def holdFor (d : Device) (place : Nat × Nat) (window : List DWord) : Device :=
  window.foldl
    (fun d w =>
      let e := SptEntry.ofBits w
      match e.state with
      | .resident => takeFrame d place e.frame
      | .sharedOut => refSlot d e.bslot 1
      | _ => d)
    d

-- the lineage log (R380)

def lineageRecord (id parent gen : Nat) : Nat := id % 2 ^ 48 + parent % 2 ^ 48 * 2 ^ 48 + gen % 2 ^ 32 * 2 ^ 96

/-- Writes records from an element on; the answer says whether one was not written. -/
def writeLineage (d : Device) (part : Nat) (log : Rcd) (pos : Nat) : List Nat → Device × Bool
  | [] => (d, false)
  | x :: t =>
    let va := log.va (pos : Int)
    let bad := log.bad || log.esize != 4 || !log.write || decide (log.extent ≤ pos)
    let (d, miss) :=
      if bad then (d, true)
      else
        match heldXlate d part (d.part part).lead va { read := false, write := true, exec := false } true with
        | .local_ pa => (portWrite d part pa (natBytes 16 x), false)
        | .fault c => (logPlain d part (plainEntry c va part srcCore (d.part part).lead none 0 false), true)
        | .host _ | .peer _ _ | .waits => (logPlain d part (plainEntry 0x2E va part srcCore (d.part part).lead none 0 false), true)
    let (d, rest) := writeLineage d part log (pos + 1) t
    (d, miss || rest)

/-- What a round comes to before it is written back. -/
structure Verdict where
  degenerate : Bool
  short : Bool
  ndiff : Bool
  n : Nat
  /-- members that could survive: not retired and not killed -/
  alive : Nat
  /-- members with their copies, in identifier order -/
  copies : List (Arrival × Nat)
  placed : List (Arrival × ClonePlan)
  clones : List ClonePlan
  deriving DecidableEq, Repr

/-- R376 and R377 for a complete round. -/
def judgeRound (d : Device) (r : Round) (h : PopHeld) : Verdict :=
  let ms := sortMembers (r.arrived.filter (fun a => a.id.isSome))
  let n := match ms with | a :: _ => a.n | [] => 0
  let ws := ms.map Arrival.exactWeight
  let top := largest (ws.filterMap id)
  let q := ws.map (fun w => match w, top with | some w, some m => copyShare w m | _, _ => 0)
  let cum := runningSums 0 q
  let t := cum.getLast?.getD 0
  let alive := (ms.filter (fun a => !a.gone)).length
  let ndiff := ms.any (fun a => a.n != n)
  if t = 0 then
    { degenerate := true, short := false, ndiff, n, alive, copies := ms.map (fun a => (a, 0)), placed := [], clones := [] }
  else
    let u := mix (descField r.desc 0x10 8) (2 ^ 63 + h.round) % t
    let c := ms.zip (copiesOf cum u t n)
    let parents := c.flatMap (fun x => List.replicate (x.2 - 1) x.1)
    let clones := parents.zipIdx.map (fun x => ({ id := h.nextId + x.2, from_ := x.1 } : ClonePlan))
    let reserves := r.arrived.filter (fun a => a.id.isNone && !a.gone)
    let short := decide (alive + reserves.length < n) || decide (2 ^ 48 - 1 < h.nextId + clones.length)
    let free := (c.filter (fun x => x.2 == 0 && !x.1.gone)).map (fun x => x.1) ++ reserves
    { degenerate := false, short, ndiff, n, alive, copies := c, placed := if short then [] else placeClones d clones free, clones }

/-- R379: the status of a lane. -/
def statusWord (base copies : Nat) (clone : Bool) : Word :=
  BitVec.ofNat 32 (Nat.min copies 0xFFFF * 2 ^ 16 + (if clone then 0x20 else 0) + base)

/-- The outcome of one lane. -/
def laneOutcome (v : Verdict) (base : Nat) (a : Arrival) : LaneOutcome :=
  let blank : LaneOutcome := { group := a.group, lane := a.lane, killed := false, status := statusWord base 0 false, clone := none }
  if v.degenerate || v.short then blank
  else
    let copies := match a.id with
      | some i => ((v.copies.find? (fun x => x.1.id == some i)).map (fun x => x.2)).getD 0
      | none => 0
    match v.placed.find? (fun x => x.1.group == a.group && x.1.lane == a.lane) with
    | some (_, k) =>
      { blank with
        killed := a.id.isSome, status := statusWord base 0 true
        clone := some { id := k.id, parent := k.from_.id.getD 0, gen := (k.from_.gen + 1) % 2 ^ 32, image := k.from_.image,
                        window := k.from_.window, place := k.from_.place } }
    | none =>
      if a.id.isNone then blank
      else if copies = 0 then { blank with killed := true }
      else { blank with status := statusWord base copies false }

/-- The fields the hardware sets, after the round. -/
def heldAfter (v : Verdict) (base : Nat) (logs : Bool) (h : PopHeld) : PopHeld :=
  if v.degenerate || v.short then { h with lastStat := base }
  else
    { live := h.live - v.alive + v.n
      reserve := h.reserve - (v.placed.filter (fun x => x.1.id.isNone)).length
      round := (h.round + 1) % 2 ^ 64, nextId := h.nextId + v.clones.length, lastStat := base
      logPos := if logs then h.logPos + 1 + v.clones.length else h.logPos }

/-- A complete round: every awaited lane has arrived or retired, with its accumulator rows. -/
def Round.complete (r : Round) : Bool :=
  r.outcome.isNone && r.members.isEmpty && r.reserves.isEmpty && !r.arrived.isEmpty && r.arrived.all (fun a => a.ready || a.gone)

/-- Whether firmware has yet to hold the windows of a group that arrived at a round (R381). -/
def holdsOut (d : Device) (part va k : Nat) : Bool :=
  d.groups.any (fun g => g.2.holdWait == some (va, k) && d.partOf (.user g.1) == part)

/-- The groups whose RSMP of a round is pending receive its outcome. -/
def tellGroups (d : Device) (part va k : Nat) : Device :=
  d.groups.foldl
    (fun d x =>
      if d.partOf (.user x.1) ≠ part then d
      else
        let mine (p : Pending) : Bool := p.ofRound va k
        match x.2.core.pend.find? mine with
        | none =>
          (match x.2.ck.pend.find? mine with
          | some p => d.modGroup (.user x.1) (fun g => fillPending g p.op (fun p => { p with arrived := true }))
          | none => d)
        | some p =>
          let waited := x.2.waitsData
          arrived (d.modGroup (.user x.1) (fun g => fillPending g p.op (fun p => { p with arrived := true }))) (.user x.1) waited)
    d

/-- The next round opens when arrivals wait for it. -/
def openNext (d : Device) (part va : Nat) (x : Popul) : Popul :=
  match tget x.rounds x.nextRound with
  | some q => x.openWith d part va q.arrived
  | none => { x with current := none }

/-- The evaluation of an open round that is complete. -/
def evaluateRound (d : Device) (part va k : Nat) (x : Popul) (r : Round) : Device :=
  let v := judgeRound d r x.held
  let logs := descLogs r.desc
  let records := lineageRecord (2 ^ 48 - 1) x.held.round v.clones.length ::
    v.clones.map (fun c => lineageRecord c.id (c.from_.id.getD 0) (c.from_.gen + 1))
  let (d, loginc) := if logs && !v.degenerate && !v.short then writeLineage d part (descLog r.desc) x.held.logPos records else (d, false)
  let outcome := if v.degenerate then 1 else if v.short then 2 else 0
  let base := r.errdep.toNat * 16 + loginc.toNat * 8 + v.ndiff.toNat * 4 + outcome
  let out := (r.arrived.filter (fun a => !a.gone)).map (laneOutcome v base)
  let d := v.placed.foldl (fun d p => holdFor d p.2.from_.place p.2.from_.window) d
  let h := heldAfter v base logs x.held
  let r2 := { r with outcome := some out, short := v.short }
  let d := cpTouch d part va 128
  let x2 := openNext d part va { x with held := h, rounds := tput x.rounds k r2 }
  let d := d.modPart part (fun p => { p with pops := tput p.pops va x2 })
  let d := writeHeld d part va h
  tellGroups (settleHolds d part) part va k

/-- RSMP_EVALUATE: `pop` names the population as 2^57 × partition + the descriptor's address. -/
def execRsmpEvaluate (pop : Nat) (s : State) : Host.Outcome State Fault Refusal :=
  devStep s (fun d =>
    let part := pop / 2 ^ 57
    let va := pop % 2 ^ 57
    match (d.part part).popul va with
    | none => d
    | some x =>
      match x.current with
      | none => d
      | some k =>
        match tget x.rounds k with
        | some r => if r.complete && !holdsOut d part va k then evaluateRound d part va k x r else d
        | none => d)

end Sys2Proof.Machine
end

