-- ==== Sys2Proof/Machine/VectorFloat.lean ====
section
/-!
DEFINITION. The floating-point, conversion and logarithmic instructions of the V slots (chapter 06).
-/
namespace Sys2Proof.Machine

/-- FADD (06 R159). -/
def execFadd (o : VOp) (s : State) : Host.Outcome State Fault Refusal :=
  laneSlot o (.words 1) (.words 1) .none (fun _ x => faddLane o x) s

/-- FSUB (06 R159). -/
def execFsub (o : VOp) (s : State) : Host.Outcome State Fault Refusal :=
  laneSlot o (.words 1) (.words 1) .none (fun _ x => fsubLane o x) s

/-- FMUL (06 R159). -/
def execFmul (o : VOp) (s : State) : Host.Outcome State Fault Refusal :=
  laneSlot o (.words 1) (.words 1) .none (fun _ x => fmulLane o x) s

/-- FFMA (06 R159). -/
def execFfma (o : VOp) (s : State) : Host.Outcome State Fault Refusal :=
  laneSlot o (.words 1) (.words 1) (.words 1) (fun _ x => ffmaLane o x) s

/-- FMIN (06 R160). -/
def execFmin (o : VOp) (s : State) : Host.Outcome State Fault Refusal :=
  laneSlot o (.words 1) (.words 1) .none (fun _ x => fminLane o x) s

/-- FMAX (06 R160). -/
def execFmax (o : VOp) (s : State) : Host.Outcome State Fault Refusal :=
  laneSlot o (.words 1) (.words 1) .none (fun _ x => fmaxLane o x) s

/-- FCMP (06 R161). -/
def execFcmp (o : VOp) (s : State) : Host.Outcome State Fault Refusal :=
  laneSlot o (.words 1) (.words 1) .none (fun _ x => fcmpLane o x) s

/-- FRND (06 R162). -/
def execFrnd (o : VOp) (s : State) : Host.Outcome State Fault Refusal :=
  laneSlot o (.words 1) .none .none (fun _ x => frndLane o x) s

/-- FCLASS (06 R163). -/
def execFclass (o : VOp) (s : State) : Host.Outcome State Fault Refusal :=
  laneSlot o (.words 1) (.words 1) .none (fun _ x => fclassLane o x) s

/-- FSCALE (06 R164). -/
def execFscale (o : VOp) (s : State) : Host.Outcome State Fault Refusal :=
  laneSlot o (.words 1) (.words 1) .none (fun _ x => fscaleLane o x) s

/-- PKADD (06 R166). -/
def execPkadd (o : VOp) (s : State) : Host.Outcome State Fault Refusal :=
  laneSlot o (.elems o.type) (.elems o.type) .none (fun _ x => pkaddLane o x) s

/-- PKMUL (06 R166). -/
def execPkmul (o : VOp) (s : State) : Host.Outcome State Fault Refusal :=
  laneSlot o (.elems o.type) (.elems o.type) .none (fun _ x => pkmulLane o x) s

/-- PKFMA (06 R166). -/
def execPkfma (o : VOp) (s : State) : Host.Outcome State Fault Refusal :=
  laneSlot o (.elems o.type) (.elems o.type) (.elems o.type) (fun _ x => pkfmaLane o x) s

/-- PKMIN (06 R166). -/
def execPkmin (o : VOp) (s : State) : Host.Outcome State Fault Refusal :=
  laneSlot o (.elems o.type) (.elems o.type) .none (fun _ x => pkminLane o x) s

/-- PKMAX (06 R166). -/
def execPkmax (o : VOp) (s : State) : Host.Outcome State Fault Refusal :=
  laneSlot o (.elems o.type) (.elems o.type) .none (fun _ x => pkmaxLane o x) s

/-- PKCMP (06 R167). -/
def execPkcmp (o : VOp) (s : State) : Host.Outcome State Fault Refusal :=
  laneSlot o (.elems o.type) (.elems o.type) .none (fun _ x => pkcmpLane o x) s

/-- FRCP (06 R165, 03 R102). -/
def execFrcp (o : VOp) (s : State) : Host.Outcome State Fault Refusal :=
  laneLate o (.words 1) .none .none (fun _ x => frcpLane o x) s

/-- FRSQ (06 R165, 03 R102). -/
def execFrsq (o : VOp) (s : State) : Host.Outcome State Fault Refusal :=
  laneLate o (.words 1) .none .none (fun _ x => frsqLane o x) s

/-- FSQRT (06 R165, 03 R102). -/
def execFsqrt (o : VOp) (s : State) : Host.Outcome State Fault Refusal :=
  laneLate o (.words 1) .none .none (fun _ x => fsqrtLane o x) s

/-- FEX2 (06 R165, 03 R104). -/
def execFex2 (o : VOp) (s : State) : Host.Outcome State Fault Refusal :=
  laneLate o (.words 1) .none .none (fun _ x => fex2Lane o x) s

/-- FLG2 (06 R165, 03 R105). -/
def execFlg2 (o : VOp) (s : State) : Host.Outcome State Fault Refusal :=
  laneLate o (.words 1) .none .none (fun _ x => flg2Lane o x) s

/-- FSIN (06 R165, 03 R106). -/
def execFsin (o : VOp) (s : State) : Host.Outcome State Fault Refusal :=
  laneLate o (.words 1) .none .none (fun _ x => fsinLane o x) s

/-- FCOS (06 R165, 03 R106). -/
def execFcos (o : VOp) (s : State) : Host.Outcome State Fault Refusal :=
  laneLate o (.words 1) .none .none (fun _ x => fcosLane o x) s

/-- How CVT's SA is read: as the elements of its source type (06 R157, R168). -/
def cvtRead (o : VOp) : Rd := .elems (o.cvtSrc.getD .f32)

/-- How CVT's merge operand is read: not at all for a destination that is not packed (06 R168). -/
def cvtMerge (o : VOp) : Rd := if o.type.elems = 1 then .none else .elems o.type

/-- CVT (06 R170). -/
def execCvt (o : VOp) (s : State) : Host.Outcome State Fault Refusal :=
  laneSlot o (cvtRead o) (cvtMerge o) (.words 1) (fun b x => cvtLane false b.fmt.toNat o x) s

/-- CVT, block-scaled (06 R170): the format register is the one of its own bundle. -/
def execCvtMx (o : VOp) (s : State) : Host.Outcome State Fault Refusal :=
  laneLate o (cvtRead o) (cvtMerge o) (.words 1) (fun b x => cvtLane true b.fmt.toNat o x) s

/-- SCALE.MX (06 R173): one block of the active lanes; a word of a, a constant spread as 06 R157 says, is taken as an FP32 value (log entry 33, DEDUCED). -/
def execScaleMx (o : VOp) (s : State) : Host.Outcome State Fault Refusal :=
  vecSlot o s (fun w act =>
    let codes := (lanesOf act).map (fun l => readAs w.b.regs w.b.lits o.sa l (.elems o.type))
    let r := scaleMxCode o.type codes
    lateResult w o.look.toNat o.dst 1 o.pd o.pc2 act (fun _ => r) (fun _ => r == 0xFF))

/-- LGMUL (06 R175). -/
def execLgmul (o : VOp) (s : State) : Host.Outcome State Fault Refusal :=
  laneSlot o (.elems .lg6) (.elems .lg6) .none (fun b x => lgmulLane b.fmt.toNat o x) s

/-- LGADD (06 R176). -/
def execLgadd (o : VOp) (s : State) : Host.Outcome State Fault Refusal :=
  laneSlot o (.elems .lg6) (.elems .lg6) .none (fun b x => lgaddLane b.fmt.toNat o x) s

end Sys2Proof.Machine
end

