-- ==== Sys2Proof/Machine/VectorInt.lean ====
section
/-!
DEFINITION. The integer, logical and bit-field instructions of the V slots (chapter 05).
-/
namespace Sys2Proof.Machine

/-- MOV (05 R149). -/
def execMov (o : VOp) (s : State) : Host.Outcome State Fault Refusal :=
  laneSlot o (.words o.type.words) .none .none (fun _ x => movLane o x) s

/-- IADD (05 R137). -/
def execIadd (o : VOp) (s : State) : Host.Outcome State Fault Refusal :=
  laneSlot o (.elems o.type) (.elems o.type) .none (fun _ x => iaddLane o x) s

/-- ISUB (05 R137). -/
def execIsub (o : VOp) (s : State) : Host.Outcome State Fault Refusal :=
  laneSlot o (.elems o.type) (.elems o.type) .none (fun _ x => isubLane o x) s

/-- IADDC (05 R137). -/
def execIaddc (o : VOp) (s : State) : Host.Outcome State Fault Refusal :=
  laneSlot o (.elems o.type) (.elems o.type) .none (fun _ x => iaddcLane o x) s

/-- ISUBB (05 R137). -/
def execIsubb (o : VOp) (s : State) : Host.Outcome State Fault Refusal :=
  laneSlot o (.elems o.type) (.elems o.type) .none (fun _ x => isubbLane o x) s

/-- IMUL (05 R138). -/
def execImul (o : VOp) (s : State) : Host.Outcome State Fault Refusal :=
  laneSlot o (.elems o.type) (.elems o.type) .none (fun _ x => imulLane o x) s

/-- IMULH (05 R138). -/
def execImulh (o : VOp) (s : State) : Host.Outcome State Fault Refusal :=
  laneSlot o (.elems o.type) (.elems o.type) .none (fun _ x => imulhLane o x) s

/-- IMAD (05 R138). -/
def execImad (o : VOp) (s : State) : Host.Outcome State Fault Refusal :=
  laneSlot o (.elems o.type) (.elems o.type) (.elems o.type) (fun _ x => imadLane o x) s

/-- IMADW (05 R138). -/
def execImadw (o : VOp) (s : State) : Host.Outcome State Fault Refusal :=
  vecSlot o s (fun w act =>
    let out := fun l => imadwLane o (laneIn w.b o (.words 1) (.words 1) (.words 2) l)
    shortResult w o.dst 2 o.pd o.pc2 act (fun l => (out l).val) (fun l => (out l).prim))

/-- IMIN (05 R139). -/
def execImin (o : VOp) (s : State) : Host.Outcome State Fault Refusal :=
  laneSlot o (.elems o.type) (.elems o.type) .none (fun _ x => iminLane o x) s

/-- IMAX (05 R139). -/
def execImax (o : VOp) (s : State) : Host.Outcome State Fault Refusal :=
  laneSlot o (.elems o.type) (.elems o.type) .none (fun _ x => imaxLane o x) s

/-- IABS (05 R139). -/
def execIabs (o : VOp) (s : State) : Host.Outcome State Fault Refusal :=
  laneSlot o (.elems o.type) .none .none (fun _ x => iabsLane o x) s

/-- INEG (05 R139). -/
def execIneg (o : VOp) (s : State) : Host.Outcome State Fault Refusal :=
  laneSlot o (.elems o.type) .none .none (fun _ x => inegLane o x) s

/-- ICMP (05 R140). -/
def execIcmp (o : VOp) (s : State) : Host.Outcome State Fault Refusal :=
  laneSlot o (.elems o.type) (.elems o.type) .none (fun _ x => icmpLane o x) s

/-- SEL (05 R141). -/
def execSel (o : VOp) (s : State) : Host.Outcome State Fault Refusal :=
  laneSlot o (.words o.type.words) (.words o.type.words) .none (fun _ x => selLane o x) s

/-- AND (05 R142). -/
def execBitAnd (o : VOp) (s : State) : Host.Outcome State Fault Refusal :=
  laneSlot o (.words o.type.words) (.words o.type.words) .none (fun _ x => andLane o x) s

/-- OR (05 R142). -/
def execBitOr (o : VOp) (s : State) : Host.Outcome State Fault Refusal :=
  laneSlot o (.words o.type.words) (.words o.type.words) .none (fun _ x => orLane o x) s

/-- XOR (05 R142). -/
def execBitXor (o : VOp) (s : State) : Host.Outcome State Fault Refusal :=
  laneSlot o (.words o.type.words) (.words o.type.words) .none (fun _ x => xorLane o x) s

/-- ANDN (05 R142). -/
def execAndn (o : VOp) (s : State) : Host.Outcome State Fault Refusal :=
  laneSlot o (.words o.type.words) (.words o.type.words) .none (fun _ x => andnLane o x) s

/-- ORN (05 R142). -/
def execOrn (o : VOp) (s : State) : Host.Outcome State Fault Refusal :=
  laneSlot o (.words o.type.words) (.words o.type.words) .none (fun _ x => ornLane o x) s

/-- NOT (05 R142). -/
def execBitNot (o : VOp) (s : State) : Host.Outcome State Fault Refusal :=
  laneSlot o (.words o.type.words) .none .none (fun _ x => notLane o x) s

/-- BMIX (05 R142). -/
def execBmix (o : VOp) (s : State) : Host.Outcome State Fault Refusal :=
  laneSlot o (.words o.type.words) (.words o.type.words) (.words o.type.words) (fun _ x => bmixLane o x) s

/-- IDP4 (05 R148). -/
def execIdp4 (o : VOp) (s : State) : Host.Outcome State Fault Refusal :=
  laneSlot o (.elems o.type) (.elems o.type) (.words 1) (fun _ x => idp4Lane o x) s

/-- SHL (05 R143). -/
def execShl (o : VOp) (s : State) : Host.Outcome State Fault Refusal :=
  laneSlot o (.words o.type.words) (.words 1) .none (fun _ x => shlLane o x) s

/-- SHR (05 R143). -/
def execShr (o : VOp) (s : State) : Host.Outcome State Fault Refusal :=
  laneSlot o (.words o.type.words) (.words 1) .none (fun _ x => shrLane o x) s

/-- SAR (05 R143). -/
def execSar (o : VOp) (s : State) : Host.Outcome State Fault Refusal :=
  laneSlot o (.words o.type.words) (.words 1) .none (fun _ x => sarLane o x) s

/-- SHF (05 R144). -/
def execShf (o : VOp) (s : State) : Host.Outcome State Fault Refusal :=
  laneSlot o (.words 1) (.words 1) (.words 1) (fun _ x => shfLane o x) s

/-- ROT (05 R143). -/
def execRot (o : VOp) (s : State) : Host.Outcome State Fault Refusal :=
  laneSlot o (.words o.type.words) (.words 1) .none (fun _ x => rotLane o x) s

/-- POPC (05 R145). -/
def execPopc (o : VOp) (s : State) : Host.Outcome State Fault Refusal :=
  laneSlot o (.words o.type.words) .none .none (fun _ x => popcLane o x) s

/-- CLZ (05 R145). -/
def execClz (o : VOp) (s : State) : Host.Outcome State Fault Refusal :=
  laneSlot o (.words o.type.words) .none .none (fun _ x => clzLane o x) s

/-- CTZ (05 R145). -/
def execCtz (o : VOp) (s : State) : Host.Outcome State Fault Refusal :=
  laneSlot o (.words o.type.words) .none .none (fun _ x => ctzLane o x) s

/-- BREV (05 R145). -/
def execBrev (o : VOp) (s : State) : Host.Outcome State Fault Refusal :=
  laneSlot o (.words o.type.words) .none .none (fun _ x => brevLane o x) s

/-- BFX (05 R146). -/
def execBfx (o : VOp) (s : State) : Host.Outcome State Fault Refusal :=
  laneSlot o (.words 1) (.words 1) .none (fun _ x => bfxLane o x) s

/-- BFI (05 R146). -/
def execBfi (o : VOp) (s : State) : Host.Outcome State Fault Refusal :=
  laneSlot o (.words 1) (.words 1) (.words 1) (fun _ x => bfiLane o x) s

/-- BPERM (05 R147). -/
def execBperm (o : VOp) (s : State) : Host.Outcome State Fault Refusal :=
  laneSlot o (.words 1) (.words 1) (.words 1) (fun _ x => bpermLane o x) s

/-- READL (05 R150): the source lane may belong to any path; a lane that is not live reads as 0. -/
def execReadl (o : VOp) (s : State) : Host.Outcome State Fault Refusal :=
  laneSlot o .none (.words 1) .none
    (fun b x =>
      let src := x.b % 32
      outNonZero (if b.regs.live.getLsbD src then readOperand b.regs b.lits o.sa src o.type.words else 0))
    s

/-- (TEAM × TGROUPS + GROUP) × 32 + LANE (05 R151). -/
def gridPos (team tgroups group lane : Nat) : Nat := (team * tgroups + group) * 32 + lane

/-- The counter mixer's key of a lane (05 R153). A firmware context has no GRIDPOS: its part of the key is a free value (log entry
6, DESIGN CHOICE). -/
def randKey (w : Work) (lane : Nat) : Nat :=
  match w.b.regs.popAt lane with
  | .member _ id _ _ => id
  | _ =>
    match w.dev.teamOf w.b.gid, w.dev.launchOf w.b.gid with
    | some (_, t), some (_, l) => 2 ^ 63 + gridPos t.index.toNat l.spine.tgroups w.group.index lane % 2 ^ 63
    | _, _ => 2 ^ 63 + (Config.sysWord (w.dev.drawn + lane)).toNat % 2 ^ 63

/-- RAND (05 R153). -/
def execRand (o : VOp) (s : State) : Host.Outcome State Fault Refusal :=
  vecSlot o s (fun w act =>
    let r := fun l => mix (randKey w l) (readOperand w.b.regs w.b.lits o.sa l 2)
    let w := if (w.dev.teamOf w.b.gid).isSome then w else { w with dev := { w.dev with drawn := w.dev.drawn + 32 } }
    lateResult w o.look.toNat o.dst o.type.words o.pd o.pc2 act r (fun _ => false))

end Sys2Proof.Machine
end

