-- ==== Sys2Proof/Machine/SlotDispatch.lean ====
section
/-!
DEFINITION. The slots of a bundle: each slot operation of an open bundle is run by the meaning of its instruction.
-/
namespace Sys2Proof.Machine

/-- The effect of a slot operation on an open bundle. -/
def execSlot (i : Instr) (s : State) : Host.Outcome State Fault Refusal :=
  match i with
  | .nop o => execNop o s
  | .bra o => execBra o s
  | .brd o => execBrd o s
  | .bri o => execBri o s
  | .join o => execJoin o s
  | .call o => execCall o s
  | .ret o => execRet o s
  | .loop o => execLoop o s
  | .lend o => execLend o s
  | .exit o => execExit o s
  | .halt o => execHalt o s
  | .yield o => execYield o s
  | .setfmt o => execSetfmt o s
  | .getfmt o => execGetfmt o s
  | .perfSet o => execPerfSet o s
  | .trap o => execTrap o s
  | .sysRoundTrip o => execSysRoundTrip o s
  | .sysProgress o => execSysProgress o s
  | .sysPageIn o => execSysPageIn o s
  | .sysGroupCount o => execSysGroupCount o s
  | .bkpt o => execBkpt o s
  | .iret o => execIret o s
  | .waitb o => execWaitb o s
  | .barArrive o => execBarArrive o s
  | .barWait o => execBarWait o s
  | .barTeam o => execBarTeam o s
  | .barGrid o => execBarGrid o s
  | .qand o => execQand o s
  | .qor o => execQor o s
  | .qxor o => execQxor o s
  | .qnot o => execQnot o s
  | .qmov o => execQmov o s
  | .xmov o => execXmov o s
  | .xli o => execXli o s
  | .mov o => execMov o s
  | .iadd o => execIadd o s
  | .isub o => execIsub o s
  | .iaddc o => execIaddc o s
  | .isubb o => execIsubb o s
  | .imul o => execImul o s
  | .imulh o => execImulh o s
  | .imad o => execImad o s
  | .imadw o => execImadw o s
  | .imin o => execImin o s
  | .imax o => execImax o s
  | .iabs o => execIabs o s
  | .ineg o => execIneg o s
  | .icmp o => execIcmp o s
  | .sel o => execSel o s
  | .bitAnd o => execBitAnd o s
  | .bitOr o => execBitOr o s
  | .bitXor o => execBitXor o s
  | .andn o => execAndn o s
  | .orn o => execOrn o s
  | .bitNot o => execBitNot o s
  | .bmix o => execBmix o s
  | .idp4 o => execIdp4 o s
  | .shl o => execShl o s
  | .shr o => execShr o s
  | .sar o => execSar o s
  | .shf o => execShf o s
  | .rot o => execRot o s
  | .popc o => execPopc o s
  | .clz o => execClz o s
  | .ctz o => execCtz o s
  | .brev o => execBrev o s
  | .bfx o => execBfx o s
  | .bfi o => execBfi o s
  | .bperm o => execBperm o s
  | .readl o => execReadl o s
  | .rdsys o => execRdsys o s
  | .wrsys o => execWrsys o s
  | .rand o => execRand o s
  | .fadd o => execFadd o s
  | .fsub o => execFsub o s
  | .fmul o => execFmul o s
  | .ffma o => execFfma o s
  | .fmin o => execFmin o s
  | .fmax o => execFmax o s
  | .fcmp o => execFcmp o s
  | .frnd o => execFrnd o s
  | .fclass o => execFclass o s
  | .fscale o => execFscale o s
  | .pkadd o => execPkadd o s
  | .pkmul o => execPkmul o s
  | .pkfma o => execPkfma o s
  | .pkmin o => execPkmin o s
  | .pkmax o => execPkmax o s
  | .pkcmp o => execPkcmp o s
  | .frcp o => execFrcp o s
  | .frsq o => execFrsq o s
  | .fsqrt o => execFsqrt o s
  | .fex2 o => execFex2 o s
  | .flg2 o => execFlg2 o s
  | .fsin o => execFsin o s
  | .fcos o => execFcos o s
  | .cvt o => execCvt o s
  | .cvtMx o => execCvtMx o s
  | .scaleMx o => execScaleMx o s
  | .lgmul o => execLgmul o s
  | .lgadd o => execLgadd o s
  | .xlGet o => execXlGet o s
  | .xlUp o => execXlUp o s
  | .xlDn o => execXlDn o s
  | .xlBfly o => execXlBfly o s
  | .ballot o => execBallot o s
  | .voteAny o => execVoteAny o s
  | .voteAll o => execVoteAll o s
  | .voteEq o => execVoteEq o s
  | .lfold o => execLfold o s
  | .pand o => execPand o s
  | .por o => execPor o s
  | .pxor o => execPxor o s
  | .pnot o => execPnot o s
  | .pmov o => execPmov o s
  | .p2v o => execP2v o s
  | .v2p o => execV2p o s
  | .ldG o => execLdG o s
  | .stG o => execStG o s
  | .ldS o => execLdS o s
  | .stS o => execStS o s
  | .fence o => execFence o s
  | .pref o => execPref o s
  | .l1inv o => execL1inv o s
  | .l1invAll o => execL1invAll o s
  | .l1invRec o => execL1invRec o s
  | .tld o => execTld o s
  | .tst o => execTst o s
  | .recLd o => execRecLd o s
  | .recMk o => execRecMk o s
  | .spgOut o => execSpgOut o s
  | .spgIn o => execSpgIn o s
  | .atomGAdd o => execAtomGAdd o s
  | .atomGMin o => execAtomGMin o s
  | .atomGMax o => execAtomGMax o s
  | .atomGAnd o => execAtomGAnd o s
  | .atomGOr o => execAtomGOr o s
  | .atomGXor o => execAtomGXor o s
  | .atomGXchg o => execAtomGXchg o s
  | .atomGCas o => execAtomGCas o s
  | .atomGInc o => execAtomGInc o s
  | .atomGDec o => execAtomGDec o s
  | .atomGFadd o => execAtomGFadd o s
  | .atomSAdd o => execAtomSAdd o s
  | .atomSMin o => execAtomSMin o s
  | .atomSMax o => execAtomSMax o s
  | .atomSAnd o => execAtomSAnd o s
  | .atomSOr o => execAtomSOr o s
  | .atomSXor o => execAtomSXor o s
  | .atomSXchg o => execAtomSXchg o s
  | .atomSCas o => execAtomSCas o s
  | .atomSInc o => execAtomSInc o s
  | .atomSDec o => execAtomSDec o s
  | .atomSFadd o => execAtomSFadd o s
  | .mma o => execMma o s
  | .mmaSp o => execMmaSp o s
  | .accZero o => execAccZero o s
  | .accRd o => execAccRd o s
  | .accWr o => execAccWr o s
  | .ringCfg o => execRingCfg o s
  | .sqCfg o => execSqCfg o s
  | .ringRst o => execRingRst o s
  | .ringStat o => execRingStat o s
  | .copyKick o => execCopyKick o s
  | .uintArm o => execUintArm o s
  | .sealTile o => execSealTile o s
  | .openTile o => execOpenTile o s
  | .spawn o => execSpawn o s
  | .popInit o => execPopInit o s
  | .popJoin o => execPopJoin o s
  | .popLeave o => execPopLeave o s
  | .rsmp o => execRsmp o s
  | .popStat o => execPopStat o s
  | _ => .next s

/-- The slots of a bundle run in the order C, V0, V1, M, E (02 R32); one that traps or waits ends the bundle. -/
def runSlots : List SlotLeaf → State → Host.Outcome State Fault Refusal
  | [], s => .next s
  | x :: t, s =>
    match x.leaf with
    | none => runSlots t s
    | some i =>
      match execSlot i s with
      | .next s2 => if s2.opn.isSome then runSlots t s2 else .next s2
      | r => r

end Sys2Proof.Machine
end

