-- ==== Sys2Proof/Machine/Issue.lean ====
section
/-!
DEFINITION. The choice of a bundle each cycle (09 R227 to R229), the firmware share (R230, R231), energy stalls (R233), and BUNDLE
itself (01 R14 to R19, 02 R67).
-/
namespace Sys2Proof.Machine

-- ISSUE_PICK

/-- Whether a group sits in its core's front bank. -/
def inFront (d : Device) (id : Nat) : Bool :=
  match d.teamOf (.user id) with
  | some (_, t) => match t.place with | some (core, bank) => (d.core core).frontBank == bank | none => false
  | none => false

/-- R227, and R19's four cycles. -/
def eligible (d : Device) (t id : Nat) : Bool :=
  ableToIssue d id && inFront d id &&
    (match d.group (.user id) with
     | some g => (match g.lastIssue with | some k => decide (k + 4 ≤ t) | none => true)
     | none => false)

/-- What the picks of a cycle have used so far: quadrants, register banks of each pair, engine ports. -/
structure PickState where
  picks : List Nat
  quads : List Nat
  banks : List (Nat × Nat)
  ports : List Nat
  deriving DecidableEq, Repr

/-- The picks of one pair, oldest group first (R229). In protected mode a pick takes both quadrants of the pair. -/
def pickPair (d : Device) (prot : Bool) (t pair : Nat) : List Nat → PickState → PickState
  | [], k => k
  | id :: rest, k =>
    match d.group (.user id) with
    | none => pickPair d prot t pair rest k
    | some g =>
      let quads := if prot then [2 * pair, 2 * pair + 1] else [g.quad]
      let ports := ((nextLeaves d id).map leafPort).filter (· != 0)
      let free := quads.all (fun q => !k.quads.contains q) && !k.banks.contains (pair, g.pos % 8) && ports.all (fun p => !k.ports.contains p)
      if eligible d t id && free then
        pickPair d prot t pair rest
          { picks := k.picks ++ [id], quads := quads ++ k.quads, banks := (pair, g.pos % 8) :: k.banks, ports := ports ++ k.ports }
      else pickPair d prot t pair rest k

/-- After a cycle each picked group becomes younger than every group that was eligible and not picked; among the groups that were not
eligible it stands right behind the last of those (log entry 38, DESIGN CHOICE). -/
def reorderAges (elig picks order : List Nat) : List Nat :=
  let passed (id : Nat) : Bool := elig.contains id && !picks.contains id
  let rest := (order.reverse.dropWhile (fun id => !passed id)).reverse
  let young := order.drop rest.length
  rest.filter (fun id => !picks.contains id) ++ rest.filter (fun id => picks.contains id) ++ young

/-- The energy window's sum, cycles t − 64 to t − 1 (R233). -/
def windowSum (c : Core) (t : Nat) : Nat := ((c.weights.filter (fun w => decide (t ≤ w.1 + 64) && decide (w.1 < t))).map (fun w => w.2)).sum

/-- The cycle passes. -/
def Core.tick (c : Core) : Core :=
  { c with now := c.now + 1, cycle := c.cycle + 1, fwPicked := [], fwPorts := [], weights := c.weights.filter (fun w => decide (c.now < w.1 + 64)) }

/-- The groups picked in the last cycle whose bundles have still to run. -/
def stillPicked (d : Device) (core : Nat) : List Nat := (d.core core).picked.filter (fun id => d.coreOf (.user id) == some core)

/-- One cycle of a core's choice (log entry 30, DEDUCED). The bundles of a cycle run before the next cycle's choice. -/
def pickCycle (d : Device) (core : Nat) : Device :=
  let c := { d.core core with picked := [] }
  let d := d.setCore core c
  let t := c.now
  if c.budget < windowSum c t then d.modCore core (fun c => { c.tick with stallCount := c.stallCount + 1 })
  else
    let prot := (d.part (d.partOfDie (dieOf core))).prot
    let bank := c.frontBank
    let first := t % 2
    let taken := if prot then c.fwPicked.flatMap (fun q => [q / 2 * 2, q / 2 * 2 + 1]) else c.fwPicked
    let k : PickState := { picks := [], quads := taken, banks := [], ports := c.fwPorts }
    let k := pickPair d prot t first (c.age bank first) k
    let k := pickPair d prot t (1 - first) (c.age bank (1 - first)) k
    let young (pair : Nat) : List Nat :=
      let order := c.age bank pair
      reorderAges (order.filter (eligible d t)) k.picks order
    let d := d.modCore core (fun c =>
      { ((c.setAge bank 0 (young 0)).setAge bank 1 (young 1)).tick with picked := k.picks })
    k.picks.foldl (fun d id => d.modGroup (.user id) (fun g => { g with issueCycle := c.cycle })) d

/-- ISSUE_PICK (R229) of one of the device's cores (00 R1). -/
def execIssuePick (core : Nat) (s : State) : Host.Outcome State Fault Refusal :=
  devStep s (fun d => if (stillPicked d core).isEmpty && decide (core < 2560) then pickCycle d core else d)

-- the firmware share

def Seqr.burst (q : Seqr) : Nat := q.share.toNat / 2 ^ 8 % 16
def Seqr.interval (q : Seqr) : Nat := q.share.toNat % 2 ^ 8

/-- FIRMWARE_CREDIT (R231): a credit every INTERVAL cycles, up to BURST. -/
def execFirmwareCredit (core quad : Nat) (s : State) : Host.Outcome State Fault Refusal :=
  devStep s (fun d =>
    let q := (d.core core).seq quad
    if (d.core core).now < q.creditAt + q.interval || decide (2560 ≤ core) || decide (4 ≤ quad) then d
    else
      d.modCore core (fun c =>
        c.setSeq quad { q with credits := Nat.min (q.credits + 1) q.burst, creditAt := q.creditAt + q.interval }))

-- BUNDLE

/-- Runs an opened bundle, picked in cycle t, to its end. -/
def runOpened (o : Opened) (t : Nat) (s : State) : Host.Outcome State Fault Refusal :=
  match o with
  | .done d => .next { s with dev := d, opn := none }
  | .run d b leaves =>
    let d := { d with hits := [] }
    match runSlots leaves { s with dev := d, opn := some { b with start := d, cycle := t } } with
    | .next s2 =>
      match s2.opn with
      | none => .next s2
      | some b2 => .next { s2 with dev := closeBundle s2.dev b2, opn := none }
    | r => r

/-- A picked user group's bundle. A group that has been stopped since its pick issues nothing. -/
def bundleOfGroup (id : Nat) (s : State) : Host.Outcome State Fault Refusal :=
  match s.dev.coreOf (.user id) with
  | none => .next s
  | some core =>
    if !(s.dev.core core).picked.contains id then .next s
    else
      let d := s.dev.modCore core (fun c => { c with picked := c.picked.filter (· != id) })
      if ableToIssue d id && inFront d id then runOpened (openUser d id) ((d.core core).now - 1) { s with dev := d }
      else .next { s with dev := d }

/-- The engine ports a firmware bundle takes. -/
def firmwarePorts (halves : List Half) : List Nat :=
  match decodeBundle halves with
  | some k => ((firmwareLeaves k.idx).filterMap (fun l => l.leaf.map leafPort)).filter (· != 0)
  | none => []

/-- Whether a firmware context has a bundle ready: a slot that issues, and every result due at its boundary (01 R25). -/
def firmwareReady (d : Device) (key : Nat) : Bool :=
  match d.group (.fw key) with
  | some g => g.core.nextSlot.isSome && !g.waitsData
  | none => false

/-- A firmware bundle that has issued in cycle t holds its quadrant and its engine ports for that cycle (R228, R229); one that waits or
traps at the decode stage has not issued. -/
def takeFirmwareSlot (core quad t : Nat) (ports : List Nat) (s : State) : State :=
  if ((s.dev.core core).seq quad).lastIssue = some t then
    { s with dev := s.dev.modCore core (fun c => { c with fwPicked := quad :: c.fwPicked, fwPorts := ports ++ c.fwPorts }) }
  else s

/-- A firmware context's bundle takes its quadrant's issue slot, four cycles after its last one, for one credit (R231), when it is
ready and its engine port is free in the cycle (R228). -/
def bundleOfFirmware (core quad : Nat) (halves : List Half) (s : State) : Host.Outcome State Fault Refusal :=
  let c := s.dev.core core
  let q := c.seq quad
  let soon := match q.lastIssue with | some k => decide (c.now < k + 4) | none => false
  let ports := firmwarePorts halves
  if c.fwFault || q.credits == 0 || soon || c.fwPicked.contains quad || decide (4 ≤ quad) || decide (2560 ≤ core) ||
      !firmwareReady s.dev (4 * core + quad) || ports.any (fun p => c.fwPorts.contains p) then .next s
  else
    match runOpened (openFirmware s.dev (4 * core + quad) halves) c.now s with
    | .next s => .next (takeFirmwareSlot core quad c.now ports s)
    | r => r

/-- BUNDLE (R14). One bundle runs at a time: inside an open one the step does nothing. -/
def execBundle (who : Issuer) (s : State) : Host.Outcome State Fault Refusal :=
  if s.opn.isSome then .next s
  else
    match who with
    | .group id => bundleOfGroup id s
    | .firmware core quad halves => bundleOfFirmware core quad halves s

end Sys2Proof.Machine
end

