-- ==== Sys2Proof/Machine/Binder.lean ====
section
/-!
DEFINITION. The binder (02 R62 to R66), replicas (02 R71, R72), the placing of teams (09 R222 to R225) and a team's retirement
(07 R196).
-/
namespace Sys2Proof.Machine

-- LEAF_INSTALL (02 R64, R65)

/-- The key of a leaf of a launch's image: its class and index. -/
def leafKey (cls : SlotClass) (i : Nat) : Nat := 4096 * clsNum cls + i

/-- A launch's leaf through the hazard filter: none when it is refused (02 R50, R51). -/
def filteredLeaf (l : Launch) (cls : SlotClass) (i : Nat) : Option Instr :=
  match decodeLeaf cls (tgetD l.leaves (leafKey cls i) 0) with
  | .ok x => some x
  | .error _ => none

/-- The least recently used entry without a pin; ties go to the lower position (R65). -/
def victimEntry (t : DecTab) : Option Nat :=
  let free := t.entries.filter (fun e => e.2.pins.isEmpty)
  match free with
  | [] => none
  | e :: rest => some (rest.foldl (fun b x => if x.2.used < b.2.used then x else b) e).1

/-- Where a table takes a leaf: where it stands already, the lowest free position below the granted capacity (log entry 8, DESIGN
CHOICE), or a victim. -/
def entryPlace (t : DecTab) (cap index : Nat) : Option Nat :=
  match t.entries.find? (fun e => e.2.index == index) with
  | some e => some e.1
  | none =>
    match (List.range cap).find? (fun i => (tget t.entries i).isNone) with
    | some i => some i
    | none => victimEntry t

/-- A core's table for a launch; one that serves another launch counts as empty (02 R62). -/
def tableFor (c : Core) (launch bank quad : Nat) (cls : SlotClass) : DecTab :=
  match tget c.tabs (tabKey bank quad cls) with
  | some t => if t.launch = launch then t else { launch, entries := [] }
  | none => { launch, entries := [] }

/-- Installs one leaf at its place, pinned for the group; a leaf that is there already is only pinned. -/
def installLeaf (c : Core) (l : Launch) (launch bank quad id : Nat) (x : SlotClass × Nat) : Core :=
  let t := tableFor c launch bank quad x.1
  match entryPlace t (l.grants.getD (clsNum x.1) 0) x.2 with
  | none => c
  | some i =>
    let e : TabEntry := match tget t.entries i with
      | some e => if e.index = x.2 then { e with pins := id :: e.pins.filter (· != id) }
                  else { index := x.2, leaf := filteredLeaf l x.1 x.2, used := c.now, pins := [id] }
      | none => { index := x.2, leaf := filteredLeaf l x.1 x.2, used := c.now, pins := [id] }
    { c with tabs := tput c.tabs (tabKey bank quad x.1) { t with entries := tput t.entries i e } }

/-- Whether a die holds a launch's replica: what a gated die loses is reloaded when it is ungated, before its partition resumes
(24 R440). -/
def replicaAt (d : Device) (l : Launch) (die : Nat) : Bool := l.replicas.contains die && !(d.die die).gated

/-- LEAF_INSTALL (R64): the leaves of a miss are installed together, from the die's replica, when every table has a place; the
group is released. -/
def execLeafInstall (group : Nat) (s : State) : Host.Outcome State Fault Refusal :=
  devStep s (fun d =>
    match d.group (.user group), d.teamOf (.user group), d.launchOf (.user group) with
    | some g, some (_, t), some (lid, l) =>
      match g.park, t.place with
      | .quire miss, some (core, bank) =>
        let c := d.core core
        let room := miss.all (fun x => (entryPlace (tableFor c lid bank g.quad x.1) (l.grants.getD (clsNum x.1) 0) x.2).isSome)
        if !replicaAt d l (dieOf core) || !room then d
        else
          let d := d.modCore core (fun c => miss.foldl (fun c x => installLeaf c l lid bank g.quad group x) c)
          d.modGroup (.user group) (fun g => { g with park := .none })
      | _, _ => d
    | _, _, _ => d)

/-- Whether a team of a launch is placed on a die. -/
def runsOn (d : Device) (launch die : Nat) : Bool :=
  d.teams.any (fun t => t.2.launch == launch && (match t.2.place with | some (c, _) => dieOf c == die | none => false))

/-- REPLICA_INSTALL (R72). -/
def execReplicaInstall (launch die : Nat) (s : State) : Host.Outcome State Fault Refusal :=
  devStep s (fun d =>
    if !runsOn d launch die then d
    else d.modLaunch launch (fun l => if l.done || l.replicas.contains die then l else { l with replicas := l.replicas ++ [die] }))

-- the dispatchers (09 R222 to R225, 24 R443)

/-- The dies of a partition that have a zone bit set in a region mask. -/
def maskDies (p : Part) (mask : Nat) : List Nat := p.dieList.filter (fun k => decide (mask / 2 ^ (16 * k) % 2 ^ 16 ≠ 0))

/-- The dies a team may go to (24 R443). -/
def eligibleDies (d : Device) (l : Launch) (t : Team) : List Nat :=
  let p := d.part l.part
  match l.placement with
  | some i =>
    let (first, last, mask) := l.spine.places.getD i (0, 0, 0)
    if first ≤ t.index.toNat ∧ t.index.toNat ≤ last then maskDies p mask else p.dieList
  | none => p.dieList

/-- How many whole teams of a launch a bank can take at once. -/
def bankRoom (d : Device) (team core bank : Nat) (l : Launch) : Nat :=
  if !canTake d team core bank then 0
  else Nat.min (192 / l.spine.units - (bankTeams d core bank).length) (freePlaces d core bank / l.spine.tgroups)

/-- A die's advertised count, in teams (R224). -/
def dieRoom (d : Device) (team die : Nat) (l : Launch) : Nat :=
  ((List.range 160).map (fun k => bankRoom d team (160 * die + k) 0 l + bankRoom d team (160 * die + k) 1 l)).sum

/-- The die with the largest count, at least 1; a tie goes to the lower index. -/
def bestDie : List (Nat × Nat) → Option (Nat × Nat)
  | [] => none
  | (die, n) :: t =>
    match bestDie t with
    | some (k, m) => if n < m then some (k, m) else some (die, n)
    | none => if n = 0 then none else some (die, n)

/-- The teams at the queue's head that one batch holds: of one launch, each allowed on the die (log entry 21, DESIGN CHOICE). -/
def batchTeams (d : Device) (launch die : Nat) : Nat → List Nat → List Nat
  | 0, _ => []
  | _, [] => []
  | n + 1, id :: rest =>
    match d.team id with
    | some t =>
      (match d.launch launch with
       | some l => if t.launch = launch ∧ (eligibleDies d l t).contains die then id :: batchTeams d launch die n rest else []
       | none => [])
    | none => []

/-- A die dispatcher places a team where 09 R225 says, if it can. -/
def dispatchTeam (d : Device) (die team : Nat) : Device :=
  match choosePlace d team die with
  | some (core, bank) => placeTeam d team core bank
  | none => d

/-- Whether a saved team is runnable again (20 R401). -/
def savedRunnable (d : Device) (part : Nat) (t : Team) : Bool :=
  t.saved && !t.retired && !teamStopped d t &&
    (match d.launch t.launch with | some l => l.part == part && !l.done && contextRuns (d.part part) l | none => false)

/-- GLOBAL_DISPATCH_BATCH (R224): teams swapped out alone that are runnable again come first (20 R401); then the head of the queue
goes to a die with room, as many teams at once as a batch holds. -/
def execGlobalDispatchBatch (part : Nat) (s : State) : Host.Outcome State Fault Refusal :=
  devStep s (fun d =>
    let d := (d.teams.filter (fun t => savedRunnable d part t.2)).foldl (fun d t => dispatchTeam d t.2.home t.1) d
    match (d.part part).gq with
    | [] => d
    | id :: _ =>
      match d.team id with
      | none => d
      | some t =>
        match d.launch t.launch with
        | none => d
        | some l =>
          match bestDie ((eligibleDies d l t).map (fun k => (k, dieRoom d id k l))) with
          | none => d
          | some (die, n) =>
            let batch := batchTeams d t.launch die (Nat.min n (Nat.max 1 (64 / l.spine.tgroups))) (d.part part).gq
            let d := d.modPart part (fun p => { p with gq := p.gq.drop batch.length })
            batch.foldl (fun d x => dispatchTeam d die x) d)

/-- The seed team of a launch (07 R194). -/
def seedOf (d : Device) (launch : Nat) : Option (Nat × Team) := d.teams.find? (fun t => t.2.launch == launch && t.2.seed)

/-- SEED_PLACE (R222): the stream's wait goes on until the launch completes; the spawn-tree counter becomes 1 (07 R196). -/
def execSeedPlace (launch : Nat) (s : State) : Host.Outcome State Fault Refusal :=
  devStep s (fun d =>
    match d.launch launch, seedOf d launch with
    | some l, some (id, _) =>
      let p := d.part l.part
      if (p.stream l.stream).wait != .seed launch || l.done || !contextRuns p l then d
      else
        match choosePlace d id p.lead with
        | none => d
        | some (core, bank) =>
          let d := d.modLaunch launch (fun l => { l with counter := 1 })
          let d := d.modPart l.part (fun p => p.setStream l.stream { p.stream l.stream with wait := .launch launch })
          placeTeam d id core bank
    | _, _ => d)

-- TEAM_RETIRE (07 R196)

/-- Whether a team's groups have retired and all their engine operations are done; its retirement is a release at system scope, so
every store of its core is at home (13 R286). -/
def teamFinished (d : Device) (id : Nat) (t : Team) : Bool :=
  !t.groups.isEmpty &&
    t.groups.all (fun x => match d.group (.user x) with
      | some g => g.retired && g.waiting.isEmpty && g.flight.isEmpty && g.core.tiles.isEmpty
      | none => true) &&
    (match t.place with | some (core, _) => coreSettled d core | none => true) &&
    d.cores.all (fun (_, c) =>
      c.mq.all (fun m => m.team != id) && c.kicks.all (fun k => k.team != id) && c.ciphers.all (fun k => k.team != id) &&
        c.reqs.all (fun r => match r.kick with | some k => k.team != id | none => true))

/-- TEAM_RETIRE (R196, R197): the team's resources go and the counter falls; at 0 the launch completes. -/
def execTeamRetire (team : Nat) (s : State) : Host.Outcome State Fault Refusal :=
  devStep s (fun d =>
    match d.team team with
    | none => d
    | some t =>
      match d.launch t.launch with
      | none => d
      | some l =>
        if t.retired || l.done || !teamFinished d team t then d
        else
          let d := freeFrames (releaseTeam d team) l.part team
          let d := match t.place with | some (core, _) => retarget d (dieOf core) | none => d
          let d := d.modLaunch t.launch (fun l => { l with counter := l.counter - 1 })
          if l.counter ≤ 1 then completeLaunch d t.launch else d)

end Sys2Proof.Machine
end

