-- ==== Sys2Proof/Machine/Repairs.lean ====
section
/-!
DEFINITION. Firmware's repairs (12 R269, R271; 20 R396 to R398), the segment invalidate register and migration (11 R252 to R254),
uncorrectable errors by their place (22 R425 to R429), and the injector's control register (R430).
-/
namespace Sys2Proof.Machine

-- repairs

/-- The records of one team are taken in ascending group index (20 R396), but for a group that stays parked while the others go on
(12 R269). -/
def recordsTurn (d : Device) (id : Nat) : Bool :=
  match d.group (.user id), d.teamOf (.user id) with
  | some g, some (_, t) =>
    !teamStopped d t || t.groups.all (fun x => match d.group (.user x) with
      | some y => !(y.trapSet && !y.halted && decide (y.index < g.index))
      | none => true)
  | _, _ => false

/-- A group whose trap record a handler has still to take (20 R396 to R398). -/
def Group.recordWaits (g : Group) : Bool := g.trapSet && !g.halted && !g.retired

/-- Every frame of the team is pinned: the faulting group stays parked and the others resume (12 R269), but not in a team that waits for
save frames (20 R404). -/
def resumeOthers (d : Device) (team : Nat) : Device :=
  match d.team team with
  | some t =>
    if t.heldBy || t.starved then d
    else t.groups.foldl (fun d x => d.modGroup (.user x) (fun g => if g.trapSet then g else { g with stopped := false })) d
  | none => d

/-- The pages that a team has asked for are brought in as frames allow, in order (12 R269). -/
def servePageIns (d : Device) (team : Nat) : Device :=
  match d.team team with
  | none => d
  | some t =>
    if t.place.isNone then d
    else
      t.pageIns.foldl
        (fun d q =>
          match d.team team with
          | none => d
          | some t =>
            let served (d : Device) : Device := d.modTeam team (fun t => { t with pageIns := t.pageIns.erase q })
            match (t.page q).state with
            | .unmapped | .resident => served d
            | _ => match repairPage d team (spuOf d team) q false with
              | some d => served d
              | none => d)
        d

/-- PAGE_FAULT_REPAIR (R269): causes 0x28 and 0x29. A team that was swapped out meanwhile faults its pages in when it is placed again
(20 R401, 12 R274). A group without a record that waits for the page path goes on when it can (07 R187, 18 R381), and the pages that SYS
asked for are brought in. -/
def execPageFaultRepair (group : Nat) (s : State) : Host.Outcome State Fault Refusal :=
  devStep s (fun d =>
    match d.group (.user group), d.teamOf (.user group) with
    | some g, some (team, t) =>
      let cause := recordCause g.trapRec
      if !g.trapSet then servePageIns (landDue d group) team
      else if !g.recordWaits || !(cause == 0x28 || cause == 0x29) || !recordsTurn d group then d
      else if t.place.isNone then resumeFromTrap d group
      else
        match repairPage d team (spuOf d team) (recordAddr g.trapRec / pageSize) (recordWrite g.trapRec || cause == 0x29) with
        | some d => resumeFromTrap d group
        | none => resumeOthers d team
    | _, _ => d)

/-- SEGMENT_ABSENT_REPAIR (20 R397): once the host has made the segment present in the table, the team resumes. -/
def execSegmentAbsentRepair (group : Nat) (s : State) : Host.Outcome State Fault Refusal :=
  devStep s (fun d =>
    match d.group (.user group) with
    | some g =>
      let part := d.partOf (.user group)
      if !g.recordWaits || recordCause g.trapRec != 0x2A || !recordsTurn d group ||
          segAbsent (walkSegment d part (recordAddr g.trapRec)) || decide (2 ^ 57 ≤ recordAddr g.trapRec) then d
      else resumeFromTrap d group
    | none => d)

/-- REPAIR_TIMEOUT (R398): a repair that is declined is handled as kind L. -/
def execRepairTimeout (group : Nat) (s : State) : Host.Outcome State Fault Refusal :=
  devStep s (fun d =>
    match d.group (.user group) with
    | some g =>
      if g.recordWaits && causeKind (recordCause g.trapRec) false == .repair && recordsTurn d group then declineTrap d group
      else d
    | none => d)

-- segments (11 R252 to R254)

/-- Drops cached entries of a partition's dies: of one segment, or all. -/
def dropSegments (d : Device) (part : Nat) (which : Option Nat) : Device :=
  (d.part part).dieList.foldl
    (fun d k => d.modDie k (fun x =>
      { x with segCache := match which with | some seg => tdel x.segCache seg | none => [] }))
    d

/-- Whether a segment is one of those being invalidated. -/
def inWhich (which : Option Nat) (va : Nat) : Bool := match which with | some seg => va / segSize == seg | none => true

/-- The groups of a partition, firmware contexts among them. -/
def partGroups (d : Device) (part : Nat) : List (Gid × Group) :=
  ((d.groups.map (fun g => (Gid.user g.1, g.2))) ++ (d.fw.map (fun g => (Gid.fw g.1, g.2)))).filter (fun g => d.partOf g.1 == part)

/-- A load line of a segment that was translated and is not answered. -/
def loadOut (which : Option Nat) (p : Pending) : Bool :=
  p.loads.any (fun l => inWhich which l.va && l.pa != noPa && p.lines.any (fun x => decide (l.va / 64 ≤ x) && decide (x ≤ (l.va + l.size - 1) / 64)))

/-- Whether a line request of a partition translated before is still under way (R252). -/
def requestsOut (d : Device) (part : Nat) (which : Option Nat) : Bool :=
  (partGroups d part).any (fun g =>
    g.2.flight.any (fun w => inWhich which w.addr) || (g.2.core.pend ++ g.2.ck.pend).any (loadOut which))

/-- A physical address that an access under the present entries has: where translation fails the old one stands (log entry 19, DEDUCED). -/
def freshPa (d : Device) (part die : Nat) (which : Option Nat) (va pa : Nat) : Nat :=
  if pa = noPa ∨ !inWhich which va then pa
  else match translate d part die va { read := false, write := false, exec := false } true with | .local_ a => a | _ => pa

/-- Stores that still stand in hampers, and tile transfers that wait, go to the place the new entry names (log entry 19, DEDUCED). -/
def retargetStores (d : Device) (part : Nat) (which : Option Nat) : Device :=
  (partGroups d part).foldl
    (fun d x =>
      let die := match d.coreOf x.1 with | some c => dieOf c | none => (d.part part).lead
      let fresh (w : ByteWrite) : ByteWrite := if w.glob then { w with pa := freshPa d part die which w.addr w.pa } else w
      let outs (c : GCore) : GCore :=
        { c with tiles := c.tiles.map (fun t =>
            { t with outs := t.outs.map (fun o => (o.1, o.2.1, freshPa d part die which o.2.1 o.2.2.1, o.2.2.2)) }) }
      d.modGroup x.1 (fun g =>
        { g with hamper := g.hamper.map fresh, waiting := g.waiting.map fresh, core := outs g.core, ck := outs g.ck }))
    d

/-- A write of the segment invalidate register: an invalidation in progress grows to every entry when another is asked for. -/
def startInvalidation (d : Device) (part : Nat) (which : Option Nat) : Device :=
  let d := dropSegments d part which
  d.modPart part (fun p =>
    { p with inval := match p.inval with
                      | none => some which
                      | some old => if old = which then some which else some none })

/-- SEGMENT_INVALIDATE (R252). -/
def execSegmentInvalidate (part : Nat) (value : DWord) (s : State) : Host.Outcome State Fault Refusal :=
  hostStep s (fun d => mmioWrite d part (fun d =>
    if value.getLsbD 0 then startInvalidation d part none
    else startInvalidation d part (some (natBits value.toNat 21 36))))

/-- SEGMENT_INVALIDATE_ALL (R252). -/
def execSegmentInvalidateAll (part : Nat) (s : State) : Host.Outcome State Fault Refusal :=
  hostStep s (fun d => mmioWrite d part (fun d => startInvalidation d part none))

/-- INVALIDATION_DONE (R252): PEND clears. -/
def execInvalidationDone (part : Nat) (s : State) : Host.Outcome State Fault Refusal :=
  devStep s (fun d =>
    match (d.part part).inval with
    | none => d
    | some which =>
      if requestsOut d part which then d
      else retargetStores ((dropSegments d part which).modPart part (fun p => { p with inval := none })) part which)

/-- Writes a segment's entry in the table. -/
def putEntry (d : Device) (part va e : Nat) : Device :=
  match segEntryAddr d part va with
  | some a => d.modMem (fun m => { m with hbm := writeBytes m.hbm a (natBytes 16 e) })
  | none => d

/-- The lines of a range whose tag byte differs from what an unlisted line of its new place would have. -/
def movedLines (d : Device) (src dst : Nat) : List Nat :=
  if (d.die (homeDie src)).scrubWorld = (d.die (homeDie dst)).scrubWorld then
    (keysOf d.mem.tags).filter (fun l => decide (lineOf src ≤ l) && decide (l < lineOf (src + segSize)))
  else (List.range (segSize / 64)).map (fun i => lineOf src + i)

/-- Copies 2 MiB with tag bytes and line checks (R254). -/
def copySegment (d : Device) (src dst : Nat) : Device :=
  let inside (a x : Nat) : Bool := decide (a ≤ x) && decide (x < a + segSize)
  let lines := (keysOf d.mem.planted).filter (fun l => inside (lineOf src * 64) (64 * l))
  let d := lines.foldl resolveLine d
  let tags := (movedLines d src dst).map (fun l => (l, tagOf d l))
  let cells := d.mem.hbm.filter (fun c => inside src c.1)
  let d := d.modMem (fun m =>
    { m with hbm := cells.foldl (fun h c => writeByte h (c.1 - src + dst) c.2) (m.hbm.filter (fun c => !inside dst c.1))
             tags := m.tags.filter (fun t => !inside dst (64 * t.1))
             planted := m.planted.filter (fun t => !inside dst (64 * t.1)) })
  tags.foldl (fun d t => setTag d (t.1 - lineOf src + lineOf dst) t.2) d

/-- SEGMENT_MIGRATE (R254): the first step marks the entry and empties the caches; when no copy request and no line request uses the
old place, the segment is copied, the entry rewritten and what waited goes on. -/
def execSegmentMigrate (part seg : Nat) (target : DWord) (s : State) : Host.Outcome State Fault Refusal :=
  devStep s (fun d =>
    let va := seg * segSize
    let e := walkSegment d part va
    let base := target.toNat / segSize * segSize
    if segAbsent e || segLoc e != 0 || segWorld e != part || decide (2 ^ 57 ≤ va) || decide (2 ^ 40 ≤ base) then d
    else if segState e = 1 then
      let d := dropSegments (putEntry d part va (e.toNat + 1)) part (some seg)
      d.modPart part (fun p => { p with moving := p.moving.filter (fun x => x.1 != seg) ++ [(seg, base)] })
    else
      match (d.part part).moving.find? (fun x => x.1 == seg) with
      | none => d
      | some (_, dst) =>
        if busyCount d part seg ≠ 0 || requestsOut d part (some seg) then d
        else
          let d := if dst = segBase e then d else copySegment d (segBase e) dst
          let d := dropSegments (putEntry d part va (e.toNat - 1 - segBase e + dst)) part (some seg)
          let d := d.modPart part (fun p => { p with moving := p.moving.filter (fun x => x.1 != seg) })
          (partGroups d part).foldl (fun d x => settleStores d x.1) (retargetStores d part (some seg)))

-- uncorrectable errors (22 R425)

/-- What an uncorrectable error does at its place. A poisoned line of a backing slot comes back to its frame as 8 poisoned words (log entry
37, DESIGN CHOICE). -/
def uncorrectable (d : Device) : ErrPlace → Device
  | .l1Line core line => d.modCore core (fun c => { c with l1 := tdel c.l1 line })
  | .decodeEntry core bank quad cls index =>
    d.modCore core (fun c =>
      match tget c.tabs (tabKey bank quad cls) with
      | some t => { c with tabs := tput c.tabs (tabKey bank quad cls) { t with entries := t.entries.filter (fun e => e.2.index != index) } }
      | none => c)
  | .stbEntry core team page => d.modCore core (fun c => { c with stb := tdel c.stb (stbKey team page) })
  | .groupState group =>
    (match d.group (.user group) with
     | some g =>
       if g.retired || g.halted then d
       else
         let b := g.core.nextSlot.getD false
         deferTrap d (.user group)
           { cause := 0xC1, code := 0, lane := none, addr := 0, slot := 7, write := false, bpc := (g.core.slot b).pc, slotB := b, defer := true }
     | none => d)
  | .scratchWord team addr =>
    (match d.team team with
     | some t =>
       (match t.place, scratchTranslate t addr false false with
        | some p, .ok fb =>
          d.modCore p.1 (fun c =>
            let k := c.bank p.2
            c.setBank p.2 { k with poison := if k.poison.contains (fb / 8) then k.poison else fb / 8 :: k.poison })
        | _, _ => d)
     | none => d)
  | .line pa => if pa < 2 ^ 40 then lineLost d (lineOf pa) else d
  | .stagingLine line =>
    if line < 2 ^ 26 then
      d.modMem (fun m => { m with stagingPoison := if m.stagingPoison.contains line then m.stagingPoison else line :: m.stagingPoison })
    else d
  | .slotLine slot line =>
    let words := ((List.range 8).map (fun i => 256 * slot + 8 * line + i)).filter (fun w => !d.mem.slotPoison.contains w)
    if slot < d.mem.nextSlot ∧ line < 32 then d.modMem (fun m => { m with slotPoison := m.slotPoison ++ words }) else d
  | .symbols pa errs =>
    if pa < 2 ^ 40 then
      d.modMem (fun m =>
        { m with planted := tput m.planted (lineOf pa) ((tgetD m.planted (lineOf pa) []) ++ errs.filter (fun e => decide (e.1 < 75))) })
    else d
  | .residue core persists =>
    if (d.part (d.partOfDie (dieOf core))).prot then d.modCore core (fun c => { c with residue := some persists }) else d
  | .signature group =>
    (match d.group (.user group) with
     | some g =>
       if g.retired || g.halted || !(d.part (d.partOf (.user group))).prot then d
       else
         let b := g.core.nextSlot.getD false
         takeTrap d (.user group)
           { cause := 0xC0, code := 0, lane := none, addr := 0, slot := 7, write := false, bpc := (g.core.slot b).pc, slotB := b, defer := false }
     | none => d)

/-- UNCORRECTABLE_ERROR (R425). -/
def execUncorrectableError (place : ErrPlace) (s : State) : Host.Outcome State Fault Refusal :=
  devStep s (fun d => uncorrectable d place)

/-- L2_EVICT_UNCORRECTABLE (R429): charged to the world in the line's tag byte. -/
def execL2EvictUncorrectable (line : Nat) (s : State) : Host.Outcome State Fault Refusal :=
  devStep s (fun d =>
    if 2 ^ 34 ≤ line then d
    else
      let w := (tagOf d line).world
      logPlain (poisonLine d line 0xC4) w (plainEntry 0xC4 (64 * line) w srcStack (homeDie (64 * line)) none 0 true))

/-- INJECTOR_CONTROL_WRITE (R430): in a test partition; a write with a reserved bit is ignored whole. -/
def execInjectorControlWrite (part : Nat) (value : DWord) (s : State) : Host.Outcome State Fault Refusal :=
  hostStep s (fun d =>
    let v := value.toNat
    if !(d.part part).test || natBits v 8 16 != 0 || natBits v 5 2 != 0 then d
    else
      d.modPart part (fun p =>
        let i := p.inj
        { p with inj := { i with rate := natBits v 48 16, double := value.getLsbD 7, en := value.getLsbD 4
                                 targets := BitVec.ofNat 4 v, n := if value.getLsbD 4 then 0 else i.n } }))

end Sys2Proof.Machine
end

