-- ==== Sys2Proof/Machine/CommandProcessor.lean ====
section
/-!
DEFINITION. The command processor: streams, their status and fetch windows (25 R445, R446, R455), the packets (R447 to R457), and
LAUNCH with its refusals (R450, 02 R61, R68 to R71, 24 R442).
-/
namespace Sys2Proof.Machine

-- the stream

def Device.stream (d : Device) (at_ : Stream) : StreamSt := (d.part at_.part).stream at_.idx
def Device.setStream (d : Device) (at_ : Stream) (x : StreamSt) : Device := d.modPart at_.part (fun p => p.setStream at_.idx x)

/-- Whether a stream's packets execute now: the TDI runs (26 R464), the partition is not suspended, the stream is the active
context's or the control stream (R445), it has not stopped and waits for nothing, or for a segment that a COPY looks at again. -/
def cpMayRun (d : Device) (at_ : Stream) : Bool :=
  let p := d.part at_.part
  let st := p.stream at_.idx
  p.state == 1 && p.tdi == .run && !p.susp && !st.stop && (st.wait == .none || st.wait == .segment) && (at_.idx == p.active || at_.idx == 4)

def ringSize (st : StreamSt) : Nat := 2 ^ st.log2

/-- The bytes of the stream's level that may be read from its position on: up to the notified write pointer, or the buffer's end. -/
def StreamSt.avail (st : StreamSt) : Nat :=
  let l := st.top
  match l.stop with
  | some e => e - l.pos
  | none => (st.wptr + ringSize st - l.pos % ringSize st) % ringSize st

/-- The address of a position of the stream's level. -/
def StreamSt.addr (st : StreamSt) (pos : Nat) : Nat :=
  match st.top.stop with
  | some _ => st.top.start + pos
  | none => st.base + pos % ringSize st

/-- A byte of the level: from its window, else from memory. -/
def levelByte (d : Device) (part : Nat) (st : StreamSt) (pos : Nat) : Except Nat Byte :=
  match tget st.top.window pos with
  | some b => .ok b
  | none => cpReadByte d part (st.addr pos)

def levelBytes (d : Device) (part : Nat) (st : StreamSt) (pos : Nat) : Nat → Except Nat (List Byte)
  | 0 => .ok []
  | n + 1 =>
    match levelByte d part st pos, levelBytes d part st (pos + 1) n with
    | .ok b, .ok t => .ok (b :: t)
    | .error c, _ => .error c
    | _, .error c => .error c

def levelWord (d : Device) (part : Nat) (st : StreamSt) (pos : Nat) : Except Nat Nat :=
  match levelBytes d part st pos 4 with
  | .ok b => .ok (bytesNat b)
  | .error c => .error c

/-- The length in words a header gives. -/
def headerDw (h : Nat) : Nat := h % 2 ^ 16

/-- The bytes that the packet under a header takes with it: a LOOP's whole range, unless it stands inside a range (R452, R453). -/
def packetNeed (d : Device) (part : Nat) (st : StreamSt) (h : Nat) : Nat :=
  let n := 4 * headerDw h
  if h / 2 ^ 24 = 4 ∧ (st.top.loop.isNone ∨ st.top.skip ≠ 0) ∧ 12 ≤ st.avail then
    match levelWord d part st (st.top.pos + 8) with
    | .ok range => if 1 ≤ range ∧ range ≤ 125 then n + 4 * range else n
    | .error _ => n
  else n

/-- The stream waits at its ring for a notify: the packet that comes next, executed or skipped, is not wholly notified (R445, R452), also
where the ring has no unread byte (R459). A TDI that is not in RUN fetches nothing (26 R464) and waits for none (log entry 16, DEDUCED). -/
def waitsNotify (d : Device) (part : Nat) (st : StreamSt) : Bool :=
  (d.part part).tdi == .run && st.top.stop.isNone &&
    (decide (st.avail < 4) ||
     (match levelWord d part st st.top.pos with
      | .ok h => decide (st.avail < packetNeed d part st h)
      | .error _ => false))

/-- The stream's status register (R446). -/
def streamStatus (d : Device) (at_ : Stream) : DWord :=
  let p := d.part at_.part
  let st := p.stream at_.idx
  let rptr := (st.lvls.headD ringLevel).pos % ringSize st
  let inside := match st.wait with | .none | .switch _ _ => false | _ => true
  let wait := inside || (!st.stop && waitsNotify d at_.part st)
  BitVec.ofNat 64
    (rptr * 2 ^ 40 + st.cause * 2 ^ 32 + st.err * 2 ^ 24 + (st.lvls.length - 1) * 2 ^ 16 + p.susp.toNat * 2 ^ 3 + wait.toNat * 2 ^ 2 +
      st.stop.toNat * 2 + (at_.idx == p.active || at_.idx == 4).toNat)

-- packets in general

def cpStore (d : Device) (part va : Nat) (data : List Byte) : Device × Option Nat := cpWrite (cpTouch d part va data.length) part va data

/-- A packet of n words executes: `f` works on the device with the packet in progress. -/
def cpPacket (at_ : Stream) (n : Nat) (s : State) (f : Device → Device) : Host.Outcome State Fault Refusal :=
  devStep s (fun d => if cpMayRun d at_ then f (d.setStream at_ { d.stream at_ with len := 4 * n, wait := .none }) else d)

def endPacket (d : Device) (at_ : Stream) : Device := d.setStream at_ (d.stream at_).packetEnd

/-- A packet that only writes memory. -/
def storePacket (d : Device) (at_ : Stream) (va : Nat) (data : List Byte) (f : Device → Device) : Device :=
  match cpStore d at_.part va data with
  | (d, none) => endPacket (f d) at_
  | (d, some c) => streamError d at_.part at_.idx 7 c

/-- NOP (R448). -/
def execCpNop (at_ : Stream) (dw : BitVec 16) (s : State) : Host.Outcome State Fault Refusal :=
  cpPacket at_ dw.toNat s (fun d => endPacket d at_)

/-- WRITE (R454). -/
def execWrite (at_ : Stream) (addr : DWord) (data : List Word) (s : State) : Host.Outcome State Fault Refusal :=
  cpPacket at_ (3 + data.length) s (fun d => storePacket d at_ addr.toNat (data.flatMap (fun w => natBytes 4 w.toNat)) id)

/-- FETCH.FENCE (R456). -/
def execFetchFence (at_ : Stream) (s : State) : Host.Outcome State Fault Refusal :=
  cpPacket at_ 1 s (fun d =>
    let st := d.stream at_
    endPacket (d.setStream at_ { st with levels := st.lvls.map (fun l => { l with window := [] }) }) at_)

/-- TIMESTAMP (R454): the host time, then the cycle counter of core 0 of the lead die. -/
def execTimestamp (at_ : Stream) (addr hostTime : DWord) (s : State) : Host.Outcome State Fault Refusal :=
  cpPacket at_ 5 s (fun d =>
    let cycle := (d.core (160 * (d.part at_.part).lead)).cycle
    storePacket d at_ addr.toNat (natBytes 8 hostTime.toNat ++ natBytes 8 cycle.toNat) id)

-- interrupts (26 R463; the PCIe definitions)

/-- A word of the MSI-X table; a vector is masked until its entry is written. -/
def Part.msixWord (p : Part) (entry word : Nat) : Word := tgetD p.msix (4 * entry + word) (if word = 3 then 1 else 0)

/-- The message of a vector leaves for the host. -/
def sendMessage (d : Device) (part v : Nat) : Device :=
  let p := d.part part
  { d with msgs := d.msgs ++ [{ part, addr := p.msixWord v 1 ++ p.msixWord v 0, data := p.msixWord v 2 }] }

/-- Raises a vector: a masked one becomes pending, another leaves as a message to the host. -/
def raiseVector (d : Device) (part v : Nat) : Device :=
  if ((d.part part).msixWord v 3).getLsbD 0 then d.modPart part (fun p => { p with pba := tput p.pba v true }) else sendMessage d part v

/-- SIGNAL (R454). -/
def execSignal (at_ : Stream) (addr value : DWord) (vector : BitVec 11) (irq : Bool) (s : State) : Host.Outcome State Fault Refusal :=
  cpPacket at_ 6 s (fun d =>
    storePacket d at_ addr.toNat (natBytes 8 value.toNat) (fun d => if irq then raiseVector d at_.part vector.toNat else d))

-- tests (R448, R452, R454)

def testHolds (t : MemTest) (word : Nat) : Bool :=
  let x := (BitVec.ofNat 32 word &&& t.mask).toNat
  match t.op with
  | .eq => x == t.value.toNat
  | .ne => x != t.value.toNat
  | .below => decide (x < t.value.toNat)
  | .notBelow => decide (t.value.toNat ≤ x)

/-- Reads a test's word as an acquire at system scope: the command processor has no L1. -/
def readTest (d : Device) (part : Nat) (t : MemTest) : Device × Except Nat Bool :=
  let d := cpTouch d part t.addr.toNat 4
  match cpRead d part t.addr.toNat 4 with
  | .ok b => (d, .ok (testHolds t (bytesNat b)))
  | .error c => (cpReadLog d part t.addr.toNat 4, .error c)

/-- PRED (R452) (log entry 16, DEDUCED). -/
def execPred (at_ : Stream) (t : MemTest) (skip : Byte) (s : State) : Host.Outcome State Fault Refusal :=
  cpPacket at_ 6 s (fun d =>
    match readTest d at_.part t with
    | (d, .error c) => streamError d at_.part at_.idx 7 c
    | (d, .ok true) => endPacket d at_
    | (d, .ok false) =>
      let st := d.stream at_
      endPacket (d.setStream at_ (st.setTop { st.top with skip := skip.toNat })) at_)

/-- A read of WAIT: the stream goes on when the test holds. -/
def waitRead (d : Device) (at_ : Stream) (t : MemTest) : Device :=
  match readTest d at_.part t with
  | (d, .error c) => streamError d at_.part at_.idx 7 c
  | (d, .ok true) => endPacket d at_
  | (d, .ok false) => d.setStream at_ { d.stream at_ with wait := .test t }

/-- WAIT (R454). -/
def execWait (at_ : Stream) (t : MemTest) (s : State) : Host.Outcome State Fault Refusal :=
  cpPacket at_ 6 s (fun d => waitRead d at_ t)

/-- A wait inside a packet goes on only while its stream runs (R457, R458). -/
def waitRuns (d : Device) (at_ : Stream) : Bool :=
  let p := d.part at_.part
  p.state == 1 && p.tdi == .run && !p.susp && (at_.idx == p.active || at_.idx == 4)

/-- WAIT_TEST_HOLDS (R454). -/
def execWaitTestHolds (at_ : Stream) (s : State) : Host.Outcome State Fault Refusal :=
  devStep s (fun d =>
    match (d.stream at_).wait with
    | .test t => if waitRuns d at_ then waitRead d at_ t else d
    | _ => d)

-- levels and loops

/-- IB (R451): no third level. -/
def execIb (at_ : Stream) (addr : DWord) (size : Word) (s : State) : Host.Outcome State Fault Refusal :=
  cpPacket at_ 4 s (fun d =>
    let st := d.stream at_
    if 3 ≤ st.lvls.length then streamError d at_.part at_.idx 3 0
    else
      let l : CpLevel := { start := addr.toNat, stop := some (4 * size.toNat), pos := 0, window := [], loop := none, skip := 0 }
      d.setStream at_ { st with levels := st.lvls ++ [l], len := 0 })

/-- The stream stops at a byte of its level that cannot be read: the first of n from a position (R449). -/
def levelError (d : Device) (at_ : Stream) (st : StreamSt) (pos n c : Nat) : Device :=
  let bad := (List.range n).findSome? (fun i =>
    match levelByte d at_.part st (pos + i) with | .error _ => some (st.addr (pos + i)) | .ok _ => none)
  streamError (match bad with | some a => cpViolation d at_.part a c | none => d) at_.part at_.idx 7 c

/-- What a range of packets measures to: whole packets without a LOOP (unless `loops`), a failing read, or not (log entry 16, DEDUCED). -/
def measure (d : Device) (part : Nat) (st : StreamSt) (loops : Bool) (stop : Nat) : Nat → Nat → Except Nat Bool
  | 0, _ => .ok false
  | n + 1, pos =>
    if stop ≤ pos then .ok (pos == stop)
    else
      match levelWord d part st pos with
      | .error c => .error c
      | .ok h =>
        if headerDw h = 0 ∨ (!loops ∧ h / 2 ^ 24 = 4) then .ok false else measure d part st loops stop n (pos + 4 * headerDw h)

/-- LOOP (R453): its range is waited for and must be whole packets without a LOOP (R449). -/
def execCpLoop (at_ : Stream) (passes range : Word) (s : State) : Host.Outcome State Fault Refusal :=
  cpPacket at_ 3 s (fun d =>
    let st := d.stream at_
    let l := st.top
    let start := l.pos + 12
    let stop := start + 4 * range.toNat
    if l.loop.isSome then streamError d at_.part at_.idx 4 0
    else if st.avail < stop - l.pos then
      if l.stop.isSome then streamError d at_.part at_.idx 4 0 else d.setStream at_ { st with len := 0 }
    else
      match measure d at_.part st false stop 126 start with
      | .error c => levelError d at_ st start (stop - start) c
      | .ok false => streamError d at_.part at_.idx 4 0
      | .ok true => d.setStream at_ { st.setTop { l with pos := start, loop := some { start, stop, passes := passes.toNat } } with len := 0 })

-- COPY and POP.DESC (R454)

/-- The kinds a COPY packet accepts. -/
def packetCopyValid (r : CopyRec) (reserved : Bool) : Bool :=
  let ok (k : Nat) : Bool := k == 0 || k == 1 || k == 2 || k == 6
  ok r.skind && ok r.dkind && !r.count && !r.uint && !r.form && r.bobj == 0 && copyValid r reserved

/-- COPY: an invalid record is ERR 8 with cause 0x67; a request that touches a migrating segment waits without starting. -/
def execCopy (at_ : Stream) (record : List Word) (s : State) : Host.Outcome State Fault Refusal :=
  cpPacket at_ 17 s (fun d =>
    let b := record.flatMap (fun w => natBytes 4 w.toNat)
    let r := copyRecOf b
    let lead := (d.part at_.part).lead
    if !packetCopyValid r (copyReserved b) then streamError d at_.part at_.idx 8 0x67
    else if touchesMoving d at_.part lead r then d.setStream at_ { d.stream at_ with len := 0, wait := .segment }
    else
      let q := newReq d none (some at_) at_.part r
      let d := d.setStream at_ { d.stream at_ with wait := .copy q.id }
      addReq d (160 * lead) q)

/-- POP.DESC: activation for the stream's next LAUNCH (18 R370). -/
def execPopDesc (at_ : Stream) (addr : DWord) (s : State) : Host.Outcome State Fault Refusal :=
  cpPacket at_ 3 s (fun d =>
    let va := addr.toNat
    let part := at_.part
    if 2 ^ 57 ≤ va ∨ va % 128 ≠ 0 then streamError d part at_.idx 9 0x80
    else if descWaits d part va then d.setStream at_ { d.stream at_ with len := 0 }
    else
      let d := cpTouch d part va 128
      match descCause d part va with
      | some c => streamError (cpViolation d part va c) part at_.idx 9 c
      | none =>
        match activateCause d part va 1 with
        | some c => streamError d part at_.idx 9 c
        | none =>
          let d := activate d part va none
          endPacket (d.setStream at_ { d.stream at_ with pops := (d.stream at_).pops ++ [va] }) at_)

-- LAUNCH (R450)

def spineField (b : List Byte) (o n : Nat) : Nat := bytesNat ((b.drop o).take n)

/-- A spine from its 256 bytes (02 R68). -/
def spineOf (b : List Byte) : Spine :=
  let f := spineField b
  { counts := (List.range 5).map (fun i => f (8 + 2 * i) 2), caps := (List.range 5).map (fun i => f (0x12 + 2 * i) 2)
    lat := (List.range 4).map (fun i => f (0x20 + 2 * i) 2)
    tgroups := f 0x28 2, pgroups := f 0x2A 2, pvbud := f 0x2C 2, psbud := f 0x2E 2, cvbud := f 0x30 2, csbud := f 0x32 2
    pool := f 0x34 4, fmt := BitVec.ofNat 32 (f 0x38 4), entry := BitVec.ofNat 64 (f 0x40 8), uvec := BitVec.ofNat 64 (f 0x48 8)
    places := (List.range (f 0x50 1)).map (fun i => (f (0x60 + 40 * i) 4, f (0x64 + 40 * i) 4, f (0x68 + 40 * i) 32)) }

/-- A pool partition word that is valid (11 R239). -/
def poolValid (s : Spine) : Bool := decide (s.pool < 2 ^ 24) && decide (1 ≤ s.regu) && decide (1 ≤ s.spu) && decide (s.units ≤ 192)

/-- Reason 1: the spine breaks 02 R70 or 01 R13; also an unused PLACE entry that 02 R68's zero does not fill (log entry 31,
DEDUCED). -/
def spineBad (b : List Byte) (s : Spine) : Bool :=
  let f := spineField b
  f 0 4 != 0x51554946 || f 4 2 != 1 || f 6 2 != 0 || f 0x1C 4 != 0 || f 0x3C 4 != 0 || f 0x51 15 != 0 ||
    s.counts.any (fun n => decide (4096 < n)) || s.tgroups == 0 || decide (32 < s.tgroups) || decide (s.tgroups < s.pgroups) ||
    decide (256 < s.pvbud) || decide (64 < s.psbud) || decide (256 < s.cvbud) || decide (64 < s.csbud) ||
    s.entry.getLsbD 0 || s.uvec.getLsbD 0 || decide (4 < s.places.length) || s.places.any (fun p => decide (p.2.1 < p.1)) ||
    (List.range 4).any (fun i => decide (s.places.length ≤ i) && f (0x60 + 40 * i) 40 != 0) || !poolValid s || !fmtAllowed s.fmt

/-- The hardware maximum of each class (02 R61). -/
def tableMax : List Nat := [256, 512, 512, 512, 256]

/-- The granted capacities (02 R61). -/
def grantsOf (s : Spine) : List Nat :=
  (List.range 5).map (fun i => Nat.min (s.caps.getD i 0) (Nat.min (tableMax.getD i 0) (s.counts.getD i 0)))

/-- Reason 2: a class with leaves has capacity 0. -/
def capsBad (s : Spine) : Bool := (List.range 5).any (fun i => s.counts.getD i 0 != 0 && s.caps.getD i 0 == 0)

/-- Whether a resident grid may reserve a core: the bank of the launch's context there (07 R198, R445) holds no team and no other
grid's reservation. -/
def gridCore (d : Device) (part stream core : Nat) : Bool :=
  let c := d.core core
  !(d.die (dieOf core)).gated && !c.fwFault &&
    (match bankOf (d.part part) c core stream with
     | some b => (bankTeams d core b).isEmpty && !reservedBank d d.nextLaunch core b
     | none => false)

/-- The cores that a resident grid may reserve, those of the dies that a placement names first, else in ascending order. -/
def gridCoresFree (d : Device) (part stream : Nat) (s : Spine) (placement : Option Nat) : List Nat :=
  let p := d.part part
  let first := match placement with
    | some i => maskDies p (s.places.getD i (0, 0, 0)).2.2
    | none => []
  ((first ++ p.dieList.filter (fun k => !first.contains k)).flatMap (fun die => (List.range 160).map (fun k => 160 * die + k))).filter
    (gridCore d part stream)

/-- Whole teams of a spine that a bank of g places holds. -/
def bankTeamsMax (s : Spine) (g : Nat) : Nat := Nat.min (192 / s.units) (g / s.tgroups)

/-- The cores that a resident grid of a seed and n teams reserves, none when it does not fit (07 R198): one of the lead die for the seed,
which takes a whole team's units and one place, and as many others as the teams that do not fit beside it need (log entry 21, DESIGN
CHOICE). -/
def gridReserve (d : Device) (part stream : Nat) (s : Spine) (placement : Option Nat) (n : Nat) : Option (List Nat) :=
  let g := bankPlaces (d.part part).prot
  let free := gridCoresFree d part stream s placement
  let per := bankTeamsMax s g
  match free.find? (fun c => dieOf c == (d.part part).lead) with
  | none => none
  | some seat =>
    let left := n - Nat.min (192 / s.units - 1) ((g - 1) / s.tgroups)
    let others := free.filter (· != seat)
    let need := (left + per - 1) / per
    if need ≤ others.length ∧ (left = 0 ∨ per ≠ 0) then some (seat :: others.take need) else none

/-- The score of a placement: the heat codes of its zones; none when it has none in the partition (24 R442). -/
def placeScore (d : Device) (p : Part) (mask : Nat) : Option Nat :=
  let zones := p.dieList.flatMap (fun die => ((List.range 16).filter (fun z => mask.testBit (16 * die + z))).map (fun z => (die, z)))
  if zones.isEmpty then none else some ((zones.map (fun x => (d.die x.1).heat.getD x.2 0)).sum)

/-- The placement with the lowest score, the lower index on a tie (24 R442). -/
def choosePlacement (d : Device) (p : Part) (places : List (Nat × Nat × Nat)) : Option Nat :=
  let scored := places.zipIdx.filterMap (fun x => (placeScore d p x.1.2.2).map (fun n => (n, x.2)))
  match scored with
  | [] => none
  | x :: t => some (t.foldl (fun b y => if y.1 < b.1 then y else b) x).2

/-- The dies that will run the kernel (02 R71, R478). -/
def replicaDies (p : Part) (s : Spine) : Option Nat → List Nat
  | some i => p.dieList.filter (fun k => k == p.lead || (maskDies p (s.places.getD i (0, 0, 0)).2.2).contains k)
  | none => p.dieList

/-- The leaves of a class: n of them from an address (02 R69). -/
def readClass (d : Device) (part va size key : Nat) : Nat → Except Nat (Tbl Nat)
  | 0 => .ok []
  | n + 1 =>
    match cpRead d part va size, readClass d part (va + size) size (key + 1) n with
    | .ok b, .ok t => .ok ((key, bytesNat b) :: t)
    | .error c, _ => .error c
    | _, .error c => .error c

def imageClasses : List SlotClass := [.c, .v0, .v1, .m, .e]

/-- The length of an image: the spine, and the five arrays, each at the next multiple of 16 (02 R69). -/
def imageLen (counts : List Nat) : Nat :=
  imageClasses.foldl (fun off cls => (off + 15) / 16 * 16 + counts.getD (clsNum cls) 0 * cls.leafBytes) 256

/-- The five arrays of an image, each at the next multiple of 16 (02 R69). -/
def readImage (d : Device) (part spine : Nat) (counts : List Nat) : Nat → List SlotClass → Except Nat (Tbl Nat)
  | _, [] => .ok []
  | off, cls :: t =>
    let n := counts.getD (clsNum cls) 0
    let off := (off + 15) / 16 * 16
    match readClass d part (spine + off) cls.leafBytes (leafKey cls 0) n, readImage d part spine counts (off + n * cls.leafBytes) t with
    | .ok a, .ok b => .ok (a ++ b)
    | .error e, _ => .error e
    | _, .error e => .error e

/-- The refusal reason of a spine that can be read, in R450's order (log entry 15, DEDUCED). -/
def refusal (d : Device) (at_ : Stream) (k : LaunchPacket) (b : List Byte) (s : Spine) : Option Nat :=
  let prot := (d.part at_.part).prot
  if spineBad b s || (!k.rgrid && k.declared != 0) then some 1
  else if capsBad s then some 2
  else if !s.fits prot then some 3
  else if k.rgrid && (gridReserve d at_.part at_.idx s (choosePlacement d (d.part at_.part) s.places) k.declared.toNat).isNone then some 4
  else if s.sbud (s.producer 0) < k.args.length then some 5
  else none

/-- A refused launch: its record is written, and populations activated for it close with it. -/
def refuseLaunch (d : Device) (at_ : Stream) (k : LaunchPacket) (reason : Nat) : Device :=
  let d := closePopulations d at_.part (d.stream at_).pops
  let d := d.setStream at_ { d.stream at_ with pops := [] }
  storePacket d at_ k.completion.toNat (natBytes 8 (5 + 2 ^ 8 * reason + 2 ^ 32 * 0xFFFFFFFF)) id

/-- An accepted launch: its seed team waits for a bank of the lead die (R222); a resident grid keeps its places (07 R198). -/
def startLaunch (d : Device) (at_ : Stream) (k : LaunchPacket) (s : Spine) (leaves : Tbl Nat) : Device :=
  let p := d.part at_.part
  let st := d.stream at_
  let placement := choosePlacement d p s.places
  let id := d.nextLaunch
  let l : Launch :=
    { part := at_.part, stream := at_.idx, spine := s, grants := grantsOf s, leaves, replicas := replicaDies p s placement
      counter := 0, rgrid := k.rgrid, declared := k.declared.toNat, spawned := 0, grid := Barrier.reset, releasing := [], placement
      reserved := if k.rgrid then (gridReserve d at_.part at_.idx s placement k.declared.toNat).getD [] else [], slew := none, completion := k.completion.toNat, status := 0, code := 0, cause := 0, seq := none, done := false, pops := st.pops }
  let t : Team :=
    { launch := id, index := 0, place := none, saved := false, groups := [], entry := s.entry
      inits := k.args.zipIdx.map (fun x => (x.2, x.1)), seed := true, spt := [], fifo := [], rings := [], bars := [], retired := false
      frames := [], starved := false, home := p.lead, heldBy := false, last := [], pageIns := [] }
  let d := { d with launches := tput d.launches id l, nextLaunch := id + 1, teams := tput d.teams d.nextTeam t, nextTeam := d.nextTeam + 1 }
  let d := d.modPart at_.part (fun p =>
    { p with pops := p.pops.map (fun x => if st.pops.contains x.1 then (x.1, { x.2 with launch := some id }) else x) })
  d.setStream at_ { d.stream at_ with pops := [], wait := .seed id }

/-- LAUNCH (R450): the stream's progress returns to 0, the spine is read and judged, and the image is copied (02 R71, R73). -/
def execLaunch (at_ : Stream) (k : LaunchPacket) (s : State) : Host.Outcome State Fault Refusal :=
  cpPacket at_ (7 + k.args.length) s (fun d =>
    let d := d.setStream at_ { d.stream at_ with writes := 0, value := 0 }
    let d := cpTouch d at_.part k.spine.toNat 256
    match cpRead d at_.part k.spine.toNat 256 with
    | .error _ => refuseLaunch (cpReadLog d at_.part k.spine.toNat 256) at_ k 6
    | .ok b =>
      let s := spineOf b
      match refusal d at_ k b s with
      | some r => refuseLaunch d at_ k r
      | none =>
        let len := imageLen s.counts
        let d := cpTouch d at_.part k.spine.toNat len
        match readImage d at_.part k.spine.toNat s.counts 256 imageClasses with
        | .error c => streamError (cpReadLog d at_.part k.spine.toNat len) at_.part at_.idx 7 c
        | .ok leaves => startLaunch d at_ k s leaves)

-- CTXSW (R457)

/-- Whether a bank holds a team of a context other than one. -/
def holdsOther (d : Device) (core bank stream : Nat) : Bool :=
  (bankTeams d core bank).any (fun t => match d.launch t.2.launch with | some l => l.stream != stream | none => false)

/-- A core on its way to a context: a drain under way ends first, its back bank is drained of a third context, filled with the target's
teams, and flipped; the outgoing bank then drains. -/
def switchCore (d : Device) (target : Nat) (x : Nat × Bool) : Device :=
  let core := x.1
  let c := d.core core
  if c.front != x.2 then requestDrain d core
  else if drainNow d core != .idle then drainStep (d.modCore core (fun c => { c with flipPend := false })) core
  else if holdsOther d core c.backBank target then requestDrain d core
  else
    let d := requestFlip (fillBack d core target) core
    if (d.core core).front != x.2 then requestDrain d core else d

/-- Whether a context issues on a core since its flip: one of its groups has issued, or none could (log entry 16, DEDUCED). -/
def contextIssues (d : Device) (core target : Nat) : Bool :=
  let c := d.core core
  let mine := ((bankTeams d core c.frontBank).filter (fun t => match d.launch t.2.launch with | some l => l.stream == target | none => false)).flatMap
    (fun t => t.2.groups)
  let issued (id : Nat) : Bool := match d.group (.user id) with
    | some g => (match g.lastIssue with | some k => decide (c.flipAt ≤ k) | none => false)
    | none => false
  mine.any issued || !mine.any (ableToIssue d)

/-- The cores that a switch waits for: they still have their old front bank, or the target does not issue yet. -/
def switchLeft (d : Device) (target : Nat) (left : List (Nat × Bool)) : List (Nat × Bool) :=
  left.filter (fun x => ((d.core x.1).front == x.2 || !contextIssues d x.1 target) && !(d.core x.1).fwFault && !(d.die (dieOf x.1)).gated)

/-- The switch goes on; the packet ends when the target issues on every core, and a suspend that waited for it takes effect (R458) (log entry
16, DEDUCED). -/
def continueSwitch (d : Device) (at_ : Stream) (target : Nat) (left : List (Nat × Bool)) : Device :=
  let d := left.foldl (fun d x => switchCore d target x) d
  let left := switchLeft d target left
  if left.isEmpty then
    let d := endPacket d at_
    match (d.part at_.part).suspDue with
    | some state => suspendPart d at_.part state
    | none => d
  else d.setStream at_ { d.stream at_ with wait := .switch target left }

/-- The groups of a context lose their pins and their misses when it is pre-empted (21 R409, R422). -/
def preemptContext (d : Device) (part stream : Nat) : Device :=
  d.groups.foldl
    (fun d x => match d.launchOf (.user x.1) with
      | some (_, l) => if l.part = part ∧ l.stream = stream then departTeam.stopPins d x.1 else d
      | none => d)
    d

/-- CTXSW: also the step by which a switch in progress goes on. -/
def execCtxsw (at_ : Stream) (target : BitVec 2) (s : State) : Host.Outcome State Fault Refusal :=
  match (s.dev.stream at_).wait with
  | .switch t left => devStep s (fun d => continueSwitch d at_ t left)
  | _ =>
    cpPacket at_ 2 s (fun d =>
      let p := d.part at_.part
      if p.active = target.toNat then endPacket d at_
      else
        let d := preemptContext d at_.part p.active
        let d := d.modPart at_.part (fun p => { p with active := target.toNat })
        let cores := p.dieList.flatMap (fun die => (List.range 160).map (fun k => (160 * die + k, (d.core (160 * die + k)).front)))
        continueSwitch d at_ target.toNat (switchLeft d target.toNat cores))

-- the fetch of a packet (R447, R449, R452, R455)

/-- What the fetch comes to. -/
inductive PacketFetch where
  /-- nothing to execute -/
  | idle
  /-- the stream moved without executing a packet: a skipped one, or an error -/
  | moved (d : Device)
  /-- a packet executes -/
  | run (d : Device) (i : Instr)

/-- The positions that a window keeps: from the packet on, and a running loop's range. -/
def keptWindow (l : CpLevel) : Tbl Byte :=
  let from_ := match l.loop with | some k => Nat.min k.start l.pos | none => l.pos
  l.window.filter (fun x => decide (from_ ≤ x.1))

/-- Reads ahead n bytes from a position; stops at the first byte that fails, with its cause. -/
def readAhead (d : Device) (part : Nat) (st : StreamSt) : Nat → Nat → Tbl Byte → Tbl Byte × Option Nat
  | 0, _, w => (w, none)
  | n + 1, pos, w =>
    if (tget w pos).isSome then readAhead d part st n (pos + 1) w
    else
      match cpReadByte d part (st.addr pos) with
      | .ok b => readAhead d part st n (pos + 1) (tput w pos b)
      | .error c => (w, some c)

/-- A packet of n bytes at the position of the top level: its bytes from the window, those past it from memory, as far as they
read, and the cause that stops the reading. -/
def packetBytes (d : Device) (part : Nat) (st : StreamSt) : Nat → Nat → List Byte × Option Nat
  | 0, _ => ([], none)
  | n + 1, pos =>
    match levelByte d part st pos with
    | .error c => ([], some c)
    | .ok b => let (t, c) := packetBytes d part st n (pos + 1); (b :: t, c)

/-- Bytes as 32-bit words; a last part of a word is dropped. -/
def bytesWords : Nat → List Byte → List Word
  | 0, _ => []
  | n + 1, b => if b.length < 4 then [] else BitVec.ofNat 32 (bytesNat (b.take 4)) :: bytesWords n (b.drop 4)

/-- The lines of n bytes of a level are resolved before they are read; at level 0 they wrap at the ring's end (11 R261). -/
def levelTouch (d : Device) (part : Nat) (st : StreamSt) (pos n : Nat) : Device :=
  if st.top.stop.isSome then cpTouch d part (st.addr pos) n
  else
    let here := Nat.min n (ringSize st - pos % ringSize st)
    let d := cpTouch d part (st.addr pos) here
    if here < n then cpTouch d part st.base (n - here) else d

/-- A skipped packet is only measured (R452): by its DW, and a LOOP by its range behind its DW words (log entry 16, DEDUCED). -/
def skipPacket (d : Device) (at_ : Stream) (st : StreamSt) (h : Nat) : PacketFetch :=
  let l := st.top
  let err (e c : Nat) : PacketFetch := .moved (streamError d at_.part at_.idx e c)
  let room (n : Nat) : Bool := decide (n ≤ st.avail)
  let short (e : Nat) : PacketFetch := if l.stop.isSome then err e 0 else .idle
  let go (n : Nat) : PacketFetch := .moved (d.setStream at_ ((st.setTop { l with skip := l.skip - 1 }).pass n))
  if headerDw h = 0 then err 2 0
  else if !room (4 * headerDw h) then short 2
  else if h / 2 ^ 24 ≠ 4 then go (4 * headerDw h)
  else if !room 12 then short 2
  else
    match levelWord d at_.part st (l.pos + 8) with
    | .error c => .moved (levelError d at_ st (l.pos + 8) 4 c)
    | .ok range =>
      let body := l.pos + 4 * headerDw h
      let n := 4 * headerDw h + 4 * range
      if range = 0 ∨ 125 < range then err 4 0
      else if !room n then short 4
      else
        let d := levelTouch d at_.part st body (4 * range)
        match measure d at_.part st true (l.pos + n) 126 body with
        | .error c => .moved (levelError d at_ st body (4 * range) c)
        | .ok false => err 4 0
        | .ok true => .moved (d.setStream at_ ((st.setTop { l with skip := l.skip - 1 }).pass n))

/-- A long WRITE whose own bytes fail has written what it read before (R455) (log entry 16, DEDUCED). -/
def partWrite (d : Device) (at_ : Stream) (st : StreamSt) (n : Nat) (ws : List Word) (c : Nat) : Device :=
  match ws with
  | _ :: lo :: hi :: data =>
    (match addrOperand lo hi 4 with
     | .ok a =>
       levelError (cpStore d at_.part a.toNat (data.flatMap (fun w => natBytes 4 w.toNat))).1 at_ st st.top.pos n c
     | .error r => streamError d at_.part at_.idx r.streamErr 0)
  | _ => levelError d at_ st st.top.pos n c

/-- The packet whose header is h. -/
def takePacket (d : Device) (at_ : Stream) (st : StreamSt) (h : Nat) : PacketFetch :=
  let l := st.top
  let err (e c : Nat) : PacketFetch := .moved (streamError d at_.part at_.idx e c)
  match decodePacketHeader at_ (BitVec.ofNat 32 h) with
  | .error r => err r.streamErr 0
  | .ok (op, dw) =>
    let n := 4 * dw
    if st.avail < n then (if l.stop.isSome then err 2 0 else .idle)
    else if (match l.loop with | some k => decide (k.stop < l.pos + n) | none => false) then err 4 0
    else
      let d := if 512 < n then levelTouch d at_.part st (l.pos + 512) (n - 512) else d
      match packetBytes d at_.part st n l.pos with
      | (b, some c) =>
        .moved (if op = 6 ∧ 512 ≤ b.length then partWrite d at_ st n (bytesWords dw b) c else levelError d at_ st l.pos n c)
      | (b, none) =>
        match decodePacket at_ (bytesWords dw b) with
        | .error r => err r.streamErr 0
        | .ok i => .run d i

/-- The next packet of a stream: its fetch window is read (R455), and it is skipped, refused or executed. -/
def fetchPacket (d : Device) (at_ : Stream) : PacketFetch :=
  let st := d.stream at_
  if !cpMayRun d at_ || decide (st.avail < 4) then .idle
  else
    let pos := st.top.pos
    let n := Nat.min 512 st.avail
    let d := levelTouch d at_.part st pos n
    let (w, bad) := readAhead d at_.part st n pos (keptWindow st.top)
    let st := st.setTop { st.top with window := w }
    let d := d.setStream at_ st
    match levelWord d at_.part st pos with
    | .error c => .moved (levelError d at_ st pos 4 (bad.getD c))
    | .ok h => if st.top.skip ≠ 0 then skipPacket d at_ st h else takePacket d at_ st h

end Sys2Proof.Machine
end

