-- ==== Sys2Proof/Machine/Links.lean ====
section
/-!
DEFINITION. Transactions on the Fremas links: the export table and the target's answers, the initiator's answers, and replay requests
(27 R473 to R476).
-/
namespace Sys2Proof.Machine

-- the target (R476)

/-- A region entry of an export table. -/
structure Region where
  base : Nat
  size : Nat
  key : Nat
  read : Bool
  write : Bool
  reserved : Bool
  deriving DecidableEq, Repr

def regionOf (b : List Byte) : Region :=
  let n := bytesNat b
  { base := natBits n 0 57, size := natBits n 64 64, key := natBits n 128 64, read := n.testBit 192, write := n.testBit 193
    reserved := natBits n 57 7 != 0 || n / 2 ^ 194 != 0 }

/-- Whether a packet may not reach a line: it belongs to another world or is poisoned (log entry 23, DEDUCED). R476 refuses no sealed line:
a read of one carries its ciphertext, and a write unseals it. -/
def lineRefuses (d : Device) (part line : Nat) : Bool :=
  let t := tagOf d line
  t.world != part || t.poison

/-- The bytes of a range that a packet names, as places in local or host memory; none where translation fails or a line refuses it. -/
def regionPlaces (d : Device) (part : Nat) (n : Needs) (va : Nat) : Nat → Option (List (Bool × Nat))
  | 0 => some []
  | k + 1 =>
    match cpTranslate d part va n, regionPlaces d part n (va + 1) k with
    | .local_ pa, some t => if !lineRefuses d part (lineOf pa) then some ((true, pa) :: t) else none
    | .host a, some t => some ((false, a) :: t)
    | _, _ => none

/-- What a packet names at the target, when it is not refused. -/
def packetPlaces (d : Device) (b : List Byte) (write : Bool) : Option (List (Bool × Nat)) :=
  let p := packetOf b
  let part := p.world
  if !packetGood b || !isFunction part || (d.part part).state == 0 then none
  else
    match cpRead d part ((d.part part).exportBase + 32 * p.region) 32 with
    | .error _ => none
    | .ok e =>
      let r := regionOf e
      if r.size = 0 || r.reserved || r.key != p.akey || !(if write then r.write else r.read) || decide (r.size < p.offset + p.len) then none
      else regionPlaces d part { read := !write, write, exec := false } (r.base + p.offset) p.len

/-- The address of a packet as a kind-1 address holds it (R475). -/
def packetAddr (p : Packet) : Nat := p.world * 2 ^ 48 + p.region * 2 ^ 40 + p.offset % 2 ^ 40

/-- A refused packet is logged with SRC 5 (log entry 22, PRESUMED). -/
def logRefused (d : Device) (p : Packet) : Device :=
  let part := if 1 ≤ p.world ∧ p.world ≤ 16 then p.world else 0
  logEvent d part (plainEntry 0 (packetAddr p) part srcLink 0 none 0 false)

/-- The lines of a packet's export-table entry and of its range are resolved first. -/
def touchRegion (d : Device) (b : List Byte) : Device :=
  let p := packetOf b
  if !packetGood b || !isFunction p.world || (d.part p.world).state == 0 then d
  else
    let d := cpTouch d p.world ((d.part p.world).exportBase + 32 * p.region) 32
    match cpRead d p.world ((d.part p.world).exportBase + 32 * p.region) 32 with
    | .ok e => cpTouch d p.world ((regionOf e).base + p.offset) p.len
    | .error _ => d

/-- REMOTE_WRITE: a line that a peer writes into is no longer sealed. -/
def execRemoteWrite (port : Nat) (packet : List Byte) (s : State) : Host.Outcome State Fault Refusal :=
  devStep s (fun d =>
    let p := packetOf packet
    let answer (status : Nat) : List Byte := { p with op := 4, status, data := [] : Packet }.bytes
    let d := touchRegion d packet
    match packetPlaces d packet true with
    | none => sendPacket (logRefused d p) port (answer 1)
    | some places =>
      let d := (places.zip p.data).foldl
        (fun d x =>
          if x.1.1 then
            let d := d.modMem (fun m => { m with hbm := writeByte m.hbm x.1.2 x.2 })
            let t := tagOf d (lineOf x.1.2)
            if t.form then setTag d (lineOf x.1.2) { t with form := false } else d
          else d.modMem (fun m => { m with host := writeByte m.host x.1.2 x.2 }))
        d
      sendPacket d port (answer 0))

/-- READ_REQUEST. -/
def execReadRequest (port : Nat) (packet : List Byte) (s : State) : Host.Outcome State Fault Refusal :=
  devStep s (fun d =>
    let p := packetOf packet
    let answer (status : Nat) (data : List Byte) : List Byte := { p with op := 3, status, data : Packet }.bytes
    let d := touchRegion d packet
    match packetPlaces d packet false with
    | none => sendPacket (logRefused d p) port (answer 1 [])
    | some places =>
      sendPacket d port (answer 0 (places.map (fun x => if x.1 then readByte d.mem.hbm x.2 else readByte d.mem.host x.2))))

-- the initiator (R474, R476)

/-- The request that waits for a port's transaction: its core and itself. -/
def waitingReq (d : Device) (port tag : Nat) : Option (Nat × CopyReq) :=
  (d.cores.flatMap (fun c => c.2.reqs.map (fun r => (c.1, r)))).find? (fun x => x.2.peerTag == some (port, tag))

/-- READ_DATA. -/
def execReadData (port : Nat) (packet : List Byte) (s : State) : Host.Outcome State Fault Refusal :=
  devStep s (fun d =>
    let p := packetOf packet
    match waitingReq d port p.tag with
    | none => d
    | some (core, r) =>
      if r.rcd.skind ≠ 1 || decide (r.rcd.pieceLen r.n ≤ r.buf.length) then d
      else if p.status ≠ 0 then settleAll (copyFault d core r 0x69 (r.rcd.src (r.n + r.buf.length)).toNat) core
      else setReq d core (r.take p.data false))

/-- WRITE_COMPLETION: a piece is written and counted; while its object's page is brought in, the completion waits. -/
def execWriteCompletion (port : Nat) (packet : List Byte) (s : State) : Host.Outcome State Fault Refusal :=
  let d := s.dev
  let p := packetOf packet
  match waitingReq d port p.tag with
  | none => .next s
  | some (core, r) =>
    if r.rcd.dkind ≠ 1 || decide (r.buf.length < r.rcd.pieceLen r.n) then .next s
    else if p.status ≠ 0 then .next { s with dev := settleAll (copyFault d core r 0x69 (r.rcd.dst r.n).toNat) core }
    else
      match pieceDone d core r with
      | some d => .next { s with dev := settleAll d core }
      | none => .next { s with agenda := s.agenda ++ [.event (.writeCompletion port packet)] }

-- replay (R473, R475)

/-- The requests that run on a port: they have bytes left to move. -/
def reqsOn (d : Device) (port : Nat) : List (Nat × CopyReq) :=
  (d.cores.flatMap (fun c => c.2.reqs.map (fun r => (c.1, r)))).filter (fun x => x.2.moving && x.2.port == some port)

/-- A port fails: its requests fault with 0x69, and the physical function's log tells of it. -/
def failPort (d : Device) (port : Nat) : Device :=
  let rs := reqsOn d port
  let d := d.modPort port (fun p => { p with failed := true })
  let d := logEvent d 0 (plainEntry 0 port 0 srcLink 0 none 0 false)
  rs.foldl (fun d x => copyFault d x.1 x.2 0x69 (if x.2.rcd.skind = 1 then x.2.rcd.saddr else x.2.rcd.daddr)) d

/-- The flits of the replay buffer from a counter on. -/
def Port.replayFrom (p : Port) (counter : Nat) : List SentFlit := p.replay.dropWhile (fun f => f.ctr != counter)

/-- REPLAY_REQUEST: every flit from the requested counter on goes out again, byte for byte, and stays in the replay buffer; eight
requests in a row for one counter fail the port. -/
def execReplayRequest (port counter : Nat) (s : State) : Host.Outcome State Fault Refusal :=
  devStep s (fun d =>
    let p := d.port port
    if !p.up || p.failed then d
    else
      let n := if p.nakAt = counter then p.naks + 1 else 1
      if 8 ≤ n then failPort (d.setPort port { p with naks := n, nakAt := counter }) port
      else d.setPort port { p with naks := n, nakAt := counter, resent := p.replayFrom counter })

end Sys2Proof.Machine
end

