-- ==== Sys2Proof/Machine/Hub.lean ====
section
/-!
DEFINITION. The hub: the host's registers and the TDISP lock (26 R463 to R465), partitions and their commands (R461, R462), turnover
(R469), keys and measurements (R466 to R468), accesses over PCIe (11 R259, 20 R402), debuggers (04 R118), and bring-up (24 R444).
-/
namespace Sys2Proof.Machine

-- suspend and resume (25 R458)

/-- Whether a team sits on a core that a firmware context fault stopped (20 R405). -/
def onFaulted (d : Device) (t : Team) : Bool := match t.place with | some (c, _) => (d.core c).fwFault | none => false

def resumePart (d : Device) (part : Nat) : Device :=
  let d := d.modPart part (fun p => { p with susp := false, state := 1 })
  let d := (d.part part).dieList.foldl (fun d k => d.modDie k (fun x => { x with gated := false })) d
  (partTeams d part).foldl (fun d t => if onFaulted d t.2 then d else resumeTeam d t.1) d

/-- Whether a CTXSW is in progress. -/
def switching (p : Part) : Bool := match (p.stream 4).wait with | .switch _ _ => true | _ => false

/-- A suspend: a CTXSW in progress finishes first, and then the suspend takes effect (R458). STATE 5 is read at once (26 R465). -/
def requestSuspend (d : Device) (part state : Nat) : Device :=
  if switching (d.part part) then
    d.modPart part (fun p => { p with suspDue := some state, state := if state = 5 then 5 else p.state })
  else suspendPart d part state

-- registers that lock (R465)

def tdiLocked (p : Part) : Bool := p.tdi == .locked || p.tdi == .run

/-- A write to a locked field: it is dropped with an Unsupported Request completion and logged, the TDI enters ERROR and the partition is suspended (log entry 22, PRESUMED). -/
def lockedWrite (d : Device) (part addr : Nat) : Device :=
  let d := logEvent d part (plainEntry 0 addr part srcIngress 0 none 0 false)
  let d := d.modPart part (fun p => { p.refuse with tdi := .error })
  requestSuspend d part 5

/-- A write of an RWL field at an offset of the function's BAR. -/
def rwlWrite (d : Device) (part addr : Nat) (f : Device → Device) : Device :=
  if tdiLocked (d.part part) then lockedWrite d part addr else f d

/-- An address that the manual does not give: a free value (log entry 6, DESIGN CHOICE). -/
def unknownAddr (d : Device) : Nat × Device := let (n, d) := d.draw; ((Config.sysWord n).toNat, d)

-- the stream registers (R463, R464)

/-- A stream of a virtual function. -/
def streamThere (at_ : Stream) : Bool := decide (1 ≤ at_.part) && decide (at_.part ≤ 16) && decide (at_.idx ≤ 4)

/-- The host writes a register of a stream. -/
def streamWrite (at_ : Stream) (s : State) (f : Device → Device) : Host.Outcome State Fault Refusal :=
  hostStep s (fun d => if streamThere at_ then mmioWrite d at_.part f else d)

/-- No packet executing, and the read offset equal to WPTR. -/
def StreamSt.idle (st : StreamSt) : Bool :=
  st.wait == .none && decide (st.lvls.length ≤ 1) && st.top.pos % ringSize st == st.wptr

/-- NOTIFY (R464). -/
def execNotify (at_ : Stream) (value : DWord) (s : State) : Host.Outcome State Fault Refusal :=
  streamWrite at_ s (fun d =>
    let st := d.stream at_
    let v := value.toNat
    if v % 4 != 0 || decide (ringSize st ≤ v) then d else d.setStream at_ { st with wptr := v })

/-- An accepted write of a ring register sets both offsets to 0. -/
def StreamSt.restart (st : StreamSt) : StreamSt := { st with wptr := 0, levels := [] }

/-- RING_BASE_WRITE (R464). -/
def execRingBaseWrite (at_ : Stream) (value : DWord) (s : State) : Host.Outcome State Fault Refusal :=
  streamWrite at_ s (fun d =>
    rwlWrite d at_.part (0x40 * at_.idx) (fun d =>
      let st := d.stream at_
      if st.idle then d.setStream at_ { st.restart with base := natBits value.toNat 12 45 * 2 ^ 12 } else d))

/-- RING_SIZE_WRITE (R464). -/
def execRingSizeWrite (at_ : Stream) (value : DWord) (s : State) : Host.Outcome State Fault Refusal :=
  streamWrite at_ s (fun d =>
    rwlWrite d at_.part (8 + 0x40 * at_.idx) (fun d =>
      let st := d.stream at_
      let n := natBits value.toNat 0 5
      if st.idle && decide (12 ≤ n) && decide (n ≤ 24) then d.setStream at_ { st.restart with log2 := n } else d))

/-- ERROR_LOG_CLEAR (R463): LOST is W1C (00 R6), and a write of all ones empties the log too. -/
def execErrorLogClear (part : Nat) (value : Word) (s : State) : Host.Outcome State Fault Refusal :=
  hostStep s (fun d => mmioWrite d part (fun d => d.modPart part (fun p =>
    { p with lost := p.lost &&& ~~~value, log := if value = BitVec.allOnes 32 then [] else p.log })))

/-- Whether a launch of a partition runs on a die (11 R256). -/
def launchOnDie (d : Device) (die : Nat) : Bool :=
  d.teams.any (fun t => !t.2.retired && (match t.2.place with | some (c, _) => dieOf c == die | none => false))

/-- The L2 split register of a die (11 R256). -/
def writeSplit (d : Device) (die v : Nat) : Device :=
  let rways := natBits v 8 5
  let sways := natBits v 0 5
  if rways = 0 ∨ 8 < rways ∨ sways < rways ∨ 24 < sways ∨ launchOnDie d die then d
  else d.modDie die (fun x => { x with rways, sways })

/-- A word of the MSI-X table; a pending vector that is unmasked leaves (R463). -/
def writeMsix (d : Device) (part entry word : Nat) (w : Word) : Device :=
  let d := d.modPart part (fun p => { p with msix := tput p.msix (4 * entry + word) w })
  if word = 3 ∧ w.getLsbD 0 = false ∧ tgetD (d.part part).pba entry false = true then
    sendMessage (d.modPart part (fun p => { p with pba := tdel p.pba entry })) part entry
  else d

/-- The RW fields of the partition control register: DIES, TEST, CONF and PROT (R461). -/
def controlFields (value : DWord) : DWord := value &&& 0xFFFF0E0000000000

/-- A write of a field that locks, of a register whose offset the manual does not give. -/
def rwlWriteAt (d : Device) (part : Nat) (f : Device → Device) : Device :=
  if tdiLocked (d.part part) then
    let (a, d) := unknownAddr d
    lockedWrite d part a
  else f d

-- the TDI (R465)

/-- The configuration that a lock captures (R467): every field marked RWL (the rings, the export table, the L2 splits of the partition's
dies) and the MSI-X table. -/
def lockedConfig (d : Device) (part : Nat) : List DWord :=
  let p := d.part part
  (List.range 5).flatMap (fun i => [BitVec.ofNat 64 (p.stream i).base, BitVec.ofNat 64 (p.stream i).log2]) ++
    [BitVec.ofNat 64 p.exportBase] ++ p.dieList.flatMap (fun k => [BitVec.ofNat 64 (d.die k).rways, BitVec.ofNat 64 (d.die k).sways]) ++
    (List.range 8192).map (fun i => (p.msixWord (i / 4) (i % 4)).setWidth 64)

/-- The locked configuration is captured: its hash's words, a free function of it (R467). -/
def captureLock (d : Device) (part : Nat) : Device :=
  let ws := (List.range 6).map (Config.configHash (lockedConfig d part))
  d.modPart part (fun p => { p with tdi := .locked, meas := { p.meas with locked := some ws } })

/-- LOCK_INTERFACE_REQUEST. -/
def execLockInterfaceRequest (part : Nat) (s : State) : Host.Outcome State Fault Refusal :=
  hostStep s (fun d =>
    let p := d.part part
    if p.tdi == .unlocked && p.state != 0 && p.state != 4 then captureLock d part else d)

/-- START_INTERFACE_REQUEST. -/
def execStartInterfaceRequest (part : Nat) (s : State) : Host.Outcome State Fault Refusal :=
  hostStep s (fun d => if (d.part part).tdi == .locked then d.modPart part (fun p => { p with tdi := .run }) else d)

-- turnover (R469)

/-- Steps 1 and 2: everything the partition runs is discarded, and its cores and caches are zeroed. -/
def quiesce (d : Device) (part : Nat) : Device :=
  let p := d.part part
  let mine (l : Nat) : Bool := match d.launch l with | some x => x.part == part | none => false
  let gone := (d.teams.filter (fun t => mine t.2.launch)).map (fun t => t.1)
  let isGone (g : Group) : Bool := match g.kind with | .user t => gone.contains t | .firmware _ _ => false
  { d with
    groups := d.groups.filter (fun g => !isGone g.2)
    teams := d.teams.filter (fun t => !mine t.2.launch)
    launches := d.launches.filter (fun l => l.2.part != part)
    cores := d.cores.filter (fun c => !p.dies.getLsbD (dieOf c.1))
    fw := d.fw.filter (fun g => !p.dies.getLsbD (dieOf (g.1 / 4))) }

/-- Step 2: HBM lines hold zeros and the partition's world tag; staging and the backing slots hold zeros. -/
def scrub (d : Device) (part : Nat) : Device :=
  let p := d.part part
  let ours (a : Nat) : Bool := p.dies.getLsbD (homeDie a)
  let gone (s : Nat) : Bool := match tget d.mem.slotHome s with | some k => p.dies.getLsbD k | none => false
  let d := d.modMem (fun m =>
    { m with hbm := m.hbm.filter (fun c => !ours c.1)
             tags := m.tags.filter (fun t => !ours (64 * t.1))
             planted := m.planted.filter (fun t => !ours (64 * t.1))
             staging := m.staging.filter (fun c => !p.dies.getLsbD (c.1 / 2 ^ 28))
             stagingForm := m.stagingForm.filter (fun k => !p.dies.getLsbD (64 * k / 2 ^ 28))
             stagingPoison := m.stagingPoison.filter (fun k => !p.dies.getLsbD (64 * k / 2 ^ 28))
             slots := m.slots.filter (fun c => !gone (c.1 / pageSize))
             slotPoison := m.slotPoison.filter (fun k => !gone (k / 256))
             slotRefs := m.slotRefs.filter (fun s => !gone s.1)
             slotDies := m.slotDies.filter (fun s => !gone s.1)
             slotHome := m.slotHome.filter (fun s => !p.dies.getLsbD s.2) })
  p.dieList.foldl (fun d k => d.modDie k (fun x => { x with segCache := [], scrubWorld := part, gated := false })) d

/-- The partition's registers after a turnover; the hypervisor's stay (log entry 29, DEDUCED). -/
def Part.clean (p : Part) : Part :=
  { p with
    inval := none, moving := [], streams := [], active := 0, bankCtx := [], gq := [], log := [], lost := 0, nextSeq := 0, msix := [],
    pba := [], tdi := .unlocked, keys := [], inj := Injector.reset, saveHead := 0, saveCount := 0, offList := [], debugger := false,
    exportBase := 0, pops := [], susp := true, suspDue := none, turn := none,
    meas := { p.meas with locked := none, turnovers := p.meas.turnovers + 1 } }

/-- The dies of a partition are freed (R462): DIES reads as 0. -/
def Part.freeDies (p : Part) : Part := { p with state := 0, dies := 0, ctl := p.ctl &&& 0x0000FFFFFFFFFFFF }

/-- A stream stops. -/
def StreamSt.halt (st : StreamSt) : StreamSt := { st with stop := true, wait := .none }

/-- A turnover begins: step 1 is done, and STATE is 4 until the others are. `frees`: the dies are freed at its end; `health` lists the dies
that fail the health test. -/
def startTurnover (d : Device) (part : Nat) (frees : Bool) (health : List Nat) : Device :=
  (quiesce d part).modPart part (fun p =>
    { p with state := 4, turn := some (frees, health), susp := true, suspDue := none, inval := none, moving := [], gq := [], pops := []
             streams := p.streams.map (fun x => (x.1, x.2.halt)) })

/-- Steps 2 to 4 of a turnover that runs. -/
def endTurnover (d : Device) (part : Nat) : Device :=
  match (d.part part).turn with
  | none => d
  | some (frees, health) =>
    let bad := ((d.part part).dieList).filter (fun k => health.contains k)
    let d := scrub d part
    let d := bad.foldl (fun d k => d.modDie k (fun x => { x with absent := true })) d
    let d := (d.part part).dieList.foldl retarget d
    d.modPart part (fun p =>
      let p := p.clean
      let p := { p with meas := { p.meas with health := bad.isEmpty } }
      if bad.isEmpty && !frees then { p with state := 2 } else p.freeDies)

/-- STOP_INTERFACE (R465): the TDI returns to CONFIG_UNLOCKED through a turnover (log entry 22, PRESUMED). -/
def execStopInterface (part : Nat) (health : List Nat) (s : State) : Host.Outcome State Fault Refusal :=
  hostStep s (fun d =>
    let p := d.part part
    if p.tdi == .unlocked || p.state == 0 || p.state == 4 then d else startTurnover d part false health)

-- the partition's commands (R461, R462)

/-- The partition control register as it reads (R461): CMD is write-only. -/
def partControl (d : Device) (part : Nat) : DWord :=
  let p := d.part part
  p.ctl ||| BitVec.ofNat 64 (p.state * 2 ^ 44 + p.res.toNat * 2 ^ 8)

/-- PARTITION_CREATE: only after bring-up (24 R444); gated dies are ungated (R440). -/
def execPartitionCreate (part : Nat) (value : DWord) (segBase : DWord) (s : State) : Host.Outcome State Fault Refusal :=
  hostStep s (fun d =>
    let v := value.toNat
    let dies : BitVec 16 := BitVec.ofNat 16 (v / 2 ^ 48)
    let list := (List.range 16).filter (fun i => dies.getLsbD i)
    let test := v.testBit 43
    let conf := v.testBit 42
    if !isFunction part || natBits v 9 32 != 0 then d
    else if (d.part part).state != 0 || dies == 0 || list.any (fun i => (d.die i).absent || d.partOfDie i != 0) || (conf && test) then
      d.modPart part (fun p => { p with res := true })
    else
      (list.foldl (fun d k => d.modDie k (fun x => { x with gated := false })) d).modPart part (fun p =>
        { p with dies, state := 1, test, conf, prot := v.testBit 41, ctl := controlFields value, res := false
                 segBase := segBase.toNat / 2 ^ 21 * 2 ^ 21, susp := false, tdi := .unlocked, debugger := p.debugger && !conf }))

/-- The contexts of a partition's sequencers start anew; user state is left untouched (R462). -/
def resetContexts (d : Device) (part : Nat) : Device :=
  let p := d.part part
  { d with fw := d.fw.filter (fun g => !p.dies.getLsbD (dieOf (g.1 / 4)))
           cores := d.cores.map (fun c => if p.dies.getLsbD (dieOf c.1) then (c.1, { c.2 with fwFault := false }) else c) }

/-- Whether the command with a code, 2 to 6, is refused (R462). -/
def commandRefused (d : Device) (part cmd : Nat) : Bool :=
  let state := (d.part part).state
  if cmd = 3 then state != 1
  else if cmd = 4 then state != 2 && state != 3
  else if cmd = 6 then state != 2
  else state == 0 || state == 4

/-- What an accepted command does: 2 destroy, 3 suspend, 4 resume, 5 turnover, 6 reset firmware contexts (R461). -/
def commandEffect (d : Device) (part cmd : Nat) (health : List Nat) : Device :=
  if cmd = 3 then requestSuspend d part 2
  else if cmd = 4 then resumePart d part
  else if cmd = 6 then resetContexts d part
  else startTurnover d part (cmd = 2) health

/-- A command of the hypervisor: refused it only sets RES, else it has its effect and clears RES. -/
def command (d : Device) (part cmd : Nat) (health : List Nat) : Device :=
  if !isFunction part then d
  else if commandRefused d part cmd then d.modPart part (fun p => { p with res := true })
  else (commandEffect d part cmd health).modPart part (fun p => { p with res := false })

/-- PARTITION_DESTROY, and the commands after it: the register's RW fields are written as they stand. -/
def execPartitionDestroy (part : Nat) (health : List Nat) (s : State) : Host.Outcome State Fault Refusal :=
  hostStep s (fun d => command d part 2 health)

/-- PARTITION_SUSPEND (25 R458). -/
def execPartitionSuspend (part : Nat) (s : State) : Host.Outcome State Fault Refusal := hostStep s (fun d => command d part 3 [])

/-- PARTITION_RESUME: gated dies are ungated first (24 R440). -/
def execPartitionResume (part : Nat) (s : State) : Host.Outcome State Fault Refusal := hostStep s (fun d => command d part 4 [])

/-- PARTITION_TURNOVER. -/
def execPartitionTurnover (part : Nat) (health : List Nat) (s : State) : Host.Outcome State Fault Refusal :=
  hostStep s (fun d => command d part 5 health)

/-- RESET_FIRMWARE_CONTEXTS. -/
def execResetFirmwareContexts (part : Nat) (s : State) : Host.Outcome State Fault Refusal := hostStep s (fun d => command d part 6 [])

/-- A write of the partition control register: a reserved bit makes it no command; CMD 1 has a row of its own; the other commands store
the RW fields when they are accepted, and a turnover's health test finds what it finds (log entry 29, DEDUCED); a code without a command
stores the RW fields, which change nothing that runs. -/
def writeControl (d : Device) (part : Nat) (value : DWord) : Device :=
  let cmd := value.toNat % 16
  let store (d : Device) : Device := d.modPart part (fun p => { p with ctl := controlFields value })
  if !isFunction part || natBits value.toNat 9 32 != 0 || cmd == 1 then d
  else if cmd = 0 ∨ 7 ≤ cmd then store d
  else if commandRefused d part cmd then command d part cmd []
  else
    let (n, d) := d.draw
    command (store d) part cmd ((List.range 16).filter (fun k => (Config.sysWord n).getLsbD k))

-- registers without a row of their own (R6)

/-- A write of a register that has no row of its own (R6). -/
def writeRegister (d : Device) (value : DWord) : HubReg → Device
  | .l2Split die =>
    if 16 ≤ die then d
    else if d.partOfDie die = 0 then writeSplit d die value.toNat
    else mmioWrite d (d.partOfDie die) (fun d => rwlWriteAt d (d.partOfDie die) (fun d => writeSplit d die value.toNat))
  | .injectorSeed part => if (d.part part).test then d.modPart part (fun p => { p with inj := { p.inj with seed := value } }) else d
  | .msix part entry word =>
    if !isFunction part || decide (2048 ≤ entry) || decide (4 ≤ word) then d
    else
      mmioWrite d part (fun d =>
        rwlWrite d part (0x8000 + 16 * entry + 4 * word) (fun d => writeMsix d part entry word (value.setWidth 32)))
  | .exportTable part =>
    if !isFunction part then d
    else
      mmioWrite d part (fun d => rwlWriteAt d part (fun d =>
        d.modPart part (fun p => { p with exportBase := natBits value.toNat 5 52 * 32 })))
  | .partControl part => writeControl d part value
  | .readOnly _ _ => d

/-- REGISTER_WRITE (R6). -/
def execRegisterWrite (reg : HubReg) (value : DWord) (s : State) : Host.Outcome State Fault Refusal :=
  hostStep s (fun d => writeRegister d value reg)

-- keys and measurements (R466 to R468)

/-- KEY_SLOT_PROVISION (R466): in a session whose TDI is locked. -/
def execKeySlotProvision (part slot : Nat) (key : BitVec 256) (s : State) : Host.Outcome State Fault Refusal :=
  hostStep s (fun d =>
    if tdiLocked (d.part part) && decide (slot < 16) then d.modPart part (fun p => { p with keys := tput p.keys slot key }) else d)

/-- The blocks of a measurement answer (R467): hashes and signatures are free values. -/
def measurement (d : Device) (part : Nat) : List (List DWord) :=
  let p := d.part part
  let n := d.drawn + 12
  let words (k m : Nat) : List DWord := (List.range m).map (fun i => Config.measurementWord (k + i))
  [words 0 6, words 6 6,
    [BitVec.ofNat 64 (p.dies.toNat * 2 ^ 48 + p.state * 2 ^ 44 + p.test.toNat * 2 ^ 43 + p.conf.toNat * 2 ^ 42 + p.prot.toNat * 2 ^ 41)],
    p.meas.locked.getD (List.replicate 6 0), [BitVec.ofNat 64 p.meas.turnovers, BitVec.ofNat 64 p.meas.health.toNat],
    words n 8, words (n + 8) 414]

/-- GET_MEASUREMENTS (R467, R468): one snapshot, signed with Ed25519 and ML-DSA-65. -/
def execGetMeasurements (part : Nat) (s : State) : Host.Outcome State Fault Refusal :=
  hostStep s (fun d =>
    if part ≤ 16 then
      let a := measurement d part
      ({ d with drawn := d.drawn + 422 }).modPart part (fun p => { p with meas := { p.meas with answer := a } })
    else d)

-- accesses over PCIe (11 R259, 20 R402)

/-- Whether an address lies in a save frame that is off its list. -/
def offFrame (d : Device) (a : Nat) : Bool := d.parts.any (fun p => p.2.offList.contains (a / 4096))

/-- What refuses an access of a function to a byte of device memory: the physical function reaches every line but a save frame that
is off its list; a virtual function its own world's lines (log entry 29, DEDUCED). -/
def ingressCause (d : Device) (part a : Nat) : Option Nat :=
  if 2 ^ 40 ≤ a then some 0x2A
  else if part = 0 then (if offFrame d a then some 0x26 else none)
  else tagCause d part (lineOf a)

/-- HOST_INGRESS_ACCESS: a refused access is logged with SRC 6; a write's line check is formed at ingress (log entry 36, DEDUCED), and
the lines it writes carry its function's world, 0 for the physical function (11 R260). -/
def execHostIngressAccess (part : Nat) (write : Bool) (addr : Nat) (data : List Byte) (s : State) : Host.Outcome State Fault Refusal :=
  hostStep s (fun d =>
    if write && (d.part part).state == 4 then d.modPart part Part.refuse else
    let lines := ((List.range data.length).map (fun i => lineOf (addr + i))).eraseDups
    let d := lines.foldl (fun d l => if l < 2 ^ 34 then homeAccess d part l else d) d
    match (List.range data.length).find? (fun i => (ingressCause d part (addr + i)).isSome) with
    | some i =>
      let c := (ingressCause d part (addr + i)).getD 0
      logPlain d part (plainEntry c (addr + i) part srcIngress (homeDie (addr + i) % 16) none 0 true)
    | none =>
      if write then
        lines.foldl (fun d l => setTag d l { tagOf d l with world := part })
          (d.modMem (fun m => { m with hbm := writeBytes m.hbm addr data }))
      else d)

/-- DEBUGGER_ATTACH (04 R118, R466): none attaches to a confidential partition. -/
def execDebuggerAttach (part : Nat) (attach : Bool) (s : State) : Host.Outcome State Fault Refusal :=
  hostStep s (fun d => if attach && (d.part part).conf then d else d.modPart part (fun p => { p with debugger := attach }))

-- bring-up (24 R444)

/-- SRC of the fabric (22 R428). -/
def srcFabric : Nat := 4

/-- A die that fails training is absent. -/
def failDies (d : Device) (mask : BitVec 16) (src : Nat) : Device :=
  (List.range 16).foldl
    (fun d i =>
      if mask.getLsbD i && !(d.die i).absent then
        logEvent (d.modDie i (fun x => { x with absent := true })) 0 (plainEntry 0 i 0 src i none 0 false)
      else d)
    d

/-- A link port after training. -/
def trainPort (d : Device) (i : Nat) (partner : Option Nat) : Device :=
  match partner with
  | some n => d.modPort i (fun p => { p with up := true, failed := false, partner := n, naks := 0 })
  | none => logEvent (d.modPort i (fun p => { p with up := false })) 0 (plainEntry 0 i 0 srcLink 0 none 0 false)

/-- MODULE_RESET: the module holds in reset while PCIe does not train. The host's memory is not the module's. -/
def execModuleReset (training : Training) (s : State) : Host.Outcome State Fault Refusal :=
  devStep s (fun old =>
    let d := { Device.reset with mem := { Device.reset.mem with host := old.mem.host }, drawn := old.drawn }
    if !training.pcieOk then d
    else
      let d := failDies (failDies d training.uciFail srcFabric) training.hbmFail srcStack
      let d := (List.range 12).foldl (fun d i => trainPort d i (training.portPartner.getD i none)) d
      { d with bringUp := 4 })

/-- LINK_TRAINING_REQUEST: of a port that is down. -/
def execLinkTrainingRequest (port : Nat) (partner : Option Nat) (s : State) : Host.Outcome State Fault Refusal :=
  devStep s (fun d =>
    let p := d.port port
    if 12 ≤ port || decide (d.bringUp < 4) || (p.up && !p.failed) then d else trainPort d port partner)

end Sys2Proof.Machine
end

