-- ==== Sys2Proof/Machine/Schedule.lean ====
section
/-!
DEFINITION. Which step comes next when the agenda is empty: the steps that the device's own agents may take, of which a free value chooses
one (log entry 1, DESIGN CHOICE). The list may hold steps that are not enabled: they change nothing.
-/
namespace Sys2Proof.Machine

/-- A group's results, checks and stores that are on their way, under its event number. -/
def memoryTurns (n : Nat) (g : Group) : List Instr :=
  g.core.pend.flatMap (fun p =>
      (if p.arrived then [] else [.resultDataArrival n p.op]) ++ p.lines.map (fun l => .loadResponse n p.op l)) ++
    (if g.checks.isEmpty then [] else [.issueChecksDone n]) ++
    (((g.waiting ++ g.flight).map (fun w => lineOf w.pa)).eraseDups).map (fun l => .storeAtHomeSlice n l)

/-- What answers a user group: the binder, firmware, a repair, its interrupt handler. -/
def groupTurns (d : Device) (x : Nat × Group) : List Instr :=
  let id := x.1
  let g := x.2
  (match g.park with | .quire _ => [.leafInstall id] | .sys _ _ _ => [.sysAnswer id] | .none => []) ++
    (if g.uq.isEmpty then [] else [.uintEntry id]) ++
    (if g.waitsFirmware || (match d.teamOf (.user id) with | some (_, t) => !t.pageIns.isEmpty | none => false) then [.pageFaultRepair id]
     else []) ++
    (if g.recordWaits then [.pageFaultRepair id, .segmentAbsentRepair id, .repairTimeout id] else []) ++
    memoryTurns (2 * id) g

/-- The cores with state of their own or a team. -/
def busyCores (d : Device) : List Nat :=
  (keysOf d.cores ++ d.teams.filterMap (fun t => t.2.place.map (fun p => p.1))).eraseDups

/-- A core: its picks, its clock, its bank pair and its engines. -/
def coreTurns (d : Device) (core : Nat) : List Instr :=
  let c := d.core core
  c.picked.map (fun id => .bundle (.group id)) ++ [.issuePick core, .autoBankFlip core] ++
    (List.range 4).map (fun q => .firmwareCredit core q) ++
    (if c.flipPend then [.bankFlip core] else []) ++
    (if drainNow d core = .idle then [.bankFill core] else [.bankDrain core]) ++
    [.matrixKstep core, .ringCfgTakeEffect core, .ringRstTakeEffect core] ++
    (if c.kicks.isEmpty then [] else [.copyRecordFetch core]) ++
    c.reqs.flatMap (fun r => [.copyOwnershipGrant core r.id, .copySourceLineRead core r.id, .copyLineWrite core r.id]) ++
    (if c.ciphers.isEmpty then [] else [.cipherOperation core])

/-- The dies that run teams of a launch without a replica of its quire (02 R72). -/
def missingReplicas (d : Device) (x : Nat × Launch) : List Nat :=
  (d.teams.filterMap (fun t =>
    match t.2.place with
    | some (core, _) => if t.2.launch = x.1 ∧ !x.2.replicas.contains (dieOf core) then some (dieOf core) else none
    | none => none)).eraseDups

/-- A launch and its teams; `quota` is the admission count of a slew window. -/
def launchTurns (d : Device) (quota : Nat) (x : Nat × Launch) : List Instr :=
  if x.2.done then []
  else
    .seedPlace x.1 :: (missingReplicas d x).map (fun die => .replicaInstall x.1 die) ++
      (if x.2.releasing.isEmpty then [] else [.gridReleaseWindow x.1 quota])

def teamTurns (d : Device) (x : Nat × Team) : List Instr :=
  if x.2.retired then [] else .teamRetire x.1 :: (if x.2.place.isSome && teamStopped d x.2 then [.teamSwapOut x.1] else [])

/-- A partition: its dispatcher, its segment table, its populations and the waits of its streams. -/
def partTurns (x : Nat × Part) : List Instr :=
  let part := x.1
  let p := x.2
  .globalDispatchBatch part :: (if p.inval.isSome then [.invalidationDone part] else []) ++
    p.moving.map (fun m => .segmentMigrate part m.1 (BitVec.ofNat 64 m.2)) ++
    (keysOf p.pops).map (fun va => .rsmpEvaluate (2 ^ 57 * part + va)) ++
    p.streams.flatMap (fun st =>
      let at_ : Stream := { part, idx := st.1 }
      match st.2.wait with
      | .test _ => [.waitTestHolds at_]
      | .switch t _ => [.ctxsw at_ (BitVec.ofNat 2 t)]
      | _ => [])

/-- The turnover that runs, and the packets that streams may take next. -/
def packetTurns (x : Nat × Part) : List Turn :=
  (if x.2.turn.isSome then [.turnover x.1] else []) ++ x.2.streams.map (fun st => .packet { part := x.1, idx := st.1 })

/-- The events that may come next. -/
def eventTurns (d : Device) (quota : Nat) : List Instr :=
  (busyCores d).flatMap (coreTurns d) ++ d.groups.flatMap (groupTurns d) ++ d.fw.flatMap (fun x => memoryTurns (2 * x.1 + 1) x.2) ++
    d.launches.flatMap (launchTurns d quota) ++ d.teams.flatMap (teamTurns d) ++ d.parts.flatMap partTurns ++
    (keysOf d.dies).flatMap (fun die => [.slewInterval die, .levelChangeDone die]) ++ (keysOf d.ports).map (fun p => .keyMarkerSend p)

/-- The steps that may come next; `tick` numbers the choice. -/
def turnsOf (d : Device) (tick : Nat) : List Turn :=
  (eventTurns d (16 + Config.turn tick % 241)).map .event ++ d.parts.flatMap packetTurns

/-- The step that comes next, and the state without it: the agenda's head, or else one of the steps that may come. -/
def nextTurn (s : State) : Option (Turn × State) :=
  match s.agenda with
  | t :: rest => some (t, { s with agenda := rest })
  | [] =>
    let l := turnsOf s.dev s.tick
    match l[Config.turn (s.tick + 1) % l.length]? with
    | some t => some (t, { s with tick := s.tick + 2 })
    | none => none

end Sys2Proof.Machine
end

