-- ==== Sys2Proof/Machine/Loader.lean ====
section
/-!
DEFINITION. How a program comes to stand where the machine takes its next step (log entry 3, DESIGN CHOICE): the load, from outside, of one leaf as the
bundle that a group has been picked for, or of one packet at a stream's read offset.
-/
namespace Sys2Proof.Machine

-- where things are put

def loadTable : Nat := 0x200000
def loadEntries : Nat := 0x400000
def loadVa : Nat := 0x200000
def loadPa : Nat := 0x800000

/-- The segment table with one segment of world 1, readable, writable and executable (11 R249). -/
def loadSegment (m : List Host.Cell) : List Host.Cell :=
  writeBytes (writeBytes m loadTable (natBytes 8 (loadEntries + 1))) (loadEntries + 16) (natBytes 16 (loadPa + 2 ^ 8 + 0x71))

/-- Partition 1 on die 0, created, scrubbed and started. -/
def loadPart (d : Device) : Device :=
  let p := { Part.reset with dies := 1, state := 1, segBase := loadTable, tdi := .run }
  (d.setPart 1 p).setDie 0 { Die.reset with scrubWorld := 1 }

def loadBytes (d : Device) (data : List Byte) : Device :=
  d.modMem (fun m => { m with hbm := writeBytes (loadSegment m.hbm) loadPa data, tags := m.tags.filter (fun t => decide (2 ^ 30 ≤ t.1)) })

/-- The bundle of one leaf at index 0, with two literals that are 0 and lookahead 0 (02 R52 to R55): its body is zeros. -/
def loadHeader (cls : SlotClass) : Nat := 5 * 2 ^ 12 + 2 * 2 ^ 5 + 2 ^ clsNum cls

def loadSpine : Spine :=
  { counts := [1, 1, 1, 1, 1], caps := [1, 1, 1, 1, 1], lat := [], tgroups := 1, pgroups := 1, pvbud := 256, psbud := 64, cvbud := 256
    csbud := 64, pool := 0x040103, fmt := 0, entry := BitVec.ofNat 64 loadVa, uvec := 0, places := [] }

/-- A seed team's only group, placed on core 0 and picked, at a bundle whose one leaf its decode table holds. -/
def loadLeaf (d : Device) (cls : SlotClass) (bits : Nat) (leaf : Option Instr) : Device :=
  let d := loadBytes (loadPart d) (natBytes 2 (loadHeader cls))
  let launch := d.nextLaunch
  let team := d.nextTeam
  let id := d.nextGroup
  let l : Launch :=
    { part := 1, stream := 0, spine := loadSpine, grants := [1, 1, 1, 1, 1], leaves := [(clsNum cls * 4096, bits)], replicas := [0]
      counter := 1, rgrid := false, declared := 0, spawned := 0, grid := Barrier.reset, releasing := [], placement := none
      reserved := [], slew := none, completion := loadVa + 0x100000, status := 0, code := 0, cause := 0, seq := none, done := false, pops := [] }
  let t : Team :=
    { launch, index := 0, place := some (0, 0), saved := false, groups := [id], entry := loadSpine.entry, inits := [], seed := true
      spt := [], fifo := [], rings := [], bars := [], retired := false, frames := [], starved := false, home := 0, heldBy := false, last := [], pageIns := [] }
  let g := Group.start (.user team) 0 true 0 0 (GCore.start loadSpine.entry 0 allLanes)
  let e : TabEntry := { index := 0, leaf, used := 0, pins := [] }
  let d := { d with launches := tput d.launches launch l, teams := tput d.teams team t, groups := tput d.groups id g
                    nextLaunch := launch + 1, nextTeam := team + 1, nextGroup := id + 1 }
  let d := d.modPart 1 (fun p => { p with bankCtx := [(0, 0)], streams := [(0, { StreamSt.reset with wait := .launch launch })] })
  d.setCore 0 { Core.reset with now := 1, picked := [id], ages := [(0, [id])]
                                tabs := [(tabKey 0 0 cls, { launch, entries := [(0, e)] })] }

/-- The words of a packet at the start of a stream's ring, notified. -/
def loadPacket (d : Device) (at_ : Stream) (ws : List Word) : Device :=
  let d := loadBytes (loadPart d) (ws.flatMap (fun w => natBytes 4 w.toNat))
  d.setStream at_ { StreamSt.reset with base := loadVa, log2 := 20, wptr := 4 * ws.length }

/-- The stream that takes a packet: the control stream one that no other takes. -/
def packetStream (ws : List Word) : Stream :=
  match decodePacket tableStream ws with
  | .ok _ => tableStream
  | .error _ => match decodePacket tableControl ws with | .ok _ => tableControl | .error _ => tableStream

/-- The device with an instruction placed, and the step that takes it. -/
def loadWord (d : Device) (nbits w : Nat) : Device × Turn :=
  match tableClass nbits w with
  | some k => (loadLeaf d k w (decodeLeaf k w).toOption, .event (.bundle (.group d.nextGroup)))
  | none =>
    let ws := tablePacket nbits w
    (loadPacket d (packetStream ws) ws, .packet (packetStream ws))

end Sys2Proof.Machine
end

