-- ==== Sys2Proof/Machine/Dispatch.lean ====
section
/-!
DEFINITION. The meaning of every instruction, one call each.
-/
namespace Sys2Proof.Machine

/-- One step of one instruction. -/
def exec (i : Instr) (s : State) : Host.Outcome State Fault Refusal :=
  match i with
  | .bundle who => Sys2Proof.Machine.execBundle who s
  | .leafInstall group => Sys2Proof.Machine.execLeafInstall group s
  | .replicaInstall launch die => Sys2Proof.Machine.execReplicaInstall launch die s
  | .resultDataArrival group op => Sys2Proof.Machine.execResultDataArrival group op s
  | .issuePick core => Sys2Proof.Machine.execIssuePick core s
  | .firmwareCredit core quad => Sys2Proof.Machine.execFirmwareCredit core quad s
  | .nop o => Sys2Proof.Machine.execNop o s
  | .bra o => Sys2Proof.Machine.execBra o s
  | .brd o => Sys2Proof.Machine.execBrd o s
  | .bri o => Sys2Proof.Machine.execBri o s
  | .join o => Sys2Proof.Machine.execJoin o s
  | .call o => Sys2Proof.Machine.execCall o s
  | .ret o => Sys2Proof.Machine.execRet o s
  | .loop o => Sys2Proof.Machine.execLoop o s
  | .lend o => Sys2Proof.Machine.execLend o s
  | .exit o => Sys2Proof.Machine.execExit o s
  | .halt o => Sys2Proof.Machine.execHalt o s
  | .yield o => Sys2Proof.Machine.execYield o s
  | .setfmt o => Sys2Proof.Machine.execSetfmt o s
  | .getfmt o => Sys2Proof.Machine.execGetfmt o s
  | .perfSet o => Sys2Proof.Machine.execPerfSet o s
  | .trap o => Sys2Proof.Machine.execTrap o s
  | .sysRoundTrip o => Sys2Proof.Machine.execSysRoundTrip o s
  | .sysProgress o => Sys2Proof.Machine.execSysProgress o s
  | .sysPageIn o => Sys2Proof.Machine.execSysPageIn o s
  | .sysGroupCount o => Sys2Proof.Machine.execSysGroupCount o s
  | .sysAnswer group => Sys2Proof.Machine.execSysAnswer group s
  | .bkpt o => Sys2Proof.Machine.execBkpt o s
  | .iret o => Sys2Proof.Machine.execIret o s
  | .waitb o => Sys2Proof.Machine.execWaitb o s
  | .barArrive o => Sys2Proof.Machine.execBarArrive o s
  | .barWait o => Sys2Proof.Machine.execBarWait o s
  | .barTeam o => Sys2Proof.Machine.execBarTeam o s
  | .barGrid o => Sys2Proof.Machine.execBarGrid o s
  | .gridReleaseWindow launch quota => Sys2Proof.Machine.execGridReleaseWindow launch quota s
  | .qand o => Sys2Proof.Machine.execQand o s
  | .qor o => Sys2Proof.Machine.execQor o s
  | .qxor o => Sys2Proof.Machine.execQxor o s
  | .qnot o => Sys2Proof.Machine.execQnot o s
  | .qmov o => Sys2Proof.Machine.execQmov o s
  | .xmov o => Sys2Proof.Machine.execXmov o s
  | .xli o => Sys2Proof.Machine.execXli o s
  | .mov o => Sys2Proof.Machine.execMov o s
  | .iadd o => Sys2Proof.Machine.execIadd o s
  | .isub o => Sys2Proof.Machine.execIsub o s
  | .iaddc o => Sys2Proof.Machine.execIaddc o s
  | .isubb o => Sys2Proof.Machine.execIsubb o s
  | .imul o => Sys2Proof.Machine.execImul o s
  | .imulh o => Sys2Proof.Machine.execImulh o s
  | .imad o => Sys2Proof.Machine.execImad o s
  | .imadw o => Sys2Proof.Machine.execImadw o s
  | .imin o => Sys2Proof.Machine.execImin o s
  | .imax o => Sys2Proof.Machine.execImax o s
  | .iabs o => Sys2Proof.Machine.execIabs o s
  | .ineg o => Sys2Proof.Machine.execIneg o s
  | .icmp o => Sys2Proof.Machine.execIcmp o s
  | .sel o => Sys2Proof.Machine.execSel o s
  | .bitAnd o => Sys2Proof.Machine.execBitAnd o s
  | .bitOr o => Sys2Proof.Machine.execBitOr o s
  | .bitXor o => Sys2Proof.Machine.execBitXor o s
  | .andn o => Sys2Proof.Machine.execAndn o s
  | .orn o => Sys2Proof.Machine.execOrn o s
  | .bitNot o => Sys2Proof.Machine.execBitNot o s
  | .bmix o => Sys2Proof.Machine.execBmix o s
  | .idp4 o => Sys2Proof.Machine.execIdp4 o s
  | .shl o => Sys2Proof.Machine.execShl o s
  | .shr o => Sys2Proof.Machine.execShr o s
  | .sar o => Sys2Proof.Machine.execSar o s
  | .shf o => Sys2Proof.Machine.execShf o s
  | .rot o => Sys2Proof.Machine.execRot o s
  | .popc o => Sys2Proof.Machine.execPopc o s
  | .clz o => Sys2Proof.Machine.execClz o s
  | .ctz o => Sys2Proof.Machine.execCtz o s
  | .brev o => Sys2Proof.Machine.execBrev o s
  | .bfx o => Sys2Proof.Machine.execBfx o s
  | .bfi o => Sys2Proof.Machine.execBfi o s
  | .bperm o => Sys2Proof.Machine.execBperm o s
  | .readl o => Sys2Proof.Machine.execReadl o s
  | .rdsys o => Sys2Proof.Machine.execRdsys o s
  | .wrsys o => Sys2Proof.Machine.execWrsys o s
  | .rand o => Sys2Proof.Machine.execRand o s
  | .fadd o => Sys2Proof.Machine.execFadd o s
  | .fsub o => Sys2Proof.Machine.execFsub o s
  | .fmul o => Sys2Proof.Machine.execFmul o s
  | .ffma o => Sys2Proof.Machine.execFfma o s
  | .fmin o => Sys2Proof.Machine.execFmin o s
  | .fmax o => Sys2Proof.Machine.execFmax o s
  | .fcmp o => Sys2Proof.Machine.execFcmp o s
  | .frnd o => Sys2Proof.Machine.execFrnd o s
  | .fclass o => Sys2Proof.Machine.execFclass o s
  | .fscale o => Sys2Proof.Machine.execFscale o s
  | .pkadd o => Sys2Proof.Machine.execPkadd o s
  | .pkmul o => Sys2Proof.Machine.execPkmul o s
  | .pkfma o => Sys2Proof.Machine.execPkfma o s
  | .pkmin o => Sys2Proof.Machine.execPkmin o s
  | .pkmax o => Sys2Proof.Machine.execPkmax o s
  | .pkcmp o => Sys2Proof.Machine.execPkcmp o s
  | .frcp o => Sys2Proof.Machine.execFrcp o s
  | .frsq o => Sys2Proof.Machine.execFrsq o s
  | .fsqrt o => Sys2Proof.Machine.execFsqrt o s
  | .fex2 o => Sys2Proof.Machine.execFex2 o s
  | .flg2 o => Sys2Proof.Machine.execFlg2 o s
  | .fsin o => Sys2Proof.Machine.execFsin o s
  | .fcos o => Sys2Proof.Machine.execFcos o s
  | .cvt o => Sys2Proof.Machine.execCvt o s
  | .cvtMx o => Sys2Proof.Machine.execCvtMx o s
  | .scaleMx o => Sys2Proof.Machine.execScaleMx o s
  | .lgmul o => Sys2Proof.Machine.execLgmul o s
  | .lgadd o => Sys2Proof.Machine.execLgadd o s
  | .xlGet o => Sys2Proof.Machine.execXlGet o s
  | .xlUp o => Sys2Proof.Machine.execXlUp o s
  | .xlDn o => Sys2Proof.Machine.execXlDn o s
  | .xlBfly o => Sys2Proof.Machine.execXlBfly o s
  | .ballot o => Sys2Proof.Machine.execBallot o s
  | .voteAny o => Sys2Proof.Machine.execVoteAny o s
  | .voteAll o => Sys2Proof.Machine.execVoteAll o s
  | .voteEq o => Sys2Proof.Machine.execVoteEq o s
  | .lfold o => Sys2Proof.Machine.execLfold o s
  | .pand o => Sys2Proof.Machine.execPand o s
  | .por o => Sys2Proof.Machine.execPor o s
  | .pxor o => Sys2Proof.Machine.execPxor o s
  | .pnot o => Sys2Proof.Machine.execPnot o s
  | .pmov o => Sys2Proof.Machine.execPmov o s
  | .p2v o => Sys2Proof.Machine.execP2v o s
  | .v2p o => Sys2Proof.Machine.execV2p o s
  | .ldG o => Sys2Proof.Machine.execLdG o s
  | .stG o => Sys2Proof.Machine.execStG o s
  | .ldS o => Sys2Proof.Machine.execLdS o s
  | .stS o => Sys2Proof.Machine.execStS o s
  | .fence o => Sys2Proof.Machine.execFence o s
  | .pref o => Sys2Proof.Machine.execPref o s
  | .l1inv o => Sys2Proof.Machine.execL1inv o s
  | .l1invAll o => Sys2Proof.Machine.execL1invAll o s
  | .l1invRec o => Sys2Proof.Machine.execL1invRec o s
  | .tld o => Sys2Proof.Machine.execTld o s
  | .tst o => Sys2Proof.Machine.execTst o s
  | .recLd o => Sys2Proof.Machine.execRecLd o s
  | .recMk o => Sys2Proof.Machine.execRecMk o s
  | .spgOut o => Sys2Proof.Machine.execSpgOut o s
  | .spgIn o => Sys2Proof.Machine.execSpgIn o s
  | .atomGAdd o => Sys2Proof.Machine.execAtomGAdd o s
  | .atomGMin o => Sys2Proof.Machine.execAtomGMin o s
  | .atomGMax o => Sys2Proof.Machine.execAtomGMax o s
  | .atomGAnd o => Sys2Proof.Machine.execAtomGAnd o s
  | .atomGOr o => Sys2Proof.Machine.execAtomGOr o s
  | .atomGXor o => Sys2Proof.Machine.execAtomGXor o s
  | .atomGXchg o => Sys2Proof.Machine.execAtomGXchg o s
  | .atomGCas o => Sys2Proof.Machine.execAtomGCas o s
  | .atomGInc o => Sys2Proof.Machine.execAtomGInc o s
  | .atomGDec o => Sys2Proof.Machine.execAtomGDec o s
  | .atomGFadd o => Sys2Proof.Machine.execAtomGFadd o s
  | .atomSAdd o => Sys2Proof.Machine.execAtomSAdd o s
  | .atomSMin o => Sys2Proof.Machine.execAtomSMin o s
  | .atomSMax o => Sys2Proof.Machine.execAtomSMax o s
  | .atomSAnd o => Sys2Proof.Machine.execAtomSAnd o s
  | .atomSOr o => Sys2Proof.Machine.execAtomSOr o s
  | .atomSXor o => Sys2Proof.Machine.execAtomSXor o s
  | .atomSXchg o => Sys2Proof.Machine.execAtomSXchg o s
  | .atomSCas o => Sys2Proof.Machine.execAtomSCas o s
  | .atomSInc o => Sys2Proof.Machine.execAtomSInc o s
  | .atomSDec o => Sys2Proof.Machine.execAtomSDec o s
  | .atomSFadd o => Sys2Proof.Machine.execAtomSFadd o s
  | .issueChecksDone group => Sys2Proof.Machine.execIssueChecksDone group s
  | .loadResponse group op line => Sys2Proof.Machine.execLoadResponse group op line s
  | .storeAtHomeSlice group line => Sys2Proof.Machine.execStoreAtHomeSlice group line s
  | .mma o => Sys2Proof.Machine.execMma o s
  | .mmaSp o => Sys2Proof.Machine.execMmaSp o s
  | .matrixKstep core => Sys2Proof.Machine.execMatrixKstep core s
  | .accZero o => Sys2Proof.Machine.execAccZero o s
  | .accRd o => Sys2Proof.Machine.execAccRd o s
  | .accWr o => Sys2Proof.Machine.execAccWr o s
  | .ringCfg o => Sys2Proof.Machine.execRingCfg o s
  | .sqCfg o => Sys2Proof.Machine.execSqCfg o s
  | .ringCfgTakeEffect core => Sys2Proof.Machine.execRingCfgTakeEffect core s
  | .ringRst o => Sys2Proof.Machine.execRingRst o s
  | .ringRstTakeEffect core => Sys2Proof.Machine.execRingRstTakeEffect core s
  | .ringStat o => Sys2Proof.Machine.execRingStat o s
  | .copyKick o => Sys2Proof.Machine.execCopyKick o s
  | .copyRecordFetch core => Sys2Proof.Machine.execCopyRecordFetch core s
  | .copyOwnershipGrant core req => Sys2Proof.Machine.execCopyOwnershipGrant core req s
  | .copyLineWrite core req => Sys2Proof.Machine.execCopyLineWrite core req s
  | .uintArm o => Sys2Proof.Machine.execUintArm o s
  | .uintEntry group => Sys2Proof.Machine.execUintEntry group s
  | .sealTile o => Sys2Proof.Machine.execSealTile o s
  | .openTile o => Sys2Proof.Machine.execOpenTile o s
  | .cipherOperation core => Sys2Proof.Machine.execCipherOperation core s
  | .spawn o => Sys2Proof.Machine.execSpawn o s
  | .popInit o => Sys2Proof.Machine.execPopInit o s
  | .popJoin o => Sys2Proof.Machine.execPopJoin o s
  | .popLeave o => Sys2Proof.Machine.execPopLeave o s
  | .rsmp o => Sys2Proof.Machine.execRsmp o s
  | .rsmpEvaluate pop => Sys2Proof.Machine.execRsmpEvaluate pop s
  | .popStat o => Sys2Proof.Machine.execPopStat o s
  | .pageFaultRepair group => Sys2Proof.Machine.execPageFaultRepair group s
  | .segmentAbsentRepair group => Sys2Proof.Machine.execSegmentAbsentRepair group s
  | .repairTimeout group => Sys2Proof.Machine.execRepairTimeout group s
  | .autoBankFlip core => Sys2Proof.Machine.execAutoBankFlip core s
  | .teamMigrate team core bank => Sys2Proof.Machine.execTeamMigrate team core bank s
  | .teamSwapOut team => Sys2Proof.Machine.execTeamSwapOut team s
  | .saveFramePush part value => Sys2Proof.Machine.execSaveFramePush part value s
  | .gctlStop core quad => Sys2Proof.Machine.execGctlStop core quad s
  | .gctlResume core quad => Sys2Proof.Machine.execGctlResume core quad s
  | .gctlResumePast core quad => Sys2Proof.Machine.execGctlResumePast core quad s
  | .gctlHandleKindL core quad => Sys2Proof.Machine.execGctlHandleKindL core quad s
  | .rdataWrite core quad value => Sys2Proof.Machine.execRdataWrite core quad value s
  | .bankFlip core => Sys2Proof.Machine.execBankFlip core s
  | .bankDrain core => Sys2Proof.Machine.execBankDrain core s
  | .bankFill core => Sys2Proof.Machine.execBankFill core s
  | .segmentInvalidate part value => Sys2Proof.Machine.execSegmentInvalidate part value s
  | .segmentInvalidateAll part => Sys2Proof.Machine.execSegmentInvalidateAll part s
  | .invalidationDone part => Sys2Proof.Machine.execInvalidationDone part s
  | .segmentMigrate part seg target => Sys2Proof.Machine.execSegmentMigrate part seg target s
  | .teamRetire team => Sys2Proof.Machine.execTeamRetire team s
  | .globalDispatchBatch part => Sys2Proof.Machine.execGlobalDispatchBatch part s
  | .seedPlace launch => Sys2Proof.Machine.execSeedPlace launch s
  | .cpNop at_ dw => Sys2Proof.Machine.execCpNop at_ dw s
  | .launch at_ k => Sys2Proof.Machine.execLaunch at_ k s
  | .ib at_ addr size => Sys2Proof.Machine.execIb at_ addr size s
  | .pred at_ t skip => Sys2Proof.Machine.execPred at_ t skip s
  | .cpLoop at_ passes range => Sys2Proof.Machine.execCpLoop at_ passes range s
  | .wait at_ t => Sys2Proof.Machine.execWait at_ t s
  | .waitTestHolds at_ => Sys2Proof.Machine.execWaitTestHolds at_ s
  | .write at_ addr data => Sys2Proof.Machine.execWrite at_ addr data s
  | .signal at_ addr value vector irq => Sys2Proof.Machine.execSignal at_ addr value vector irq s
  | .copy at_ record => Sys2Proof.Machine.execCopy at_ record s
  | .popDesc at_ addr => Sys2Proof.Machine.execPopDesc at_ addr s
  | .ctxsw at_ target => Sys2Proof.Machine.execCtxsw at_ target s
  | .timestamp at_ addr hostTime => Sys2Proof.Machine.execTimestamp at_ addr hostTime s
  | .fetchFence at_ => Sys2Proof.Machine.execFetchFence at_ s
  | .slewInterval die => Sys2Proof.Machine.execSlewInterval die s
  | .levelChangeDone die => Sys2Proof.Machine.execLevelChangeDone die s
  | .moduleReset training => Sys2Proof.Machine.execModuleReset training s
  | .keyMarkerSend port => Sys2Proof.Machine.execKeyMarkerSend port s
  | .flitReceive port flit => Sys2Proof.Machine.execFlitReceive port flit s
  | .keyMarkerReceive port flit => Sys2Proof.Machine.execKeyMarkerReceive port flit s
  | .flitAcknowledge port slot counter => Sys2Proof.Machine.execFlitAcknowledge port slot counter s
  | .replayRequest port counter => Sys2Proof.Machine.execReplayRequest port counter s
  | .remoteWrite port packet => Sys2Proof.Machine.execRemoteWrite port packet s
  | .readRequest port packet => Sys2Proof.Machine.execReadRequest port packet s
  | .readData port packet => Sys2Proof.Machine.execReadData port packet s
  | .writeCompletion port packet => Sys2Proof.Machine.execWriteCompletion port packet s
  | .copySourceLineRead core req => Sys2Proof.Machine.execCopySourceLineRead core req s
  | .uncorrectableError place => Sys2Proof.Machine.execUncorrectableError place s
  | .l2EvictUncorrectable line => Sys2Proof.Machine.execL2EvictUncorrectable line s
  | .injectorControlWrite part value => Sys2Proof.Machine.execInjectorControlWrite part value s
  | .notify at_ value => Sys2Proof.Machine.execNotify at_ value s
  | .ringBaseWrite at_ value => Sys2Proof.Machine.execRingBaseWrite at_ value s
  | .ringSizeWrite at_ value => Sys2Proof.Machine.execRingSizeWrite at_ value s
  | .errorLogClear part value => Sys2Proof.Machine.execErrorLogClear part value s
  | .partitionCreate part value segBase => Sys2Proof.Machine.execPartitionCreate part value segBase s
  | .partitionDestroy part health => Sys2Proof.Machine.execPartitionDestroy part health s
  | .partitionSuspend part => Sys2Proof.Machine.execPartitionSuspend part s
  | .partitionResume part => Sys2Proof.Machine.execPartitionResume part s
  | .partitionTurnover part health => Sys2Proof.Machine.execPartitionTurnover part health s
  | .resetFirmwareContexts part => Sys2Proof.Machine.execResetFirmwareContexts part s
  | .lockInterfaceRequest part => Sys2Proof.Machine.execLockInterfaceRequest part s
  | .startInterfaceRequest part => Sys2Proof.Machine.execStartInterfaceRequest part s
  | .stopInterface part health => Sys2Proof.Machine.execStopInterface part health s
  | .registerWrite reg value => Sys2Proof.Machine.execRegisterWrite reg value s
  | .partitionCapWrite part value => Sys2Proof.Machine.execPartitionCapWrite part value s
  | .keySlotProvision part slot key => Sys2Proof.Machine.execKeySlotProvision part slot key s
  | .getMeasurements part => Sys2Proof.Machine.execGetMeasurements part s
  | .currentLimitExceeded die => Sys2Proof.Machine.execCurrentLimitExceeded die s
  | .currentBelowLimit die => Sys2Proof.Machine.execCurrentBelowLimit die s
  | .heatMapUpdate temps => Sys2Proof.Machine.execHeatMapUpdate temps s
  | .dieGate die => Sys2Proof.Machine.execDieGate die s
  | .dieUngate die => Sys2Proof.Machine.execDieUngate die s
  | .linkTrainingRequest port partner => Sys2Proof.Machine.execLinkTrainingRequest port partner s
  | .linkKeyProvision port sending slot key salt => Sys2Proof.Machine.execLinkKeyProvision port sending slot key salt s
  | .hostIngressAccess part write addr data => Sys2Proof.Machine.execHostIngressAccess part write addr data s
  | .debuggerAttach part attach => Sys2Proof.Machine.execDebuggerAttach part attach s

end Sys2Proof.Machine
end

