-- ==== Sys2Proof/Machine/Turn.lean ====
section
/-!
DEFINITION. One turn of the machine: an event, or a stream's next packet, whose fetch comes before it.
-/
namespace Sys2Proof.Machine

/-- A turn: an event is executed; a turnover ends; a stream's next packet is fetched, and executed unless the fetch already settles it. -/
def runTurn (t : Turn) (s : State) : Host.Outcome State Fault Refusal :=
  match t with
  | .event i => exec i s
  | .turnover part => devStep s (fun d => endTurnover d part)
  | .packet at_ =>
    match fetchPacket s.dev at_ with
    | .idle => .next s
    | .moved d => .next { s with dev := d }
    | .run d i => exec i { s with dev := d }

/-- The next turn, if any agent has one; a machine that nobody uses idles. -/
def nextStep (s : State) : Host.Outcome State Fault Refusal :=
  match nextTurn s with
  | some (t, s) => runTurn t s
  | none => .next s

end Sys2Proof.Machine
end

