-- ==== Sys2Proof/Machine/Step.lean ====
section
/-!
DEFINITION. The step function, and the placement of one instruction where the next step takes it.
-/
namespace Sys2Proof.Machine

/-- One step: the agenda's head, or else a step that one of the device's agents may take. -/
def step (s : State) : Host.Outcome State Fault Refusal := nextStep s

/-- The state with an instruction placed where the next step fetches it: a leaf in the decode table of a picked group, at whose
program counter a bundle indexes it, or a packet at a stream's read offset. -/
def State.withFetchWord (s : State) (nbits w : Nat) : State :=
  let (d, t) := loadWord s.dev nbits w
  { s with dev := d, opn := none, agenda := t :: s.agenda }

end Sys2Proof.Machine
end

