-- ==== Sys2Proof/Machine/Rounding.lean ====
section
/-!
DEFINITION. What it is for a code to be the correctly rounded value of a real magnitude (03 R88), said without the algorithm: the
vocabulary of the statements about floating-point values.
-/
namespace Sys2Proof.Machine

/-- The finite magnitude of a code without its sign, in units of the format's smallest non-zero magnitude; the same rule goes on above the
largest finite code (03 R84, R85; R88, step 2). -/
def magUnits (frac mag : Nat) : Nat :=
  if mag / 2 ^ frac = 0 then mag else (2 ^ frac + mag % 2 ^ frac) * 2 ^ (mag / 2 ^ frac - 1)

/-- The value of a finite code in units of the format's smallest non-zero magnitude. -/
def codeUnits (f : FloatFmt) (code : Nat) : Int :=
  if code / 2 ^ f.sign % 2 = 1 then -(magUnits f.frac (code % 2 ^ f.sign) : Int) else magUnits f.frac (code % 2 ^ f.sign)

/-- A real magnitude, known by the numbers of half units that it reaches and that it is. -/
structure Magnitude where
  reaches : Nat → Prop
  exactly : Nat → Prop

/-- x / d units. -/
def Magnitude.ratio (x d : Nat) : Magnitude := { reaches := fun h => h * d ≤ 2 * x, exactly := fun h => h * d = 2 * x }

/-- The square root of x / d, in units. -/
def Magnitude.root (x d : Nat) : Magnitude := { reaches := fun h => h * h * d ≤ 4 * x, exactly := fun h => h * h * d = 4 * x }

/-- The fourth root of 2^a / 2^b, in units. -/
def Magnitude.root4 (a b : Nat) : Magnitude := { reaches := fun h => h ^ 4 * 2 ^ b ≤ 2 ^ (a + 4), exactly := fun h => h ^ 4 * 2 ^ b = 2 ^ (a + 4) }

/-- What a rounding mode does to a magnitude of a sign (03 R88, step 3). -/
inductive Aim where
  | inward | outward | nearest
  deriving DecidableEq, Repr

def aimOf (rm : Rm) (neg : Bool) : Aim :=
  match rm with
  | .near => .nearest
  | .zero => .inward
  | .down => if neg then .outward else .inward
  | .up => if neg then .inward else .outward

/-- The magnitude rounds to a grid point above the largest finite one, and its aim takes the "away" column (03 R88, step 5). -/
def Overflows (f : FloatFmt) (a : Aim) (v : Magnitude) : Prop :=
  let top := magUnits f.frac f.maxMag
  match a with
  | .inward => False
  | .outward => v.reaches (2 * top) ∧ ¬ v.exactly (2 * top)
  | .nearest =>
    v.reaches (top + magUnits f.frac (f.maxMag + 1)) ∧ (v.exactly (top + magUnits f.frac (f.maxMag + 1)) → f.maxMag % 2 = 1)

/-- A finite magnitude's code is the one that the aim chooses: the greatest that is not above v, the least that is not below it, or the
nearest, of two equally near ones the even (03 R88, step 3). -/
def Chosen (f : FloatFmt) (a : Aim) (v : Magnitude) (mag : Nat) : Prop :=
  let u := magUnits f.frac
  match a with
  | .inward => v.reaches (2 * u mag) ∧ ∀ c, c ≤ f.maxMag → v.reaches (2 * u c) → u c ≤ u mag
  | .outward =>
    (v.reaches (2 * u mag) → v.exactly (2 * u mag)) ∧
      ∀ c, c ≤ f.maxMag → (v.reaches (2 * u c) → v.exactly (2 * u c)) → u mag ≤ u c
  | .nearest =>
    ∀ c, c ≤ f.maxMag →
      (u c < u mag → v.reaches (u c + u mag) ∧ (v.exactly (u c + u mag) → mag % 2 = 0)) ∧
      (u mag < u c → v.reaches (u c + u mag) → v.exactly (u c + u mag) ∧ mag % 2 = 0)

/-- Code r is the magnitude v with a sign, rounded once in a mode (03 R88): the overflow code, or the sign with the chosen magnitude. -/
def IsRounded (f : FloatFmt) (rm : Rm) (sat neg : Bool) (v : Magnitude) (r : Nat) : Prop :=
  (Overflows f (aimOf rm neg) v → r = f.infCode neg sat) ∧
  (¬ Overflows f (aimOf rm neg) v → ∃ mag, mag ≤ f.maxMag ∧ r = f.withSign neg mag ∧ Chosen f (aimOf rm neg) v mag)

-- the classes of codes (03 R84, R85)

def FloatFmt.mag (f : FloatFmt) (c : Nat) : Nat := c % 2 ^ f.sign
def FloatFmt.negative (f : FloatFmt) (c : Nat) : Bool := decide (c / 2 ^ f.sign % 2 = 1)
def FloatFmt.isFinite (f : FloatFmt) (c : Nat) : Bool := decide (f.mag c ≤ f.maxMag)
def FloatFmt.isInfinite (f : FloatFmt) (c : Nat) : Bool := !f.isFinite c && f.inf == some (f.mag c)
def FloatFmt.isNanCode (f : FloatFmt) (c : Nat) : Bool := !f.isFinite c && f.inf != some (f.mag c)
def FloatFmt.theNan (f : FloatFmt) : Nat := f.nan.getD 0

/-- The number of smallest non-zero magnitudes in 1. -/
def FloatFmt.one (f : FloatFmt) : Nat := 2 ^ (f.bias + f.frac - 1)

/-- Code r is x / d units rounded once; at an exact zero, the zero of a sign. -/
def FloatFmt.rounds (f : FloatFmt) (rm : Rm) (sat : Bool) (x : Int) (d : Nat) (zero : Bool) (r : Nat) : Prop :=
  if x = 0 then r = f.withSign zero 0 else IsRounded f rm sat (decide (x < 0)) (.ratio x.natAbs d) r

/-- What a sum is (03 R89, 06 R159): a NaN for a NaN or for infinities of both signs; an infinity for an infinity; else the sum rounded once,
whose exact zero is +0, or −0 when rounding down or when both zeros are −0. -/
def FloatFmt.isSum (f : FloatFmt) (rm : Rm) (a b r : Nat) : Prop :=
  if f.isNanCode a || f.isNanCode b || (f.isInfinite a && f.isInfinite b && f.negative a != f.negative b) then r = f.theNan
  else if f.isInfinite a then r = f.infCode (f.negative a) false
  else if f.isInfinite b then r = f.infCode (f.negative b) false
  else
    f.rounds rm false (codeUnits f a + codeUnits f b) 1
      (if f.mag a = 0 ∧ f.mag b = 0 ∧ f.negative a = f.negative b then f.negative a else rm == .down) r

/-- A code with the other sign. -/
def FloatFmt.negated (f : FloatFmt) (c : Nat) : Nat := f.withSign (!f.negative c) (f.mag c)

/-- What a product is: a NaN for a NaN or for zero times infinity; an infinity for an infinity; else the product rounded once. Its sign is
that of the operands' signs together. -/
def FloatFmt.isProduct (f : FloatFmt) (rm : Rm) (a b r : Nat) : Prop :=
  let neg := f.negative a != f.negative b
  if f.isNanCode a || f.isNanCode b || (f.isInfinite a && f.mag b == 0) || (f.mag a == 0 && f.isInfinite b) then r = f.theNan
  else if f.isInfinite a || f.isInfinite b then r = f.infCode neg false
  else f.rounds rm false (codeUnits f a * codeUnits f b) f.one neg r

/-- What a fused product and sum is: the exact product and c are added and rounded once (06 R159). -/
def FloatFmt.isFused (f : FloatFmt) (rm : Rm) (a b c r : Nat) : Prop :=
  let neg := f.negative a != f.negative b
  let inf := f.isInfinite a || f.isInfinite b
  if f.isNanCode a || f.isNanCode b || f.isNanCode c || (f.isInfinite a && f.mag b == 0) || (f.mag a == 0 && f.isInfinite b) ||
      (inf && f.isInfinite c && neg != f.negative c) then r = f.theNan
  else if inf then r = f.infCode neg false
  else if f.isInfinite c then r = f.infCode (f.negative c) false
  else
    f.rounds rm false (codeUnits f a * codeUnits f b + codeUnits f c * f.one) f.one
      (if (f.mag a = 0 ∨ f.mag b = 0) ∧ f.mag c = 0 ∧ neg = f.negative c then neg else rm == .down) r

/-- n is the whole number that an aim chooses for m parts of size 1/one: the greatest not above, the least not below, or the nearest, of two
equally near ones the even (03 R88, step 3, for an integer grid). -/
def wholeOf (a : Aim) (m one n : Nat) : Prop :=
  match a with
  | .inward => n * one ≤ m ∧ m < (n + 1) * one
  | .outward => m ≤ n * one ∧ n * one < m + one
  | .nearest =>
    2 * (n * one) ≤ 2 * m + one ∧ 2 * m ≤ 2 * (n * one) + one ∧
      (2 * (n * one) = 2 * m + one ∨ 2 * m = 2 * (n * one) + one → n % 2 = 0)

/-- What an integral value is (06 R162), for FP32: of the sign of a, n whole ones, n the integer that the mode chooses. -/
def isIntegral (rm : Rm) (a r : Nat) : Prop :=
  if fp32.isNanCode a then r = fp32.theNan
  else if fp32.isInfinite a then r = a
  else
    let m := magUnits fp32.frac (fp32.mag a)
    fp32.isFinite r = true ∧ fp32.negative r = fp32.negative a ∧
      ∃ n : Nat, magUnits fp32.frac (fp32.mag r) = n * fp32.one ∧ wholeOf (aimOf rm (fp32.negative a)) m fp32.one n

/-- What a scaled value is (06 R164), for FP32: a × 2^n rounded once; an infinity and a zero come back. Beyond ±1000 every n rounds as ±1000
does. -/
def isScaled (rm : Rm) (a : Nat) (n : Int) (r : Nat) : Prop :=
  let k := clampInt n (-1000) 1000
  if fp32.isNanCode a then r = fp32.theNan
  else if fp32.isInfinite a then r = a
  else if fp32.mag a = 0 then r = a
  else IsRounded fp32 rm false (fp32.negative a) (.ratio (magUnits fp32.frac (fp32.mag a) * 2 ^ k.toNat) (2 ^ (-k).toNat)) r

/-- What 1/x, √x and 1/√x are (03 R102): the special inputs, and the exact value rounded once. -/
def isReciprocal (rm : Rm) (x r : Nat) : Prop :=
  let m := magUnits fp32.frac (fp32.mag x)
  if fp32.isNanCode x then r = fp32.theNan
  else if fp32.isInfinite x then r = fp32.withSign (fp32.negative x) 0
  else if fp32.mag x = 0 then r = fp32.infCode (fp32.negative x) false
  else IsRounded fp32 rm false (fp32.negative x) (.ratio (fp32.one * fp32.one) m) r

def isRoot (rm : Rm) (x r : Nat) : Prop :=
  let m := magUnits fp32.frac (fp32.mag x)
  if fp32.isNanCode x || (fp32.negative x && fp32.mag x != 0) then r = fp32.theNan
  else if fp32.isInfinite x then r = fp32.infCode false false
  else if fp32.mag x = 0 then r = fp32.withSign (fp32.negative x) 0
  else IsRounded fp32 rm false false (.root (m * fp32.one) 1) r

def isReciprocalRoot (rm : Rm) (x r : Nat) : Prop :=
  let m := magUnits fp32.frac (fp32.mag x)
  if fp32.isNanCode x || (fp32.negative x && fp32.mag x != 0) then r = fp32.theNan
  else if fp32.isInfinite x then r = fp32.withSign false 0
  else if fp32.mag x = 0 then r = fp32.infCode (fp32.negative x) false
  else IsRounded fp32 rm false false (.root (fp32.one * fp32.one * fp32.one) m) r

/-- What a code stands for, as a conversion sees it (03 R85, R92): whether it is a NaN, an infinity or a zero, its sign, and its magnitude
times a power of two. -/
structure Meaning where
  nan : Bool
  inf : Bool
  zero : Bool
  neg : Bool
  scaled : Int → Magnitude

/-- x / 2^j times a power of two. -/
def dyadic (x j : Nat) (k : Int) : Magnitude := .ratio (x * 2 ^ (k - j).toNat) (2 ^ ((j : Int) - k).toNat)

def FloatFmt.meaning (f : FloatFmt) (c : Nat) : Meaning :=
  { nan := f.isNanCode c, inf := f.isInfinite c, zero := f.mag c == 0, neg := f.negative c
    scaled := dyadic (magUnits f.frac (f.mag c)) (f.bias + f.frac - 1) }

def intMeaning (v : Int) : Meaning :=
  { nan := false, inf := false, zero := v == 0, neg := decide (v < 0), scaled := dyadic v.natAbs 0 }

/-- An LG6 code L with its sign: 2^((L − 16)/4), or zero for L = 0. -/
def lg6Meaning (c : Nat) : Meaning :=
  { nan := false, inf := false, zero := c % 32 == 0, neg := decide (c / 32 % 2 = 1)
    scaled := fun k => .root4 (((c % 32 : Nat) : Int) - 16 + 4 * k).toNat (16 - ((c % 32 : Nat) : Int) - 4 * k).toNat }

/-- What a conversion to a floating-point format is (03 R88, R92, 06 R170): the value times 2^k, rounded once. -/
def FloatFmt.isConverted (g : FloatFmt) (rm : Rm) (sat : Bool) (v : Meaning) (k : Int) (r : Nat) : Prop :=
  if v.nan then r = g.theNan
  else if v.inf then r = g.infCode v.neg sat
  else if v.zero then r = g.withSign v.neg 0
  else IsRounded g rm sat v.neg (v.scaled ((g.bias + g.frac - 1 : Nat) + k)) r

/-- Code n of LG6 is the one that an aim chooses for a magnitude x / d other than 0 (03 R91): a code's fourth power is 2^(n − 16), and two
codes meet where the eighth power is 2^(2n − 31). -/
def lgChosen (a : Aim) (x d n : Nat) : Prop :=
  match a with
  | .inward => n ≤ 31 ∧ (1 ≤ n → 2 ^ n * d ^ 4 ≤ 2 ^ 16 * x ^ 4) ∧ (n < 31 → 2 ^ 16 * x ^ 4 < 2 ^ (n + 1) * d ^ 4)
  | .outward => 1 ≤ n ∧ n ≤ 31 ∧ (n < 31 → 2 ^ 16 * x ^ 4 ≤ 2 ^ n * d ^ 4) ∧ (1 < n → 2 ^ (n - 1) * d ^ 4 < 2 ^ 16 * x ^ 4)
  | .nearest =>
    n ≤ 31 ∧ (1 ≤ n → 2 ^ (2 * n) * d ^ 8 ≤ 2 ^ 33 * x ^ 8) ∧ (n < 31 → 2 ^ 33 * x ^ 8 < 2 ^ (2 * n + 2) * d ^ 8)

/-- Code r of LG6 is x / d rounded once; at an exact zero, the zero of a sign. -/
def lg6Rounds (rm : Rm) (x : Int) (d : Nat) (zero : Bool) (r : Nat) : Prop :=
  if x = 0 then r = (if zero then 32 else 0)
  else ∃ n, r = (if x < 0 then 32 else 0) + n ∧ lgChosen (aimOf rm (decide (x < 0))) x.natAbs d n

/-- What a conversion of a floating-point code times 2^k to LG6 is (03 R91): a NaN is 0, an infinity the greatest code. -/
def FloatFmt.isLg6 (f : FloatFmt) (rm : Rm) (k : Int) (a r : Nat) : Prop :=
  let j : Int := (f.bias + f.frac - 1 : Nat)
  if f.isNanCode a then r = 0
  else if f.isInfinite a then r = (if f.negative a then 32 else 0) + 31
  else lg6Rounds rm (codeUnits f a * 2 ^ (k - j).toNat) (2 ^ (j - k).toNat) (f.negative a) r

/-- A linear value of LGADD in units of 2^-26 (06 R174). -/
def lgUnits (c : Nat) : Int :=
  let n := c % 32
  let u : Int := if n = 0 then 0 else (lgTable (n % 4) * 2 ^ (n / 4) : Nat)
  if c / 32 % 2 = 1 then -u else u

/-- What a sum of LG6 codes is (06 R176): exact zeros are −0 when both codes are. -/
def isLgSum (rm : Rm) (a b r : Nat) : Prop :=
  lg6Rounds rm (lgUnits a + lgUnits b) (2 ^ 26) (decide (a % 64 = 32 ∧ b % 64 = 32)) r

/-- LGMUL's code (06 R175): the exponents add; an aim away from zero gives the least code where the product falls below it. -/
def lgProduct (rm : Rm) (a b : Nat) : Nat :=
  let neg := decide (a / 32 % 2 ≠ b / 32 % 2)
  let l : Int := ((a % 32 : Nat) : Int) + ((b % 32 : Nat) : Int) - 16
  (if neg then 32 else 0) +
    (if a % 32 = 0 ∨ b % 32 = 0 then 0 else if 31 < l then 31 else if 1 ≤ l then l.toNat else if aimOf rm neg = .outward then 1 else 0)

/-- What a conversion of a floating-point code to an integer of w bits is: NaN is 0; else the value rounded to an integer in the mode and
clamped to the type's range, as a bit pattern (03 R88, R92). -/
def FloatFmt.isInteger (f : FloatFmt) (rm : Rm) (signed : Bool) (w : Nat) (a r : Nat) : Prop :=
  let lo : Int := if signed then -(2 ^ (w - 1) : Nat) else 0
  let hi : Int := if signed then (2 ^ (w - 1) : Nat) - 1 else (2 ^ w : Nat) - 1
  if f.isNanCode a then r = 0
  else if f.isInfinite a then r = wrapNat (if f.negative a then lo else hi) w
  else
    ∃ n : Nat, r = wrapNat (clampInt (if f.negative a then -(n : Int) else n) lo hi) w ∧
      wholeOf (aimOf rm (f.negative a)) (magUnits f.frac (f.mag a)) f.one n

/-- The block scale of FP32 codes (06 R173): 0xFF for a NaN or an infinity among them, 0x7F for zeros alone, else the exponent of the greatest
magnitude less emax, biased and kept to 0 to 254. -/
def blockScale (emax : Int) (codes : List Nat) : Nat :=
  if codes.any (fun c => !fp32.isFinite c) then 0xFF
  else
    let u := (codes.map (fun c => magUnits fp32.frac (fp32.mag c))).foldl Nat.max 0
    if u = 0 then 0x7F else (max 0 (min 254 ((Nat.log2 u : Int) - 149 - emax + 127))).toNat

end Sys2Proof.Machine
end

