-- ==== Sys2Proof/Machine/Registers.lean ====
section
/-!
DEFINITION. What reads of the hub's registers answer (00 R6): a function's own BAR 0 (26 R463), and the registers that the physical
function reaches. Reserved and write-only fields read as zero. No instruction of the manual's table is such a read.
-/
namespace Sys2Proof.Machine

-- an error-log entry (22 R428)

/-- Bits [255:0] of an entry's header. -/
def LogEntry.header (e : LogEntry) : Nat :=
  e.addr.toNat * 2 ^ 192 + e.seq % 2 ^ 32 * 2 ^ 160 + e.cause % 2 ^ 8 * 2 ^ 152 + e.world % 2 ^ 5 * 2 ^ 147 + e.src % 2 ^ 3 * 2 ^ 144 +
    e.die % 2 ^ 4 * 2 ^ 140 + e.core.getD 0xFF % 2 ^ 8 * 2 ^ 132 + (if e.core.isSome then e.group % 2 ^ 5 else 0) * 2 ^ 127 +
    e.phys.toNat * 2 ^ 126 + e.trec.isSome.toNat * 2 ^ 125

/-- Word k of the 64 bytes of an entry: the trap record, if it holds one, then the header. -/
def LogEntry.word (e : LogEntry) (k : Nat) : DWord :=
  BitVec.ofNat 64 (if k < 4 then natBits (e.trec.getD 0).toNat (64 * k) 64 else natBits e.header (64 * (k - 4)) 64)

/-- A word of a log of 256 entries; an entry not held reads as zero. -/
def logWord (log : List LogEntry) (off : Nat) : DWord :=
  match log[off / 64]? with
  | some e => e.word (off / 8 % 8)
  | none => 0

/-- An entry whose ADDR fields are 0: that of its header and that of its trap record (20 R394). -/
def LogEntry.noAddr (e : LogEntry) : LogEntry :=
  { e with addr := 0, trec := e.trec.map (fun r => r &&& ~~~BitVec.ofNat 256 ((2 ^ 64 - 1) * 2 ^ 128)) }

/-- The physical function's copy of a partition's log: of a confidential one without the addresses (26 R466). -/
def logCopyWord (p : Part) (off : Nat) : DWord :=
  logWord (if p.conf then p.log.map LogEntry.noAddr else p.log) off

-- BAR 0 of a function (26 R463)

/-- The error-log state. -/
def logState (p : Part) : DWord := BitVec.ofNat 64 (Nat.min p.log.length 255 * 2 ^ 32 + p.lost.toNat)

/-- A 32-bit word of the MSI-X table: every vector is masked until written (log entry 22, PRESUMED). -/
def msixWord (p : Part) (i : Nat) : Nat := (p.msixWord (i / 4) (i % 4)).toNat

/-- 64 bits of the pending-bit array. -/
def pendingBits (p : Part) (i : Nat) : Nat :=
  (List.range 64).foldl (fun n k => n + (if tgetD p.pba (64 * i + k) false then 2 ^ k else 0)) 0

/-- The 8 bytes at an offset of a function's BAR 0. -/
def readBar (d : Device) (part off : Nat) : DWord :=
  let p := d.part part
  let st (s : Nat) : StreamSt := p.stream s
  if off < 0x140 then
    let s := off / 0x40
    match off % 0x40 with
    | 0x00 => BitVec.ofNat 64 (st s).base
    | 0x08 => BitVec.ofNat 64 (st s).log2
    | 0x10 => BitVec.ofNat 64 (st s).wptr
    | 0x18 => streamStatus d { part, idx := s }
    | _ => 0
  else if off = 0x800 then logState p
  else if 0x808 ≤ off ∧ off < 0x830 then
    let s := (off - 0x808) / 8
    BitVec.ofNat 64 ((st s).writes * 2 ^ 32 + (st s).value.toNat)
  else if 0x4000 ≤ off ∧ off < 0x8000 then logWord p.log (off - 0x4000)
  else if 0x8000 ≤ off ∧ off < 0x10000 then
    let i := (off - 0x8000) / 4
    BitVec.ofNat 64 (msixWord p (i + 1) * 2 ^ 32 + msixWord p i)
  else if 0x10000 ≤ off ∧ off < 0x10100 then BitVec.ofNat 64 (pendingBits p ((off - 0x10000) / 8))
  else 0

-- registers of their own

/-- The L2 split register (11 R256). -/
def readSplit (d : Device) (die : Nat) : Word := BitVec.ofNat 32 ((d.die die).rways * 2 ^ 8 + (d.die die).sways)

/-- The segment invalidate register (11 R252): SEG and ALL are write-only. -/
def readInvalidate (d : Device) (part : Nat) : DWord := BitVec.ofNat 64 ((d.part part).inval.isSome.toNat * 2)

/-- The save frame free list and the save frame push register (20 R403). -/
def readFreeList (d : Device) (part : Nat) : DWord :=
  let p := d.part part
  BitVec.ofNat 64 (p.saveCount * 2 ^ 40 + (if p.saveCount = 0 then 0 else p.saveHead))

def readFramePush (_d : Device) (_part : Nat) : DWord := 0

/-- The injector's registers (22 R430): 0 in a partition without the test flag. -/
def readInjControl (d : Device) (part : Nat) : DWord :=
  let p := d.part part
  let i := p.inj
  if p.test then
    BitVec.ofNat 64 (i.rate * 2 ^ 48 + i.count * 2 ^ 24 + i.double.toNat * 2 ^ 7 + i.en.toNat * 2 ^ 4 + i.targets.toNat)
  else 0

def readInjSeed (d : Device) (part : Nat) : DWord := if (d.part part).test then (d.part part).inj.seed else 0

/-- The partition's cap register (24 R439). -/
def readCap (d : Device) (part : Nat) : Word := BitVec.ofNat 32 (d.part part).cap

/-- The export-table register (27 R476). -/
def readExport (d : Device) (part : Nat) : DWord := BitVec.ofNat 64 (d.part part).exportBase

end Sys2Proof.Machine
end

