-- ==== Sys2Proof/Safety.lean ====
section
/-!
DEFINITION. What counts as a safe run: every step has a next state, each step ends between two bundles, and the memories outside the
cores stay in canonical form.
-/
namespace Sys2Proof.Machine

/-- No bundle is open: every step of the machine begins and ends so (01 R14, R16). -/
def State.betweenBundles (s : State) : Prop := s.opn = none

/-- The memories outside the cores are in canonical form: equal memories are equal data. -/
def State.memoryCanonical (s : State) : Prop := s.dev.mem.wf = true

/-- What every step keeps. -/
def State.sound (s : State) : Prop := s.betweenBundles ∧ s.memoryCanonical

/-- The machine takes n steps from a state without a fault or a refusal. -/
def State.runsFor (s : State) (n : Nat) : Prop := ∃ t, Sys2Proof.core.run n s = .next t

/-- A safe run of n steps: it goes on, and every state on the way is sound. -/
def State.safeFor (s : State) (n : Nat) : Prop := ∀ k, k ≤ n → ∃ t, Sys2Proof.core.run k s = .next t ∧ State.sound t

end Sys2Proof.Machine
end

