-- ==== Sys2Proof/Certificates/Slice0/Obligations.lean ====
section
/-!
DEFINITION. The statements for the provers. The first part names what they are about: a bundle that is open, what a slot operation's
result writes, and what it leaves alone.
-/
namespace Sys2Proof.Claims

open Sys2Proof Sys2Proof.Machine

/-- A bundle is open on a group that the device holds. -/
def Open (s : State) (b : OpenBundle) (g : Group) : Prop := s.opn = some b ∧ s.dev.group b.gid = some g

/-- What a slot operation of the open bundle works on. -/
def workOf (s : State) (b : OpenBundle) : Work := { dev := s.dev, b }

/-- The step leaves the bundle open as b', changes the bundle's group to g' and nothing else: no other group, no byte of memory, no other
part of the device. -/
def OnlyGroup (s t : State) (b b' : OpenBundle) (g' : Group) : Prop :=
  t.opn = some b' ∧ t.agenda = s.agenda ∧ t.tick = s.tick ∧ t.dev.group b.gid = some g' ∧
  (∀ k, k ≠ b.gid → t.dev.group k = s.dev.group k) ∧ t.dev = { s.dev with groups := t.dev.groups, fw := t.dev.fw } ∧
  ∀ a, readByte t.dev.mem.hbm a = readByte s.dev.mem.hbm a

/-- The step changes the registers of the bundle's group to c and nothing else. -/
def OnlyRegs (s t : State) (b b' : OpenBundle) (g : Group) (c : GCore) : Prop := OnlyGroup s t b b' { g with core := c }

/-- The step ends the bundle with a trap: the device goes back to the bundle's start, but for the injector, the bundle counts as issued, and
the trap is taken. -/
def Traps (i : Instr) (s : State) (b : OpenBundle) (slot : Nat) (c : Cause) : Prop :=
  exec i s = .next { s with dev := takeTrap (issueBundle (b.undo s.dev) b) b.gid (b.trap slot c), opn := none }

/-- The step ends the bundle with a wait: the group stands as at the bundle's start; a WAITB leaves its slot held. -/
def Waits (i : Instr) (s : State) (b : OpenBundle) (held : Option (Nat × Bool)) : Prop :=
  exec i s = .next { s with dev := holdBack b s.dev held, opn := none }

-- vector operations

/-- The active lanes of a vector operation (01 R17). -/
def vActive (b : OpenBundle) (o : VOp) : LaneMask := activeLanes b.regs b.lanes o.guard

/-- Whether the bundle carries the literals that a vector operation names (02 R57). -/
abbrev litsPresent (b : OpenBundle) (o : VOp) : Prop :=
  litMissing b.lits o.sa = false ∧ litMissing b.lits o.sb = false ∧ litMissing b.lits o.sc = false

/-- Operand values of a lane at a number of words. -/
def opA (b : OpenBundle) (o : VOp) (k l : Nat) : Nat := readOperand b.regs b.lits o.sa l k
def opB (b : OpenBundle) (o : VOp) (k l : Nat) : Nat := readOperand b.regs b.lits o.sb l k
def opC (b : OpenBundle) (o : VOp) (k l : Nat) : Nat := readOperand b.regs b.lits o.sc l k

/-- A destination's v registers still fit into the span's 48 (20 R393). -/
abbrev spanFits (g : Group) (dst : Dst) (k : Nat) : Prop :=
  (addSpan g.spanV ((List.range (Dst.vSpan dst k).2).map ((Dst.vSpan dst k).1 + ·))).length ≤ 48

/-- The 32-bit word i of a value. -/
def wordOf (x i : Nat) : Word := BitVec.ofNat 32 (x / 2 ^ (32 * i))

/-- The v registers after a result: the destination's words in the active lanes, and every other element as before. -/
def vReads (c0 c : GCore) (dst : Dst) (k : Nat) (act : LaneMask) (val : Nat → Nat) : Prop :=
  ∀ r l, l < 32 → c.vAt r l =
    match dst with
    | .v n => if n.toNat ≤ r ∧ r < n.toNat + k ∧ act.getLsbD l then wordOf (val l) (r - n.toNat) else c0.vAt r l
    | _ => c0.vAt r l

/-- The s registers after a result: an s destination takes the lowest active lane's words (02 R38). -/
def sReads (c0 c : GCore) (dst : Dst) (k : Nat) (act : LaneMask) (val : Nat → Nat) : Prop :=
  ∀ r, c.sAt r =
    match dst with
    | .s n => if n.toNat ≤ r ∧ r < n.toNat + k then wordOf (val ((firstLane act).getD 0)) (r - n.toNat) else c0.sAt r
    | _ => c0.sAt r

/-- The p registers after a result: PD takes the primary predicate and PC2 its complement in the active lanes; p15 reads as 1. -/
def pReads (c0 c : GCore) (pd pc2 : PredRef) (act : LaneMask) (prim : Nat → Bool) : Prop :=
  ∀ (r : BitVec 4) (l : Nat), l < 32 → (c.pAt r.toNat).getLsbD l =
    if r = 15 then true
    else if pc2 = .p r ∧ act.getLsbD l then !prim l
    else if pd = .p r ∧ act.getLsbD l then prim l
    else (c0.pAt r.toNat).getLsbD l

/-- The q registers after a result: the lowest active lane decides; q7 reads as 1. -/
def qReads (c0 c : GCore) (pd pc2 : PredRef) (act : LaneMask) (prim : Nat → Bool) : Prop :=
  ∀ r : BitVec 3, c.qAt r.toNat =
    if r = 7 then true
    else if pc2 = .q r then !prim ((firstLane act).getD 0)
    else if pd = .q r then prim ((firstLane act).getD 0)
    else c0.qAt r.toNat

/-- The instruction completes with a short-class result: DST, PD and PC2 take it, and nothing else changes but the span's list. -/
def VecResult (i : Instr) (s : State) (b : OpenBundle) (g : Group) (o : VOp) (dst : Dst) (k : Nat) (val : Nat → Nat)
    (prim : Nat → Bool) : Prop :=
  ∃ t c sp, exec i s = .next t ∧ OnlyGroup s t b b { g with core := c, spanV := sp } ∧
    c = { g.core with v := c.v, s := c.s, p := c.p, q := c.q } ∧
    vReads g.core c dst k (vActive b o) val ∧ sReads g.core c dst k (vActive b o) val ∧
    pReads g.core c o.pd o.pc2 (vActive b o) prim ∧ qReads g.core c o.pd o.pc2 (vActive b o) prim

/-- What a vector operation needs to execute with a result of k words in dst. -/
def VecReady (s : State) (b : OpenBundle) (g : Group) (o : VOp) (dst : Dst) (k : Nat) : Prop :=
  Open s b g ∧ vActive b o ≠ 0 ∧ litsPresent b o ∧ spanFits g dst k

/-- The instruction completes with "result ≠ 0" as its primary predicate (05 R136). -/
def VecValue (mk : VOp → Instr) (val : OpenBundle → VOp → Nat → Nat) : Prop :=
  ∀ s b g o, VecReady s b g o o.dst o.type.words →
    VecResult (mk o) s b g o o.dst o.type.words (val b o) (fun l => decide (val b o l ≠ 0))

/-- A vector instruction with a short-class result: its destination, the words of it, and each lane's outcome. -/
structure ShortOp where
  ctor : VOp → Instr
  dst : VOp → Dst
  words : VOp → Nat
  out : VOp → Work → LaneMask → Nat → LaneOut

/-- One whose lanes work by themselves on operands read as given. -/
def laneOp (mk : VOp → Instr) (ra rb rc : VOp → Rd) (f : VOp → OpenBundle → LaneIn → LaneOut) : ShortOp :=
  { ctor := mk, dst := fun o => o.dst, words := fun o => o.type.words, out := fun o w _ l => f o w.b (laneIn w.b o (ra o) (rb o) (rc o) l) }

def byElem (o : VOp) : Rd := .elems o.type
def byWord (o : VOp) : Rd := .words o.type.words
def one (_ : VOp) : Rd := .words 1
def off (_ : VOp) : Rd := .none

/-- The integer, logical and bit-field instructions of chapter 05. -/
def integerOps : List ShortOp :=
  [laneOp .mov byWord off off (fun o _ x => movLane o x), laneOp .iadd byElem byElem off (fun o _ x => iaddLane o x),
   laneOp .isub byElem byElem off (fun o _ x => isubLane o x), laneOp .iaddc byElem byElem off (fun o _ x => iaddcLane o x),
   laneOp .isubb byElem byElem off (fun o _ x => isubbLane o x), laneOp .imul byElem byElem off (fun o _ x => imulLane o x),
   laneOp .imulh byElem byElem off (fun o _ x => imulhLane o x), laneOp .imad byElem byElem byElem (fun o _ x => imadLane o x),
   { laneOp .imadw one one (fun _ => .words 2) (fun o _ x => imadwLane o x) with words := fun _ => 2 },
   laneOp .imin byElem byElem off (fun o _ x => iminLane o x), laneOp .imax byElem byElem off (fun o _ x => imaxLane o x),
   laneOp .iabs byElem off off (fun o _ x => iabsLane o x), laneOp .ineg byElem off off (fun o _ x => inegLane o x),
   laneOp .icmp byElem byElem off (fun o _ x => icmpLane o x), laneOp .sel byWord byWord off (fun o _ x => selLane o x),
   laneOp .bitAnd byWord byWord off (fun o _ x => andLane o x), laneOp .bitOr byWord byWord off (fun o _ x => orLane o x),
   laneOp .bitXor byWord byWord off (fun o _ x => xorLane o x), laneOp .andn byWord byWord off (fun o _ x => andnLane o x),
   laneOp .orn byWord byWord off (fun o _ x => ornLane o x), laneOp .bitNot byWord off off (fun o _ x => notLane o x),
   laneOp .bmix byWord byWord byWord (fun o _ x => bmixLane o x), laneOp .idp4 byElem byElem one (fun o _ x => idp4Lane o x),
   laneOp .shl byWord one off (fun o _ x => shlLane o x), laneOp .shr byWord one off (fun o _ x => shrLane o x),
   laneOp .sar byWord one off (fun o _ x => sarLane o x), laneOp .shf one one one (fun o _ x => shfLane o x),
   laneOp .rot byWord one off (fun o _ x => rotLane o x), laneOp .popc byWord off off (fun o _ x => popcLane o x),
   laneOp .clz byWord off off (fun o _ x => clzLane o x), laneOp .ctz byWord off off (fun o _ x => ctzLane o x),
   laneOp .brev byWord off off (fun o _ x => brevLane o x), laneOp .bfx one one off (fun o _ x => bfxLane o x),
   laneOp .bfi one one one (fun o _ x => bfiLane o x), laneOp .bperm one one one (fun o _ x => bpermLane o x)]

/-- The floating-point, packed, conversion and logarithmic instructions of chapter 06 whose results are short class. -/
def floatOps : List ShortOp :=
  [laneOp .fadd one one off (fun o _ x => faddLane o x), laneOp .fsub one one off (fun o _ x => fsubLane o x),
   laneOp .fmul one one off (fun o _ x => fmulLane o x), laneOp .ffma one one one (fun o _ x => ffmaLane o x),
   laneOp .fmin one one off (fun o _ x => fminLane o x), laneOp .fmax one one off (fun o _ x => fmaxLane o x),
   laneOp .fcmp one one off (fun o _ x => fcmpLane o x), laneOp .frnd one off off (fun o _ x => frndLane o x),
   laneOp .fclass one one off (fun o _ x => fclassLane o x), laneOp .fscale one one off (fun o _ x => fscaleLane o x),
   laneOp .pkadd byElem byElem off (fun o _ x => pkaddLane o x), laneOp .pkmul byElem byElem off (fun o _ x => pkmulLane o x),
   laneOp .pkfma byElem byElem byElem (fun o _ x => pkfmaLane o x), laneOp .pkmin byElem byElem off (fun o _ x => pkminLane o x),
   laneOp .pkmax byElem byElem off (fun o _ x => pkmaxLane o x), laneOp .pkcmp byElem byElem off (fun o _ x => pkcmpLane o x),
   laneOp .cvt cvtRead cvtMerge one (fun o b x => cvtLane false b.fmt.toNat o x),
   laneOp .lgmul (fun _ => .elems .lg6) (fun _ => .elems .lg6) off (fun o b x => lgmulLane b.fmt.toNat o x),
   laneOp .lgadd (fun _ => .elems .lg6) (fun _ => .elems .lg6) off (fun o b x => lgaddLane b.fmt.toNat o x)]

/-- The instructions whose results land by lookahead (01 R20, R22). -/
def lateOps : List ShortOp :=
  [laneOp .frcp one off off (fun o _ x => frcpLane o x), laneOp .frsq one off off (fun o _ x => frsqLane o x),
   laneOp .fsqrt one off off (fun o _ x => fsqrtLane o x), laneOp .fex2 one off off (fun o _ x => fex2Lane o x),
   laneOp .flg2 one off off (fun o _ x => flg2Lane o x), laneOp .fsin one off off (fun o _ x => fsinLane o x),
   laneOp .fcos one off off (fun o _ x => fcosLane o x),
   laneOp .cvtMx cvtRead cvtMerge one (fun o b x => cvtLane true b.fmt.toNat o x),
   { ctor := .scaleMx, dst := fun o => o.dst, words := fun _ => 1,
     out := fun o w act _ =>
       let r := scaleMxCode o.type ((lanesOf act).map (fun l => readAs w.b.regs w.b.lits o.sa l (.elems o.type)))
       { val := r, prim := r == 0xFF } },
   { ctor := .rand, dst := fun o => o.dst, words := fun o => o.type.words,
     out := fun o w _ l => { val := mix (randKey w l) (opA w.b o 2 l), prim := false } }]

/-- Every vector instruction. -/
def vectorOps : List (VOp → Instr) :=
  (integerOps ++ floatOps ++ lateOps).map (fun x => x.ctor) ++
    [.readl, .rdsys, .wrsys, .xlGet, .xlUp, .xlDn, .xlBfly, .ballot, .voteAny, .voteAll, .voteEq, .lfold, .pand, .por, .pxor, .pnot,
     .pmov, .p2v, .v2p]

/-- The slot number of a vector operation. -/
def vSlotNo (o : VOp) : Nat := if o.slot = .v0 then 1 else 2

/-- The result of a lane under a predicate named by a code of 02 R39. -/
def predBit (b : OpenBundle) (r : PredRef) (l : Nat) : Bool := b.regs.predAt r l

-- integers

/-- An element of a value as an integer, under a signedness. -/
def elemInt (signed : Bool) (w x k : Nat) : Int :=
  let e := x / 2 ^ (w * k) % 2 ^ w
  if signed ∧ 2 ^ (w - 1) ≤ e then (e : Int) - 2 ^ w else e

/-- Wrapped to w bits under a signedness. -/
def wrapInt (signed : Bool) (w : Nat) (x : Int) : Int := elemInt signed w (x % 2 ^ w).toNat 0

/-- Clamped into the range of w bits under a signedness. -/
def rangeInt (signed : Bool) (w : Nat) (x : Int) : Int :=
  if signed then max (-(2 ^ (w - 1))) (min (2 ^ (w - 1) - 1) x) else max 0 (min (2 ^ w - 1) x)

/-- What an exact integer result becomes (05 R137). -/
def finishInt (o : VOp) (w : Nat) (x : Int) : Int :=
  if o.sat then rangeInt (typeSigned o.type) w x else wrapInt (typeSigned o.type) w x

/-- The integer types (02 R40). -/
def intTypes : List VType := [.i32, .n32, .i64, .n64, .i16x2, .n16x2, .i8x4, .n8x4]

/-- Element k of an operand as an integer: a register supplies its elements, anything else its low bits to every element (05 R135). -/
def elemArg (b : OpenBundle) (t : VType) (sel : Operand) (l k : Nat) : Int :=
  let x := readOperand b.regs b.lits sel l t.words
  match sel with
  | .v _ | .s _ => elemInt (typeSigned t) (elemBits t) x k
  | _ => elemInt (typeSigned t) (elemBits t) x 0

/-- The instruction completes with an integer result: `f` gives each element's exact value from those of SA, SB and SC (05 R135, R137),
and the primary predicate is `prim` of the lane and its value. -/
def IntResult (mk : VOp → Instr) (f : OpenBundle → VOp → Nat → Int → Int → Int → Int)
    (prim : OpenBundle → VOp → Nat → Nat → Bool) : Prop :=
  ∀ s b g o, VecReady s b g o o.dst o.type.words → o.type ∈ intTypes →
    ∃ val, VecResult (mk o) s b g o o.dst o.type.words val (fun l => prim b o l (val l)) ∧
      ∀ l, (vActive b o).getLsbD l → val l < 2 ^ (32 * o.type.words) ∧
        ∀ k, k < intElems o.type →
          elemInt (typeSigned o.type) (elemBits o.type) (val l) k =
            finishInt o (elemBits o.type)
              (f b o l (elemArg b o.type o.sa l k) (elemArg b o.type o.sb l k) (elemArg b o.type o.sc l k))

/-- The carry-in of a lane. -/
def carryIn (b : OpenBundle) (o : VOp) (l : Nat) : Int := ((predBit b (immPredOf o) l).toNat : Int)

/-- "result ≠ 0" (05 R136). -/
def nonZeroPrim (_ : OpenBundle) (_ : VOp) (_ v : Nat) : Bool := decide (v ≠ 0)

/-- The carry out, and the borrow out, of whole operands (05 R137); packed types write no predicate (05 R133). -/
def carryOut (cin : OpenBundle → VOp → Nat → Int) (b : OpenBundle) (o : VOp) (l _ : Nat) : Bool :=
  decide (2 ^ typeBits o.type ≤ (readAs b.regs b.lits o.sa l (byElem o) : Int) + readAs b.regs b.lits o.sb l (byElem o) + cin b o l)
def borrowOut (cin : OpenBundle → VOp → Nat → Int) (b : OpenBundle) (o : VOp) (l _ : Nat) : Bool :=
  decide ((readAs b.regs b.lits o.sa l (byElem o) : Int) < readAs b.regs b.lits o.sb l (byElem o) + cin b o l)

/-- ICMP's conditions (05 R140). -/
def icmpHolds (c : Nat) (x y : Int) : Bool :=
  match c with
  | 0 => decide (x = y)
  | 1 => decide (x ≠ y)
  | 2 => decide (x < y)
  | 3 => decide (x ≤ y)
  | 4 => decide (x > y)
  | _ => decide (x ≥ y)

/-- The whole operand of a lane as a w-bit pattern. -/
def wideA (b : OpenBundle) (o : VOp) (l : Nat) : BitVec (32 * o.type.words) := BitVec.ofNat _ (opA b o o.type.words l)
def wideB (b : OpenBundle) (o : VOp) (l : Nat) : BitVec (32 * o.type.words) := BitVec.ofNat _ (opB b o o.type.words l)
def wideC (b : OpenBundle) (o : VOp) (l : Nat) : BitVec (32 * o.type.words) := BitVec.ofNat _ (opC b o o.type.words l)

/-- A field control's position and length (05 R146). -/
def ctlPos (x : Nat) : Nat := min (x % 256) 32
def ctlLen (x : Nat) : Nat := min (x / 256 % 256) 32

/-- The byte that a nibble of BPERM's selector picks from the eight bytes of b:a (05 R147). -/
def permByte (x y nib : Nat) : Nat :=
  let src := (x + 2 ^ 32 * y) / 2 ^ (8 * (nib % 8)) % 2 ^ 8
  if nib / 8 = 0 then src else if src / 2 ^ 7 = 1 then 0xFF else 0

-- IEEE patterns

def isNan32 (x : Nat) : Bool := decide (0x7F800000 < x % 2 ^ 31)

/-- An FP32 pattern's place in the order of values; both zeros stand at 0. -/
def order32 (x : Nat) : Int := if x / 2 ^ 31 % 2 = 1 then -((x % 2 ^ 31 : Nat) : Int) else ((x % 2 ^ 31 : Nat) : Int)


-- lane crossing

/-- A lane of the issuing slot, active or not (08 R200). -/
def sourceLane (b : OpenBundle) (l : Nat) : Bool := (b.lanes &&& b.regs.live).getLsbD l

/-- The four lane exchanges (08 R203). -/
inductive Exchange where
  | get | up | down | butterfly
  deriving DecidableEq, Repr

/-- The lane that lane i reads, if it lies in i's segment of w lanes (08 R203). -/
def exchangeFrom (f : Exchange) (wrap : Bool) (w i d : Nat) : Option Nat :=
  let base := i - i % w
  let o := i % w
  match f with
  | .get => some (base + d % w)
  | .up => if wrap then some (base + (o + w - d % w) % w) else if d ≤ o then some (i - d) else none
  | .down => if wrap then some (base + (o + d) % w) else if o + d < w then some (i + d) else none
  | .butterfly => some (i ^^^ (d % w))

/-- The lane that an exchange reads, when it is a source lane. -/
def exchangeSource (f : Exchange) (b : OpenBundle) (o : VOp) (i : Nat) : Option Nat :=
  match exchangeFrom f (o.imm8.getLsbD 3) (2 ^ (o.imm8.toNat % 8)) i (opB b o 1 i) with
  | some j => if sourceLane b j then some j else none
  | none => none

/-- The predicate of IMM8[4:0], inverted by SUB[0]. -/
def votePred (b : OpenBundle) (o : VOp) (l : Nat) : Bool := predBit b (immPredOf o) l != o.sub.getLsbD 0

/-- The second predicate of a predicate-logic function, inverted by SUB[1]. -/
def votePred2 (b : OpenBundle) (o : VOp) (l : Nat) : Bool := predBit b (predOfCode o.predBCode) l != o.sub.getLsbD 1

/-- A fold of two w-bit patterns (08 R206). -/
def foldPair (o : VOp) (x y : Nat) : Nat :=
  let w := 32 * o.type.words
  let sx := elemInt (typeSigned o.type) w x 0
  let sy := elemInt (typeSigned o.type) w y 0
  match o.sub.toNat with
  | 0 => (x + y) % 2 ^ w
  | 1 => if sx ≤ sy then x else y
  | 2 => if sx ≤ sy then y else x
  | 3 => x &&& y
  | 4 => x ||| y
  | _ => x ^^^ y

/-- A fold over lanes in ascending order. -/
def foldLanes (b : OpenBundle) (o : VOp) : List Nat → Nat
  | [] => 0
  | l :: t => t.foldl (fun x k => foldPair o x (opA b o o.type.words k)) (opA b o o.type.words l)

-- control operations

/-- Every control instruction. -/
def controlOps : List (COp → Instr) :=
  [.nop, .bra, .brd, .bri, .join, .call, .ret, .loop, .lend, .exit, .halt, .yield, .setfmt, .getfmt, .perfSet, .trap, .sysRoundTrip,
   .sysProgress, .sysPageIn, .sysGroupCount, .bkpt, .iret, .waitb, .barArrive, .barWait, .barTeam, .barGrid, .qand, .qor, .qxor, .qnot,
   .qmov, .xmov, .xli]

/-- A control operation executes: its guard is true, it is not a resumed-past trap's, and its literal is there. -/
def CtlReady (s : State) (b : OpenBundle) (g : Group) (o : COp) : Prop :=
  Open s b g ∧ Guard.holds o.guard b.regs 0 = true ∧ g.past ≠ some b.pc ∧ litMissing b.lits o.sa = false

/-- A plain cause, as a record shows it. -/
def plainCause (n : Nat) : Cause := { cause := n, code := 0, lane := none, addr := 0, write := false }

/-- SA as 32 and as 64 bits. -/
def cWord (b : OpenBundle) (o : COp) : Word := BitVec.ofNat 32 (readOperand b.regs b.lits o.sa 0 1)
def cPair (b : OpenBundle) (o : COp) : DWord := BitVec.ofNat 64 (readOperand b.regs b.lits o.sa 0 2)

/-- PC plus IMM15 halfwords, and the target of 02 R43. -/
def skipTarget (b : OpenBundle) (o : COp) : DWord := b.pc + 2#64 * o.imm.signExtend 64
def relTarget (b : OpenBundle) (o : COp) : DWord :=
  if o.sa = .zero then skipTarget b o else b.pc + 2#64 * (cWord b o).signExtend 64

/-- A valid target (04 R110). -/
abbrev goodTarget (t : DWord) : Prop := t.getLsbD 0 = false ∧ t.toNat < 2 ^ 57

/-- The bundle will end by going to a target. -/
def jumping (b : OpenBundle) (t : DWord) : OpenBundle := { b with redirect := .jump t }

/-- The s registers after a write of words from register n up. -/
def sAfter (c0 c : GCore) (n : BitVec 6) (ws : List Word) : Prop :=
  ∀ r, c.sAt r = if n.toNat ≤ r ∧ r < n.toNat + ws.length then ws.getD (r - n.toNat) 0 else c0.sAt r

/-- The step completes, writes s registers and leaves the bundle open as b'. -/
def SResult (i : Instr) (s : State) (b b' : OpenBundle) (g : Group) (n : BitVec 6) (ws : List Word) : Prop :=
  ∃ t c, exec i s = .next t ∧ OnlyRegs s t b b' g c ∧ c = { g.core with s := c.s } ∧ sAfter g.core c n ws

/-- The step completes and writes one q register. -/
def QResult (i : Instr) (s : State) (b : OpenBundle) (g : Group) (pd : PredRef) (v : Bool) : Prop :=
  ∃ t c, exec i s = .next t ∧ OnlyRegs s t b b g c ∧ c = { g.core with q := c.q } ∧
    ∀ r : BitVec 3, c.qAt r.toNat = if r = 7 then true else if pd = .q r then v else g.core.qAt r.toNat

/-- The step completes and writes one staging register. -/
def XResult (i : Instr) (s : State) (b : OpenBundle) (g : Group) (d : CDst) (v : DWord) : Prop :=
  ∃ t c, exec i s = .next t ∧ OnlyRegs s t b b g c ∧ c = { g.core with x := c.x } ∧
    ∀ r : BitVec 4, c.xAt r.toNat = if d = .x r then v else g.core.xAt r.toNat

/-- The live lanes of the issuing slot. -/
def slotLanes (b : OpenBundle) : LaneMask := b.lanes &&& b.regs.live

/-- The lanes of the issuing slot in which BRD's condition holds. -/
def takenBy (b : OpenBundle) (o : COp) : LaneMask := maskOf (fun l => (slotLanes b).getLsbD l && predBit b o.pa l)

/-- The bundle will end with a split: the lanes taken at the branch's target, the others at the next bundle. -/
def splitting (b : OpenBundle) (o : COp) : OpenBundle := { b with redirect := .split (relTarget b o) (takenBy b o) }

/-- Where the group's next stack entry lies in its team's scratchpad (07 R187). -/
def pushAddr (g : Group) (b : OpenBundle) : Nat := 0xFE0000 + 0x1000 * g.index + 16 * b.regs.stack.length

/-- A scratchpad access by a C slot has found its page: the page joins the bundle's frame demand and its entry the core's buffer; no
register, no byte of memory and nothing else changes. -/
def PageFound (s : State) (b : OpenBundle) (w : Work) : Prop :=
  w.b = { b with demand := w.b.demand } ∧ w.dev = { s.dev with cores := w.dev.cores } ∧
    ∀ k, w.dev.core k = { s.dev.core k with stb := (w.dev.core k).stb }

/-- The accesses of the group's earlier bundles are done as far as a release needs it (13 R280, R286). -/
abbrev Released (s : State) (b : OpenBundle) (wide : Bool) : Prop := (workOf s b).mayRelease wide = true

/-- A barrier instruction of a user group executes in the ordinary way: no handler, no divergence, its stores are out, its team has not
lost a group since its last barrier (04 R126 to R128). -/
def BarReady (s : State) (b : OpenBundle) (g : Group) (o : COp) (id team : Nat) (t : Team) : Prop :=
  CtlReady s b g o ∧ b.gid = .user id ∧ b.regs.handler = none ∧ (b.regs.slot (!b.slotB)).st = .idle ∧
    Released s b false ∧ g.abandon = false ∧ s.dev.teamOf b.gid = some (team, t)

/-- The expected count that a count field stands for (04 R123). -/
def barCount (s : State) (g : Group) (t : Team) (o : COp) : Nat :=
  if o.imm.toNat / 16 = 0 then
    ((unretired s.dev t).filter (fun id => match s.dev.group (.user id) with | some x => x.producer == g.producer | none => false)).length
  else o.imm.toNat / 16

/-- A named barrier's arrival is in order: the count fits the team and the phase, the group has not arrived yet, and a count of 0 does not
open a phase after the only group of the other role has filled one alone (08 R214, row 3; log entry 27). -/
def arrivalFits (s : State) (g : Group) (t : Team) (l : Launch) (o : COp) (id : Nat) : Prop :=
  o.imm.toNat / 16 ≤ l.spine.tgroups ∧ (∀ e, (t.bar (o.imm.toNat % 16)).expected = some e → e = barCount s g t o) ∧
    id ∉ (t.bar (o.imm.toNat % 16)).arrived ∧
    ¬ (o.imm.toNat / 16 = 0 ∧ (t.bar (o.imm.toNat % 16)).expected = none ∧ barCount s g t o ≠ 1 ∧
      (t.bar (o.imm.toNat % 16)).solo = some (!g.producer))

-- memory operations

/-- Every memory operation. -/
def memoryOps : List (MOp → Instr) :=
  [.ldG, .stG, .ldS, .stS, .fence, .pref, .l1inv, .l1invAll, .l1invRec, .tld, .tst, .recLd, .recMk, .spgOut, .spgIn,
   .atomGAdd, .atomGMin, .atomGMax, .atomGAnd, .atomGOr, .atomGXor, .atomGXchg, .atomGCas, .atomGInc, .atomGDec, .atomGFadd,
   .atomSAdd, .atomSMin, .atomSMax, .atomSAnd, .atomSOr, .atomSXor, .atomSXchg, .atomSCas, .atomSInc, .atomSDec, .atomSFadd]

/-- The active lanes of a memory operation. -/
def mActive (b : OpenBundle) (o : MOp) : LaneMask := activeLanes b.regs b.lanes o.guard

/-- Whether the bundle carries the literals that a memory operation names. -/
abbrev memLits (b : OpenBundle) (o : MOp) : Prop :=
  litMissing b.lits o.aa = false ∧ litMissing b.lits o.ab = false ∧ litMissing b.lits o.da = false ∧ litMissing b.lits o.db = false

/-- A memory operation executes. -/
def MemReady (s : State) (b : OpenBundle) (g : Group) (o : MOp) : Prop := Open s b g ∧ mActive b o ≠ 0 ∧ memLits b o

/-- The group's registers once its next operation is noted as one of alias class 0: a load after it comes after every earlier access (13
R276). -/
def zeroed (g : Group) : GCore := { g.core with zeroOp := g.nextOp }

/-- The group's registers once its next operation makes accesses of a class. -/
def classed (o : MOp) (g : Group) : GCore := if o.cls = 0 then zeroed g else g.core

/-- The record of a memory operation. -/
def recOf (s : State) (b : OpenBundle) (o : MOp) : Rcd := (workOf s b).rcd o

/-- The issue checks of the active lanes' elements (11 R246), in ascending lane order. -/
def globalAccs (s : State) (b : OpenBundle) (o : MOp) (n : Needs) (atomic : Bool) : Except Cause (List Acc) :=
  checkEls (workOf s b) (recOf s b o) n atomic (decide (2 ^ (recOf s b o).esize < msBytes o.size)) (laneEls (workOf s b) o (mActive b o))

/-- The lowest active lane's element of REC.LD: 16 bytes at the index of AA. -/
def recAccs (s : State) (b : OpenBundle) (o : MOp) : Except Cause (List Acc) :=
  checkEls (workOf s b) (recOf s b o) readNeeds false ((recOf s b o).esize != 4)
    [((firstLane (mActive b o)).getD 0, (readOperand b.regs b.lits o.aa ((firstLane (mActive b o)).getD 0) 1 : Int))]

/-- No TST of the group has still to write a byte that an access touches (13 R276). -/
def noOut (g : Group) (as : List Acc) (size : Nat) : Prop :=
  ∀ a ∈ as, ∀ va pa, a.at_ = some (va, pa) → g.outPending va size = false

/-- No access waits for a migrating segment. -/
def noneWaits (as : List Acc) : Prop := ∀ a ∈ as, a.waiting = false

/-- The step leaves the bundle open as b' and its group as g', and changes no other group and neither the agenda nor the clock. -/
def GroupIssued (s t : State) (b b' : OpenBundle) (g' : Group) : Prop :=
  t.opn = some b' ∧ t.agenda = s.agenda ∧ t.tick = s.tick ∧ t.dev.group b.gid = some g' ∧
  ∀ k, k ≠ b.gid → t.dev.group k = s.dev.group k

/-- The step leaves the bundle open as b and its group as g' and changes no other group. Beside that it only walks the segment tables: it
brings segments into the die's cache (11 R252) and resolves a table line that has taken errors (11 R261). Where no line has taken an
error, no byte of memory and no other part of the device changes. -/
def GlobalIssued (s t : State) (b : OpenBundle) (g' : Group) : Prop :=
  GroupIssued s t b b g' ∧
  t.dev = { s.dev with groups := t.dev.groups, fw := t.dev.fw, dies := t.dev.dies, parts := t.dev.parts, mem := t.dev.mem,
                       pfLog := t.dev.pfLog } ∧
  (s.dev.mem.planted = [] →
    t.dev = { s.dev with groups := t.dev.groups, fw := t.dev.fw, dies := t.dev.dies } ∧
    ∀ i, t.dev.die i = { s.dev.die i with segCache := (t.dev.die i).segCache })

/-- The bytes that a store of the active lanes puts into the hamper under an operation number: `size` bytes of DA from the lane's address
on, lanes and bytes ascending. -/
def globalBytes (s : State) (b : OpenBundle) (g : Group) (o : MOp) (as : List Acc) : List ByteWrite :=
  as.flatMap (fun a =>
    match a.at_ with
    | some (va, pa) => storeBytes (workOf s b) g.nextOp true a.lane va pa (laneData (workOf s b) o a.lane)
    | none => [])
def scratchWrites (s : State) (b : OpenBundle) (g : Group) (o : MOp) (as : List (Nat × Nat)) : List ByteWrite :=
  as.flatMap (fun a => storeBytes (workOf s b) g.nextOp false a.1 a.2 0 (laneData (workOf s b) o a.1))

/-- The group after its hamper has taken the bytes of its next operation: nothing else of it changes but the checks still to come, and
a tile transfer's bytes that these write over. -/
def HamperTook (o : MOp) (g g' : Group) (ws : List ByteWrite) : Prop :=
  g' = { g with nextOp := g.nextOp + 1, hamper := g.hamper ++ ws, checks := g'.checks, core := { classed o g with tiles := g'.core.tiles } }

/-- The pages of a scratchpad operation have been found: they are in the bundle's frame demand and their entries in the core's buffer;
nothing else of the device changes but groups. -/
def PagesFound (s t : State) (b : OpenBundle) (w : Work) : Prop :=
  w.b = { b with demand := w.b.demand } ∧ t.dev = { s.dev with groups := t.dev.groups, fw := t.dev.fw, cores := t.dev.cores } ∧
    ∀ k, t.dev.core k = { s.dev.core k with stb := (t.dev.core k).stb }

/-- Nothing disturbs an access of a partition from a core: no line has taken an error, the injector is off, and no store of the core is on
its way. -/
def Quiet (s : State) (core part : Nat) : Prop :=
  s.dev.mem.planted = [] ∧ (s.dev.part part).inj.en = false ∧
    ∀ x ∈ coreGids s.dev core, ∀ y, s.dev.group x = some y → y.flight = []

/-- The lines of a list of elements are sound, in no line of the core's L1, and written by no store of the group still under way. -/
def PlainLines (s : State) (g : Group) (core part e : Nat) (as : List Acc) : Prop :=
  ∀ a ∈ as, ∀ va pa, a.at_ = some (va, pa) →
    tagCause s.dev part (lineOf pa) = none ∧ tget (s.dev.core core).l1 (l1Key part va) = none ∧
      ∀ i, i < e → g.ownByte true (va + i) = none

/-- Byte j of a lane's row of a tile, in elements of e bytes, as memory holds it; an element out of bounds is 0. -/
def rowByte (s : State) (as : List Acc) (e l j : Nat) : Byte :=
  match (as.filter (fun a => a.lane == l))[j / e]? with
  | some a => match a.at_ with | some (_, pa) => readByte s.dev.mem.hbm (pa + j % e) | none => 0
  | none => 0

/-- The bytes that a TST of the next operation writes, from the bytes of its tile. -/
def tstBytes (b : OpenBundle) (g : Group) (outs : List (Nat × Nat × Nat × Nat)) (byte : Nat → Byte) : List ByteWrite :=
  outs.map (fun x => { op := g.nextOp, glob := true, addr := x.2.1, pa := x.2.2.1, val := byte x.1, bpc := b.pc, slotB := b.slotB,
                       lane := x.2.2.2, tst := true })

/-- No earlier load of the group, locally ordered before a tile's read, is still to read one of its lines (13 R276). -/
def noEarlier (g : Group) (o : MOp) (as : List Acc) : Prop :=
  ∀ a ∈ as, ∀ va pa, a.at_ = some (va, pa) → lineAwaited g o.cls.toNat va pa = false

/-- A tile of a ring is at hand: its pages are resident and mapped for it alone. -/
def TileAtHand (t : Team) (addr len : Nat) : Prop :=
  ∀ p ∈ rangePages addr len, (t.page p).state = .resident ∧ (t.page p).cow = false

/-- A group may push onto, or pop from, a ring that has no other owner. -/
abbrev mine (w : Option Owner) (id : Nat) : Prop := w = none ∨ w = some (.group id)

/-- The L1 lines of a core are as before but for the keys of which `gone` holds, which are no longer there; nothing else changes. -/
def L1Lost (s t : State) (b : OpenBundle) (core : Nat) (gone : Nat → Prop) : Prop :=
  t.opn = some b ∧ t.agenda = s.agenda ∧ t.dev = { s.dev with cores := t.dev.cores } ∧
    (∀ k, t.dev.core k = { s.dev.core k with l1 := (t.dev.core k).l1 }) ∧
    (∀ k, k ≠ core → t.dev.core k = s.dev.core k) ∧
    ∀ key, (gone key → tget (t.dev.core core).l1 key = none) ∧
      (¬ gone key → tget (t.dev.core core).l1 key = tget (s.dev.core core).l1 key)

/-- The atomics with their functions (14 R304). -/
def globalAtomics : List (AtomOp × (MOp → Instr)) :=
  [(.add, .atomGAdd), (.min, .atomGMin), (.max, .atomGMax), (.and, .atomGAnd), (.or, .atomGOr), (.xor, .atomGXor), (.xchg, .atomGXchg),
   (.cas, .atomGCas), (.inc, .atomGInc), (.dec, .atomGDec), (.fadd, .atomGFadd)]
def scratchAtomics : List (AtomOp × (MOp → Instr)) :=
  [(.add, .atomSAdd), (.min, .atomSMin), (.max, .atomSMax), (.and, .atomSAnd), (.or, .atomSOr), (.xor, .atomSXor), (.xchg, .atomSXchg),
   (.cas, .atomSCas), (.inc, .atomSInc), (.dec, .atomSDec), (.fadd, .atomSFadd)]

/-- A group as before, but for its slots that a WAITB held and that issue again. -/
def OnlyWoken (g g' : Group) : Prop :=
  g' = { g with core := { g.core with slotA := g'.core.slotA, slotB := g'.core.slotB, handler := g'.core.handler } }

/-- What an atomic leaves of a memory, lane by lane in order, with what each lane reads; a lane out of bounds reads 0 and writes nothing. -/
def atomRun (k : AtomOp) (w : Work) (o : MOp) (m : List Host.Cell) : List (Nat × Option Nat) → List Host.Cell × List (Nat × Nat)
  | [] => (m, [])
  | (l, none) :: t => let r := atomRun k w o m t; (r.1, (l, 0) :: r.2)
  | (l, some a) :: t =>
    let n := msBytes o.size
    let old := bytesNat (readBytes m a n)
    let new := atomNew k (atomSigned o.size) (8 * n) old (atomArgs w o l).1 (atomArgs w o l).2
    let r := atomRun k w o (writeBytes m a (natBytes n new)) t
    (r.1, (l, old) :: r.2)

/-- The pending result of values read at issue: each lane's, or for a uniform destination the lowest active lane's. -/
def issuedValues (b : OpenBundle) (o : MOp) (olds : List (Nat × Nat)) : Tbl (List Word) :=
  if (loadDst o).2 then
    ((olds.find? (fun x => x.1 == (firstLane (mActive b o)).getD 0)).map (fun x => (0, loadValue o.size x.2))).toList
  else olds.map (fun x => (x.1, loadValue o.size x.2))

/-- The group after an atomic that read `olds`: unless DST is null a fresh operation number and one more pending result, to land by
lookahead. Its earlier pending loads keep what they would have read, and a slot that a WAITB held may issue again; nothing else of it
changes. -/
def AtomIssued (b : OpenBundle) (g g' : Group) (o : MOp) (olds : List (Nat × Nat)) : Prop :=
  (∃ earlier, earlier.map (fun (p : Pending) => (p.op, p.dst, p.rem)) = g.core.pend.map (fun p => (p.op, p.dst, p.rem)) ∧
    (o.dst = .null → g'.nextOp = g.nextOp ∧ g'.core.pend = earlier) ∧
    (o.dst ≠ .null → g'.nextOp = g.nextOp + 1 ∧
      ∃ p, g'.core.pend = earlier ++ [p] ∧ p.op = g.nextOp ∧ p.rem = b.lookM + 1 ∧ p.dst = (loadDst o).1 ∧
        p.vals = issuedValues b o olds)) ∧
  g' = { g with nextOp := g'.nextOp, ck := { g.ck with pend := g'.ck.pend }
                core := { classed o g with pend := g'.core.pend, slotA := g'.core.slotA, slotB := g'.core.slotB, handler := g'.core.handler } }

/-- The new value of an integer atomic at a width of w bits (14 R304). -/
def atomValue (k : AtomOp) (signed : Bool) (w old a c : Nat) : Nat :=
  let x := elemInt signed w old 0
  let y := elemInt signed w a 0
  match k with
  | .add => (old + a) % 2 ^ w
  | .min => if x ≤ y then old else a
  | .max => if x ≤ y then a else old
  | .and => old &&& a
  | .or => old ||| a
  | .xor => old ^^^ a
  | .xchg => a
  | .cas => if old = c then a else old
  | .inc => if a ≤ old then 0 else old + 1
  | .dec => if old = 0 ∨ a < old then a else old - 1
  | .fadd => fp32.add .near old a

/-- A group's tile operand in the accumulator. -/
def tileAt (s : State) (b : OpenBundle) (o : MOp) (n : Needs) (tile : Nat) (as : List Acc) : Prop :=
  ∃ team t, tilePlace (workOf s b) o = .ok (team, t, .acc tile) ∧ tileAccs (workOf s b) o (mActive b o) n 128 = .ok as

-- engine operations

/-- Every engine operation: those that name an accumulator tile, and the others. -/
def tileOps : List (EOp → Instr) := [.mma, .mmaSp, .accZero, .accRd, .accWr]
def engineOps : List (EOp → Instr) :=
  [.ringCfg, .sqCfg, .ringRst, .ringStat, .copyKick, .uintArm, .sealTile, .openTile, .spawn, .popInit, .popJoin, .popLeave, .rsmp, .popStat]

/-- An engine operation of a user group executes: its guard is true and its literal is there. -/
def EngReady (s : State) (b : OpenBundle) (g : Group) (o : EOp) (id team : Nat) (t : Team) (lid : Nat) (l : Launch) : Prop :=
  Open s b g ∧ b.gid = .user id ∧ Guard.holds o.guard b.regs 0 = true ∧ litMissing b.lits o.src = false ∧
    s.dev.teamOf b.gid = some (team, t) ∧ s.dev.launchOf b.gid = some (lid, l)

/-- The core of the open bundle's group. -/
def coreNo (s : State) (b : OpenBundle) : Nat := (workOf s b).coreNo

/-- No matrix command stands in the core's port, and no tile transfer of its groups or of a group waits. -/
def Calm (s : State) (core : Nat) (g : Group) : Prop :=
  (s.dev.core core).mq = [] ∧ g.core.tiles = [] ∧ ∀ x ∈ coreGids s.dev core, ∀ y, s.dev.group x = some y → y.core.tiles = []

/-- The matrix command at the head of a core's port is the only one, and no tile transfer waits. -/
def OneCommand (s : State) (core : Nat) (m : MxCmd) : Prop :=
  (s.dev.core core).mq = [m] ∧ (∀ g, s.dev.group (.user m.group) = some g → g.core.tiles = []) ∧
    ∀ x ∈ coreGids s.dev core, ∀ y, s.dev.group x = some y → y.core.tiles = []

/-- Element (row, col) of tile n of a group. -/
def groupAcc (d : Device) (id n row col : Nat) : Option Word := (d.group (.user id)).map (fun g => g.core.accAt n row col)

/-- The checks of a scratchpad operand that must be aligned to 64 bytes and resident, in their order (17 R354, 08 R218). -/
def blockCause (t : Team) (a misaligned : Nat) : Option Nat :=
  if 2 ^ 24 ≤ a then some 0x23
  else if a % 64 ≠ 0 then some misaligned
  else if inStackRange a then some 0x24
  else match (t.page (a / pageSize)).state with
    | .unmapped => some 0x23
    | .resident => none
    | _ => some 0x28

/-- The instruction completes and leaves the bundle open. -/
def Completes (i : Instr) (s : State) (b : OpenBundle) : Prop :=
  ∃ u, exec i s = .next u ∧ u.opn = some b ∧ u.agenda = s.agenda ∧ u.tick = s.tick

/-- An instruction with a place in its core's matrix port waits while the port holds 16 commands, and completes otherwise (11 R240). -/
def NeedsPort (i : Instr) (s : State) (b : OpenBundle) : Prop :=
  (16 ≤ (s.dev.core (coreNo s b)).mq.length → Waits i s b none) ∧ ((s.dev.core (coreNo s b)).mq.length < 16 → Completes i s b)

/-- The step leaves the bundle open as b, its group as g', the group's team as t' and the core's matrix port with `mq`; no other group,
team or core and nothing else of the device changes. -/
def PortPassed (s u : State) (b : OpenBundle) (g' : Group) (team : Nat) (t' : Team) (mq : List MxCmd) : Prop :=
  GroupIssued s u b b g' ∧
  u.dev = { s.dev with groups := u.dev.groups, fw := u.dev.fw, cores := u.dev.cores, teams := u.dev.teams } ∧
  u.dev.team team = some t' ∧ (∀ k, k ≠ team → u.dev.team k = s.dev.team k) ∧
  ∀ k, u.dev.core k = if k = coreNo s b then { s.dev.core k with mq } else s.dev.core k

/-- A command of the bundle as it enters the port. -/
def portCmd (b : OpenBundle) (g : Group) (id team tile : Nat) (kind : MxKind) : MxCmd :=
  { group := id, team, kind, tile, rows := slotLanes b, fmt := b.fmt, step := 0, resA := none, resB := none, resQ := none, zero := false,
    bpc := b.pc, slotB := b.slotB, op := g.nextOp }

/-- The rings that a command pops `n` tiles from each time they are named: each without a waiting ring command, whose pops no other group
owns and which has that many positions (16 R323). -/
def RingsFree (t : Team) (id n : Nat) (ops : List Nat) : Prop :=
  ∀ k ∈ ops, (t.ring k).waiting = 0 →
    mine (t.ring k).popOwner id ∧ (t.ring k).rhead + n * ops.count k - (t.ring k).head ≤ 255

/-- The group after the port has answered its next operation at once: one pending result, to land by lookahead, whose data `vals` gives. -/
def PortAnswered (b : OpenBundle) (g g' : Group) (dst : PendDst) (uni : Bool) (vals : Pending → Tbl (List Word)) : Prop :=
  ∃ p, p.op = g.nextOp ∧ p.rem = b.lookE + 1 ∧ p.dst = dst ∧ p.uni = uni ∧
    p.lanes = (if uni then b.lanes else slotLanes b) ∧ p.arrived = true ∧ p.vals = vals p ∧
    g' = fillPending { g with nextOp := g.nextOp + 1, core := { g.core with pend := g.core.pend ++ [p] } } g.nextOp
      (fun q => { q with vals := vals q, arrived := true })

/-- A group after an accumulator command of its next operation: its elements in tile n are as `f` makes them, of those kept at its
checkpoint too, and nothing else of it changes. -/
def TileBecomes (g g' : Group) (f : Nat → Nat → Nat → Word → Word) : Prop :=
  g' = { g with nextOp := g.nextOp + 1, core := { g.core with acc := g'.core.acc }, ck := { g.ck with acc := g'.ck.acc } } ∧
  ∀ n row col, row < 32 → col < 32 →
    g'.core.accAt n row col = f n row col (g.core.accAt n row col) ∧ g'.ck.accAt n row col = f n row col (g.ck.accAt n row col)

/-- The pages of ranges of a team's scratchpad are resident in frames of their own, private, and hold no poisoned word. -/
def PagesAtHand (s : State) (t : Team) (rs : List (Nat × Nat)) : Prop :=
  t.place ≠ none ∧ t.retired = false ∧ (∀ r ∈ rs, r.1 + r.2 ≤ 2 ^ 24) ∧
  (∀ r ∈ rs, ∀ p ∈ rangePages r.1 r.2, (t.page p).state = .resident ∧ (t.page p).cow = false) ∧
  (∀ r ∈ rs, ∀ q ∈ rs, ∀ p ∈ rangePages r.1 r.2, ∀ k ∈ rangePages q.1 q.2, p ≠ k → (t.page p).frame ≠ (t.page k).frame) ∧
  ∀ r ∈ rs, ∀ i, i < r.2 → scratchPoisoned s.dev t (r.1 + i) = false

/-- The device as the population port sees it at a descriptor, and whether the descriptor can be used now (18 R369, R370). -/
def portDev (s : State) (b : OpenBundle) (va : Nat) : Device := portView s.dev (coreNo s b) (workOf s b).part va
abbrev portGood (s : State) (b : OpenBundle) (va : Nat) : Prop :=
  va < 2 ^ 57 ∧ va % 128 = 0 ∧ slotLanes b ≠ 0 ∧
    descWaits (portDev s b va) ((portDev s b va).partOf b.gid) va = false ∧
    descCause (portDev s b va) ((portDev s b va).partOf b.gid) va = none

/-- A work that stands on another device. -/
def workAt (d : Device) (b : OpenBundle) : Work := { dev := d, b }

/-- The group's next answer of one word: nothing for a null DST, else a pending result to land by lookahead, in each live lane of the slot or
uniform. -/
def LateAnswer (b : OpenBundle) (g g' : Group) (dst : Dst) (val : Nat → Nat) : Prop :=
  let answer (d : PendDst) (uni : Bool) (vals : Tbl (List Word)) : Prop :=
    g'.nextOp = g.nextOp + 1 ∧ ∃ p, g'.core.pend = g.core.pend ++ [p] ∧ p.op = g.nextOp ∧ p.rem = b.lookE + 1 ∧ p.dst = d ∧ p.uni = uni ∧
      p.arrived = true ∧ p.vals = vals
  match dst with
  | .null => g'.nextOp = g.nextOp ∧ g'.core.pend = g.core.pend
  | .v n => answer (.v n.toNat 1) false ((lanesOf (slotLanes b)).map (fun i => (i, wordsOf 1 (val i))))
  | .s n => answer (.s n.toNat 1) true [(0, wordsOf 1 (val 0))]

-- the machine's other steps

/-- The step goes on with the device as d and changes nothing else. -/
def Becomes (i : Instr) (s : State) (d : Device) : Prop := exec i s = .next { s with dev := d }

/-- A bundle that comes to `o` runs so: one that does not open leaves the device; of one that opens the slots run in slot order, on a
device to which a trap or a wait returns it, and what still stands open is closed. -/
def RunsOpened (i : Instr) (s : State) (o : Opened) (cycle : Nat) (last : State → State) : Prop :=
  (∀ d, o = .done d → exec i s = .next (last { s with dev := d })) ∧
  ∀ d b leaves, o = .run d b leaves →
    ∀ s2, runSlots leaves { s with dev := d, opn := some { b with start := d, cycle } } = .next s2 →
      exec i s = match s2.opn with
        | none => .next (last s2)
        | some b2 => .next (last { s2 with dev := closeBundle s2.dev b2, opn := none })

/-- The stream of a command packet. -/
def streamOf : Instr → Option Stream
  | .cpNop st _ | .launch st _ | .ib st _ _ | .pred st _ _ | .cpLoop st _ _ | .wait st _ | .write st _ _ | .signal st _ _ _ _ | .copy st _
  | .popDesc st _ | .ctxsw st _ | .timestamp st _ _ | .fetchFence st => some st
  | _ => none

/-- Leaves written out bit by bit from 02 R33 to R47, with the instruction each stands for. -/
def leafWords : List (SlotClass × Nat × Instr) :=
  [(.c, 0x7C0945FFFE007FFE,
      .lend { guard := { neg := false, sel := .none }, d := .s 5, pd := .none, pa := .none, pb := .none, sa := .v 0, imm := 0x7FFE }),
   (.v0, 0x7C1610040040200E03FFD800,
      .bmix { slot := .v0, guard := { neg := false, sel := .none }, type := .n32, rm := .near, dst := .v 4, sa := .v 1, sb := .v 2, sc := .v 3,
              drv1 := { en := true, bus := 0 }, drv2 := { en := false, bus := 0 }, pd := .none, pc2 := .none, imm8 := 0xD8, look := 0,
              sat := false, sub := 0 }),
   (.v0, 0x8C8410050000000203FF0200,
      .ballot { slot := .v0, guard := { neg := true, sel := .p 3 }, type := .n32, rm := .near, dst := .v 5, sa := .v 0, sb := .v 0, sc := .v 0,
                drv1 := { en := true, bus := 0 }, drv2 := { en := false, bus := 0 }, pd := .none, pc2 := .none, imm8 := 2, look := 0,
                sat := false, sub := 0 }),
   (.m, 0x7C0125000802800000003EFC,
      .ldG { guard := { neg := false, sel := .none }, size := .b32, cls := 1, scope := .core, order := .relaxed, cpol := .normal, dst := .v 4,
             aa := .v 5, ab := .v 0, da := .v 0, db := .v 0, buf := 3, drv := { en := true, bus := 6 }, ofs := 0xFC }),
   (.e, 0x7C13000402814F00,
      .rsmp { guard := { neg := false, sel := .none }, acc := 0, ka := 0, kb := 0, xb := 4, src := .v 10, dst := .v 20,
              drv := { en := true, bus := 7 }, cmd := 0 })]

/-- Command packets written out from 25 R447 and R448, for context stream 0 or the control stream of partition 1. -/
def packetWords : List (Stream × List Word × Instr) :=
  [({ part := 1, idx := 0 }, [0x06000005, 0x00001004, 0x00000002, 0x11111111, 0x22222222],
      .write { part := 1, idx := 0 } 0x0000000200001004 [0x11111111, 0x22222222]),
   ({ part := 1, idx := 0 }, [0x03000006, 0x00002000, 0x00000000, 0x0000FFFF, 0x00000007, 0x00000502],
      .pred { part := 1, idx := 0 } { addr := 0x2000, mask := 0xFFFF, value := 7, op := .below } 5),
   ({ part := 1, idx := 4 }, [0x0A000002, 0x00000003], .ctxsw { part := 1, idx := 4 } 3)]

/-- A user group that waits for leaves, with what its bundle misses. -/
def Missing (s : State) (id : Nat) (g : Group) (t : Team) (lid : Nat) (l : Launch) (core bank : Nat) (miss : List (SlotClass × Nat)) : Prop :=
  s.dev.group (.user id) = some g ∧ (∃ team, s.dev.teamOf (.user id) = some (team, t)) ∧ s.dev.launchOf (.user id) = some (lid, l) ∧
    g.park = .quire miss ∧ t.place = some (core, bank)

/-- A packet executes now: its stream may run, and the words of the packet are counted in its length. -/
abbrev PacketRuns (s : State) (st : Stream) : Prop := cpMayRun s.dev st = true

/-- The stream after a packet of n words that leaves nothing to wait for. -/
def passed (s : State) (st : Stream) (n : Nat) : StreamSt := ({ s.dev.stream st with len := 4 * n } : StreamSt).packetEnd

/-- The step makes one stream x and changes nothing else. -/
def StreamBecomes (s t : State) (st : Stream) (x : StreamSt) : Prop :=
  t.opn = s.opn ∧ t.agenda = s.agenda ∧ t.dev = { s.dev with parts := t.dev.parts } ∧ t.dev.stream st = x ∧
    (∀ y, y ≠ st → t.dev.stream y = s.dev.stream y) ∧ ∀ p, t.dev.part p = { s.dev.part p with streams := (t.dev.part p).streams }

/-- The stream has stopped at its packet with an error and a cause (25 R449). -/
def Stopped (t : State) (st : Stream) (err cause : Nat) : Prop :=
  (t.dev.stream st).stop = true ∧ (t.dev.stream st).err = err ∧ (t.dev.stream st).cause = cause

/-- No line has taken an error and the injector of a partition is off. -/
abbrev Sound (s : State) (part : Nat) : Prop := s.dev.mem.planted = [] ∧ (s.dev.part part).inj.en = false

/-- A range of virtual addresses lies in one segment that the lead die's cache holds, in local memory from pa on, and the partition may
write its lines. -/
def Writable (s : State) (part va n pa : Nat) : Prop :=
  va % segSize + n ≤ segSize ∧ (tget (s.dev.die (s.dev.part part).lead).segCache (va / segSize)).isSome = true ∧
    cpTranslate s.dev part va { read := false, write := true, exec := false } = .local_ pa ∧
    ∀ i, i < n → tagCause s.dev part (lineOf (pa + i)) = none

/-- Memory is as before but for data from address pa on. -/
def BytesStored (s t : State) (pa : Nat) (data : List Byte) : Prop :=
  (∀ a, readByte t.dev.mem.hbm a = if pa ≤ a ∧ a < pa + data.length then data.getD (a - pa) 0 else readByte s.dev.mem.hbm a) ∧
    t.dev.mem = { s.dev.mem with hbm := t.dev.mem.hbm }

/-- A packet of n words stores data at a virtual address of local or host memory and passes, and the device is then as `more` says; where
the address does not translate the stream stops with ERR 7 and the cause. -/
def PacketStores (i : Instr) (s : State) (st : Stream) (n va : Nat) (data : List Byte) (more : Device → Prop) : Prop :=
  let s1 : State := { s with dev := cpTouch s.dev st.part va data.length }
  let passes (t : State) : Prop := t.opn = s.opn ∧ t.agenda = s.agenda ∧ t.dev.stream st = passed s st n ∧
    (∀ y, y ≠ st → t.dev.stream y = s.dev.stream y) ∧ more t.dev ∧ t.dev.groups = s.dev.groups ∧ t.dev.cores = s.dev.cores
  (∀ pa, Writable s1 st.part va data.length pa → ∃ t, exec i s = .next t ∧ BytesStored s t pa data ∧ passes t) ∧
  (∀ ha, va % segSize + data.length ≤ segSize → data ≠ [] →
    cpTranslate s1.dev st.part va { read := false, write := true, exec := false } = .host ha →
    ∃ t, exec i s = .next t ∧ passes t ∧ t.dev.mem = { s.dev.mem with host := t.dev.mem.host } ∧
      ∀ a, readByte t.dev.mem.host a = if ha ≤ a ∧ a < ha + data.length then data.getD (a - ha) 0 else readByte s.dev.mem.host a) ∧
  ∀ c, data ≠ [] → cpTranslate s1.dev st.part va { read := false, write := true, exec := false } = .fault c →
    ∃ t, exec i s = .next t ∧ t.dev.mem = s.dev.mem ∧ Stopped t st 7 c

/-- A test of PRED or WAIT on the four bytes read. -/
def testTrue (t : MemTest) (b : List Byte) : Prop :=
  let x := (BitVec.ofNat 32 (bytesNat b) &&& t.mask).toNat
  match t.op with
  | .eq => x = t.value.toNat
  | .ne => x ≠ t.value.toNat
  | .below => x < t.value.toNat
  | .notBelow => t.value.toNat ≤ x

/-- The bytes of a list of words, lowest first. -/
def wordBytes (ws : List Word) : List Byte := ws.flatMap (fun w => natBytes 4 w.toNat)

/-- The module is up: the host sees its functions (24 R444). -/
abbrev Up (s : State) : Prop := 4 ≤ s.dev.bringUp

/-- The host may write a function's registers: the module is up and no turnover of its partition runs. -/
abbrev MayWrite (s : State) (part : Nat) : Prop := Up s ∧ (s.dev.part part).state ≠ 4

/-- A stream of a virtual function whose registers the host may write. -/
abbrev StreamThere (s : State) (st : Stream) : Prop :=
  1 ≤ st.part ∧ st.part ≤ 16 ∧ st.idx ≤ 4 ∧ MayWrite s st.part

/-- The registers of a partition are locked (26 R465). -/
abbrev Locked (s : State) (part : Nat) : Prop := (s.dev.part part).tdi = .locked ∨ (s.dev.part part).tdi = .run

/-- A write to a locked register: it is dropped with an Unsupported Request completion, the TDI is in error, and the partition suspended, or
about to be when its CTXSW has finished. -/
def LockedOut (i : Instr) (s : State) (part : Nat) : Prop :=
  ∃ t, exec i s = .next t ∧ (t.dev.part part).tdi = .error ∧ (t.dev.part part).state = 5 ∧
    (if switching (s.dev.part part) then (t.dev.part part).suspDue = some 5 else (t.dev.part part).susp = true) ∧
    (t.dev.part part).unsupported = (s.dev.part part).unsupported + 1 ∧ (t.dev.part part).streams = (s.dev.part part).streams ∧ (t.dev.part part).msix = (s.dev.part part).msix ∧ t.dev.mem = s.dev.mem

/-- The step makes a partition's registers p and changes no other partition and no memory. -/
def PartBecomes (i : Instr) (s : State) (part : Nat) (p : Part) : Prop :=
  ∃ t, exec i s = .next t ∧ t.opn = s.opn ∧ t.dev = { s.dev with parts := t.dev.parts } ∧ t.dev.part part = p ∧
    ∀ k, k ≠ part → t.dev.part k = s.dev.part k

/-- The log of a partition, or of the physical function, gains an entry while it has room; a full one of a partition counts it as lost. -/
def Logged (s t : State) (part : Nat) (e : LogEntry) : Prop :=
  let p := s.dev.part part
  let q := t.dev.part part
  if part = 0 then
    t.dev.pfLog = if s.dev.pfLog.length < 256 then s.dev.pfLog ++ [{ e with seq := s.dev.pfLog.length }] else s.dev.pfLog
  else if p.log.length < 256 then q.log = p.log ++ [{ e with seq := p.nextSeq }] ∧ q.nextSeq = p.nextSeq + 1
  else q.log = p.log ∧ q.lost = if p.lost = BitVec.allOnes 32 then p.lost else p.lost + 1

/-- A packet joins a port's traffic. -/
def Answered (s t : State) (port : Nat) (answer : List Byte) : Prop :=
  t.dev.port port = ({ s.dev.port port with queue := (s.dev.port port).queue ++ [padTo 224 answer] } : Port).pump
    ((s.dev.port port).queue.length + 1)

/-- A turnover has begun: no launch of the partition is left, no team of such a launch, no user group of such a team; its cores and
firmware contexts are as at reset, its streams have stopped, and no memory has changed; the rest stands (26 R469, step 1). -/
def Quiesced (s t : State) (part : Nat) (frees : Bool) (health : List Nat) : Prop :=
  let dies := (s.dev.part part).dies
  let mine (l : Nat) : Prop := ∃ x, s.dev.launch l = some x ∧ x.part = part
  let p := t.dev.part part
  t.dev.mem = s.dev.mem ∧ (∀ l ∈ t.dev.launches, l.2.part ≠ part) ∧
    (∀ k l, s.dev.launch k = some l → l.part ≠ part → (k, l) ∈ t.dev.launches) ∧
    (∀ x ∈ t.dev.teams, ¬ mine x.2.launch) ∧ (∀ k tm, s.dev.team k = some tm → ¬ mine tm.launch → (k, tm) ∈ t.dev.teams) ∧
    (∀ x ∈ t.dev.groups, ∀ k, x.2.kind = .user k → ∀ tm, s.dev.team k = some tm → ¬ mine tm.launch) ∧
    (∀ c, dies.getLsbD (dieOf c) = true → t.dev.core c = Core.reset) ∧
    (∀ c, dies.getLsbD (dieOf c) = false → t.dev.core c = s.dev.core c) ∧
    (∀ key, dies.getLsbD (dieOf (key / 4)) = true → t.dev.group (.fw key) = some (Group.firmware (key / 4) (key % 4))) ∧
    (∀ k, k ≠ part → t.dev.part k = s.dev.part k) ∧
    p.state = 4 ∧ p.turn = some (frees, health) ∧ p.susp = true ∧ p.dies = dies ∧ p.pops = [] ∧ p.gq = [] ∧
    ∀ x ∈ p.streams, x.2.stop = true ∧ x.2.wait = .none

/-- A turnover has ended: zeros in the HBM of the partition's dies, with its world's tag, in their staging ways and in the backing slots that
were filled from them; its streams, keys, log, MSI-X table, export table, save-frame list, populations and injector are as at reset, its
TDI is unlocked and the turnover is counted; other partitions and the rest of memory stand (26 R469, steps 2 and 3). -/
def Scrubbed (s t : State) (part : Nat) : Prop :=
  let dies := (s.dev.part part).dies
  let p := t.dev.part part
  let m := t.dev.mem
  (∀ a, readByte m.hbm a = if dies.getLsbD (homeDie a) = true then 0 else readByte s.dev.mem.hbm a) ∧
    (∀ line, dies.getLsbD (homeDie (64 * line)) = true → tagOf t.dev line = { Tag.reset with world := part }) ∧
    (∀ line, dies.getLsbD (homeDie (64 * line)) = false → tagOf t.dev line = tagOf s.dev line) ∧
    (∀ a, readByte m.staging a = if dies.getLsbD (a / 2 ^ 28) = true then 0 else readByte s.dev.mem.staging a) ∧
    (∀ slot k, tget s.dev.mem.slotHome slot = some k → dies.getLsbD k = true → ∀ i, i < 2048 → readByte m.slots (2048 * slot + i) = 0) ∧
    (∀ slot k, tget s.dev.mem.slotHome slot = some k → dies.getLsbD k = false →
      ∀ i, i < 2048 → readByte m.slots (2048 * slot + i) = readByte s.dev.mem.slots (2048 * slot + i)) ∧
    (∀ k, k ≠ part → t.dev.part k = s.dev.part k) ∧
    p.streams = [] ∧ p.keys = [] ∧ p.log = [] ∧ p.lost = 0 ∧ p.msix = [] ∧ p.pba = [] ∧ p.exportBase = 0 ∧ p.saveHead = 0 ∧
    p.saveCount = 0 ∧ p.offList = [] ∧ p.pops = [] ∧ p.inj = Injector.reset ∧ p.tdi = .unlocked ∧ p.debugger = false ∧
    p.meas.locked = none ∧ p.meas.turnovers = (s.dev.part part).meas.turnovers + 1 ∧ p.turn = none

-- floating-point values (06 R157 to R176)

/-- FMIN's and FMAX's code (06 R160). -/
def pick32 (greater : Bool) (x y : Nat) : Nat :=
  if isNan32 x ∧ isNan32 y then 0x7FC00000
  else if isNan32 x then y
  else if isNan32 y then x
  else if order32 x = order32 y then (if greater then x &&& y else x ||| y)
  else if (order32 x < order32 y) = greater then y else x

/-- FCMP's conditions (06 R161). -/
def holds32 (c x y : Nat) : Bool :=
  let un := isNan32 x || isNan32 y
  match c with
  | 0 => !un && decide (order32 x = order32 y)
  | 1 => un || decide (order32 x ≠ order32 y)
  | 2 => !un && decide (order32 x < order32 y)
  | 3 => !un && decide (order32 x ≤ order32 y)
  | 4 => !un && decide (order32 x > order32 y)
  | 5 => !un && decide (order32 x ≥ order32 y)
  | 6 => un
  | _ => !un

/-- Element k of an operand in a packed float format: of a register or a literal its own bits, of any other operand its low bits (06 R157). -/
def elemCode (b : OpenBundle) (w : Nat) (sel : Operand) (l k : Nat) : Nat :=
  let x := readOperand b.regs b.lits sel l 1
  match sel with
  | .v _ | .s _ | .k0 | .k1 => x / 2 ^ (w * k) % 2 ^ w
  | _ => x % 2 ^ w

/-- The rounding mode of the bundle's format register, where it is one of the four that need no random bits (01 R12). -/
def formatMode (b : OpenBundle) : Option Rm :=
  match b.fmt.toNat / 2 ^ 10 % 8 with
  | 0 => some .near
  | 1 => some .zero
  | 2 => some .down
  | 3 => some .up
  | _ => none

/-- The rounding mode of an LG6 result: the stochastic mode acts as nearest-even (03 R91). -/
def lgMode (b : OpenBundle) : Rm := (formatMode b).getD .near

/-- The types of CVT's float family, and the integer types that it converts (06 R169). -/
def floatFamily : List VType := [.f32, .bf16x2, .e4m3, .e5m2, .e2m1, .lg6]
def wholeTypes : List VType := [.i32, .n32, .i64, .n64]

/-- CVT's pairs of a source and a destination type (06 R169). -/
def converts (src dst : VType) : Bool :=
  decide (src ∈ floatFamily ∧ dst ∈ floatFamily ∧ src ≠ dst) || decide (src ∈ wholeTypes ∧ dst = .f32) || decide (src = .f32 ∧ dst ∈ wholeTypes)

/-- CVT's pairs under a block scale (06 R169). -/
def convertsScaled (src dst : VType) : Bool :=
  decide (src = .f32 ∧ dst ∈ [VType.e4m3, .e5m2, .e2m1, .lg6]) || decide (dst = .f32 ∧ src ∈ [VType.e4m3, .e5m2, .e2m1, .lg6])

/-- CVT's source code in a lane. -/
def sourceCode (b : OpenBundle) (o : VOp) (src : VType) (l : Nat) : Nat :=
  if src.elems = 1 then readOperand b.regs b.lits o.sa l src.words else elemCode b (elemBits src) o.sa l o.sub.toNat

/-- What a source code stands for (03 R85). -/
def meaningOf (src : VType) (code : Nat) : Meaning :=
  match src with
  | .lg6 => lg6Meaning code
  | .i32 | .n32 | .i64 | .n64 => intMeaning (elemInt (typeSigned src) (elemBits src) code 0)
  | _ => (typeFmt src).meaning code

/-- A result code of a conversion: rounded once from the value times 2^k, in a mode that needs no random bits (06 R170). -/
def convertedTo (b : OpenBundle) (src dst : VType) (k : Int) (code r : Nat) : Prop :=
  if dst = .lg6 then (typeFmt src).isLg6 (lgMode b) k code r
  else
    ∀ rm, formatMode b = some rm →
      if dst ∈ wholeTypes then fp32.isInteger rm (typeSigned dst) (elemBits dst) code r
      else (typeFmt dst).isConverted rm (b.fmt.getLsbD 13) (meaningOf src code) k r

/-- The result code stands for the very value converted, or both are NaN (06 R171). -/
def convertsExactly (src dst : VType) (k : Int) (code r : Nat) : Prop :=
  let v := meaningOf src code
  if dst = .lg6 then
    let m := r % 32
    v.nan = false ∧ v.inf = false ∧ (v.zero = true ∧ m = 0 ∨
      v.zero = false ∧ m ≠ 0 ∧ v.neg = decide (r / 32 % 2 = 1) ∧ m % 4 = 0 ∧ (v.scaled (4 + k)).exactly (2 * 2 ^ (m / 4)))
  else if dst ∈ wholeTypes then
    let n := elemInt (typeSigned dst) (elemBits dst) r 0
    v.nan = false ∧ v.inf = false ∧ (v.zero = true ∧ n = 0 ∨ v.zero = false ∧ n ≠ 0 ∧ v.neg = decide (n < 0) ∧ (v.scaled 0).exactly (2 * n.natAbs))
  else
    let g := typeFmt dst
    v.nan = true ∧ g.isNanCode r = true ∨
    v.nan = false ∧ v.inf = true ∧ g.isInfinite r = true ∧ v.neg = g.negative r ∨
    v.nan = false ∧ v.inf = false ∧ g.isFinite r = true ∧
      (v.zero = true ∧ g.mag r = 0 ∨
        v.zero = false ∧ v.neg = g.negative r ∧ (v.scaled ((g.bias + g.frac - 1 : Nat) + k)).exactly (2 * magUnits g.frac (g.mag r)))

/-- A packed result: one element is the new code, the others are the merge operand's; bits 31 and 30 of an LG6 result are 0 (06 R170). -/
def mergesElement (b : OpenBundle) (o : VOp) (l val code : Nat) : Prop :=
  if o.type.elems = 1 then val = code
  else
    let w := elemBits o.type
    let d := o.imm8.toNat / 16 % 8
    val < (if o.type = .lg6 then 2 ^ 30 else 2 ^ 32) ∧
      ∀ k, k < o.type.elems → val / 2 ^ (w * k) % 2 ^ w = if k = d then code else elemCode b w o.sb l k

/-- A conversion's element numbers lie below their types' counts (06 R168). -/
abbrev elementsFit (o : VOp) (src : VType) : Prop := o.sub.toNat < src.elems ∧ o.imm8.toNat / 16 % 8 < o.type.elems

/-- A late result: nothing lands now; the group takes a fresh operation number, and the operation's pending results join its list, with their
data, to land when LOOK more bundles of the path have issued (01 R20, R23). -/
def LateResult (i : Instr) (s : State) (b : OpenBundle) (g : Group) (o : VOp) (dst : Dst) (k : Nat) (val : Nat → Nat)
    (prim : Nat → Bool) : Prop :=
  let entries := lateEntries (workOf s b) g.nextOp o.look.toNat dst k o.pd o.pc2 (vActive b o) val prim
  ∃ t, exec i s = .next t ∧
    OnlyGroup s t b b { g with nextOp := g.nextOp + 1, core := { g.core with pend := g.core.pend ++ entries } } ∧
    ∀ p ∈ entries, p.op = g.nextOp ∧ p.rem = o.look.toNat + 1 ∧ p.arrived = true

/-- The table functions' algorithms on finite operands (03 R103 to R106), each rounding its exact end value once. -/
def isExp2 (x r : Nat) : Prop :=
  if fp32.isNanCode x then r = 0x7FC00000
  else if fp32.isInfinite x then r = if fp32.negative x then 0 else 0x7F800000
  else
    let c := codeUnits fp32 x
    if 128 * (fp32.one : Int) ≤ c then r = 0x7F800000
    else if c < -151 * (fp32.one : Int) then r = 0
    else
      let y := Int.fdiv (c * 2 ^ 24) fp32.one
      let f := (Int.fmod y (2 ^ 24)).toNat
      let z := f % 2 ^ 18
      let t := 59597083 * z / 2 ^ 24
      let t := (257941248 + t) * z / 2 ^ 24
      let t := (744261118 + t) * z / 2 ^ 24
      IsRounded fp32 .near false false (dyadic (tableTE.getD (f / 2 ^ 18) 0 * (2 ^ 30 + t) / 2 ^ 30) 30 (149 + Int.fdiv y (2 ^ 24))) r

/-- A finite code's significand M, 2^23 ≤ M < 2^24, and exponent k, with the magnitude M × 2^(k − 23). -/
def significand (x : Nat) : Nat × Int :=
  let u := magUnits fp32.frac (fp32.mag x)
  (u * 2 ^ 23 / 2 ^ Nat.log2 u, (Nat.log2 u : Int) - 149)

def isLog2 (x r : Nat) : Prop :=
  if fp32.isNanCode x ∨ fp32.negative x = true ∧ fp32.mag x ≠ 0 then r = 0x7FC00000
  else if fp32.mag x = 0 then r = 0xFF800000
  else if fp32.isInfinite x then r = 0x7F800000
  else
    let m := (significand x).1
    let i := m / 2 ^ 17 % 64
    let y := m % 2 ^ 17 * tableTR.getD i 0 / 2 ^ 23
    let g := 516360668 - y * 387270501 / 2 ^ 30
    let g := 774541002 - y * g / 2 ^ 30
    let g := 1549082005 - y * g / 2 ^ 30
    fp32.rounds .near false (((significand x).2 * 2 ^ 30 + tableTL.getD i 0 + (y * g / 2 ^ 30 : Nat)) * 2 ^ 119) 1 false r

def isTrig (cosine : Bool) (x r : Nat) : Prop :=
  let u := magUnits fp32.frac (fp32.mag x)
  if fp32.isFinite x = false then r = 0x7FC00000
  else if cosine = false ∧ u * 2 ^ 12 < fp32.one then r = x
  else if fp32.mag x = 0 then r = 0x3F800000
  else
    let m := (significand x).1
    let k := (significand x).2
    let fr := m * 2935890503282001226 * 2 ^ (k - 55).toNat / 2 ^ (55 - k).toNat % 2 ^ 32
    let qd := (fr / 2 ^ 30 + cosine.toNat) % 4
    let j := fr / 2 ^ 24 % 64
    let a := fr % 2 ^ 24 * 6746518852 / 2 ^ 32
    let a2 := a * a / 2 ^ 30
    let sn : Nat := a - a2 * a / 2 ^ 30 / 6
    let cs : Nat := 2 ^ 30 - a2 / 2 + a2 * a2 / 2 ^ 30 / 24
    let ts : Nat := tableTS.getD j 0
    let tc : Nat := tableTC.getD j 0
    let v : Int := if qd % 2 = 0 then ((ts * cs + tc * sn) / 2 ^ 30 : Nat) else Int.fdiv ((tc * cs : Nat) - (ts * sn : Nat)) (2 ^ 30)
    let v := if 2 ≤ qd then -v else v
    let v := if cosine = false ∧ fp32.negative x = true then -v else v
    fp32.rounds .near false (v * 2 ^ 119) 1 (!cosine && fp32.negative x) r

/-- The integer nearest to a real number, by what lies half a unit below and above it. -/
def TablesAreNearest : Prop :=
  tableTE.length = 64 ∧ tableTR.length = 64 ∧
  (∀ i t, tableTE[i]? = some t → (2 * t - 1) ^ 64 ≤ 2 ^ (i + 31 * 64) ∧ 2 ^ (i + 31 * 64) ≤ (2 * t + 1) ^ 64) ∧
  ∀ i t, tableTR[i]? = some t → (2 * t - 1) * (64 + i) ≤ 2 ^ 37 ∧ 2 ^ 37 ≤ (2 * t + 1) * (64 + i)

/-- The counter mixer (03 R94) on 64-bit words. -/
def mixerRound (x : BitVec 64) : BitVec 64 :=
  let x := (x ^^^ (x >>> 29)) * 0x6E2DB1C9F0A73D45#64
  let x := (x ^^^ (x >>> 32)) * 0x9C7F14D3A26B58E1#64
  x ^^^ (x >>> 27)

def mixer (key ctr : BitVec 64) : BitVec 64 := mixerRound (mixerRound (mixerRound (key ^^^ (ctr * 0x9C7F14D3A26B58E1#64))))

/-- A word of a narrow operand as it stands for an FP32 code: a register or a literal as it is, any other operand's low bits in every element
(06 R157; that the spread word is the FP32 code is log entry 33's, DEDUCED). -/
def spreadWord (b : OpenBundle) (t : VType) (sel : Operand) (l : Nat) : Nat :=
  match sel with
  | .v _ | .s _ | .k0 | .k1 => readOperand b.regs b.lits sel l 1
  | _ => ((List.range t.elems).map (fun k => elemCode b (elemBits t) sel l k * 2 ^ (elemBits t * k))).sum

-- landings (01 R23 to R26)

/-- The word that a landing result writes to lane l of v register r, and to s register r; none where it writes none. What a debugger has
cut does not land (01 R23, 21 R421). -/
def landsV (live : LaneMask) (p : Pending) (r l : Nat) : Option Word :=
  match p.dst with
  | .v n _ =>
    if n ≤ r ∧ (p.lanes &&& live).getLsbD l = true ∧ p.cut.contains (l, r - n) = false then (tget p.vals l).bind (fun ws => ws[r - n]?)
    else none
  | _ => none
def landsS (p : Pending) (r : Nat) : Option Word :=
  match p.dst with
  | .s n _ => if n ≤ r ∧ p.cut.contains (0, r - n) = false then (tget p.vals 0).bind (fun ws => ws[r - n]?) else none
  | _ => none

/-- A register after its landings: the result issued last of those that write it stands, and it is as before where none writes it (01 R26). -/
def LastLands (due : List Pending) (writes : Pending → Option Word) (old new : Word) : Prop :=
  ((∀ p ∈ due, writes p = none) → new = old) ∧
  ∀ p ∈ due, ∀ x, writes p = some x → (∀ q ∈ due, writes q = none ∨ q.op < p.op ∨ writes q = some x) → new = x

/-- The registers of a group that no landing, checkpoint or path's move writes are as before. -/
def SameRegisters (c c' : GCore) : Prop :=
  c' = { c with slotA := c'.slotA, slotB := c'.slotB, turnB := c'.turnB, stack := c'.stack, pend := c'.pend, fences := c'.fences
                pushes := c'.pushes, pops := c'.pops, handler := c'.handler }

/-- A slot as before, but that a WAITB may have ceased to hold it. -/
def SameSlot (x y : PcSlot) : Prop := y = { x with held := y.held } ∧ (y.held = x.held ∨ y.held = none)

-- paths (07 R189 to R192)

/-- A lane is present at j: a slot that is joining at j holds it, or a stack entry with W = 1 at j (07 R190). -/
def presentAt (c : GCore) (j : DWord) (l : Nat) : Prop :=
  (∃ b, (c.slot b).st = .joining ∧ (c.slot b).pc = j ∧ (c.slot b).lanes.getLsbD l = true) ∨
    ∃ e ∈ c.stack, e.w = true ∧ e.pc = j ∧ e.lanes.getLsbD l = true

/-- A slot's JOIN releases: the lanes present at its PC are those of its mask that live (07 R190). -/
def joinReleases (c : GCore) (b : Bool) : Prop :=
  (c.slot b).st = .joining ∧
    ∀ l, l < 32 → (presentAt c (c.slot b).pc l ↔ (c.slot b).mask.getLsbD l = true ∧ c.live.getLsbD l = true)

/-- The path of all lanes present at j, which issues next at `next` with the format register of the path that held its lowest lane (07 R191). -/
def MergedAt (c : GCore) (j next : DWord) (p : PcSlot) : Prop :=
  p.st = .issuing ∧ p.pc = next ∧ p.held = none ∧ (∀ l, l < 32 → (p.lanes.getLsbD l = true ↔ presentAt c j l)) ∧
  ∀ l, l < 32 → presentAt c j l → (∀ k, k < l → ¬ presentAt c j k) →
    let holds (b : Bool) : Prop := (c.slot b).st = .joining ∧ (c.slot b).pc = j ∧ (c.slot b).lanes.getLsbD l = true
    (holds false → p.fmt = c.slotA.fmt) ∧ (¬ holds false → holds true → p.fmt = c.slotB.fmt) ∧
      (¬ holds false → ¬ holds true → ∃ e ∈ c.stack, e.w = true ∧ e.pc = j ∧ e.lanes.getLsbD l = true ∧ p.fmt = e.fmt)

/-- The stack without its entries with W = 1 at j. -/
def stackLeft (j : DWord) (st : List StackEntry) : List StackEntry := st.filter (fun e => !(e.w && e.pc == j))

-- barrier objects (16 R330 to R332)

/-- Word i of a barrier object in a team's scratchpad: EXPECT, ARRIVED, PHASE, and FAULT with CAUSE. -/
def objWord (d : Device) (t : Team) (obj i : Nat) : Nat := bytesNat (scratchBytes d t (obj + 4 * i) 4)

/-- ARRIVED and PHASE after n more bytes (16 R331). -/
def phaseAfter (expect arrived phase n : Nat) : Nat × Nat :=
  let a := (arrived + n) % 2 ^ 32
  if expect ≠ 0 ∧ expect ≤ a then (a - expect, (phase + 1) % 2 ^ 32) else (a, phase)

/-- The device after a change of the words of a barrier object: they are as `ws`, every byte of the team's scratchpad outside it and all
memory outside the cores is as before, and of the groups only slots that a WAITB held have changed, none of them where the phase has not
turned. A slot of the team that awaits the other parity of this object's phase is held no more, one that awaits this parity still is. -/
def ObjectBecomes (d d' : Device) (team obj : Nat) (t : Team) (ws : Nat → Nat) : Prop :=
  d'.mem = d.mem ∧
  ∃ t', d'.team team = some t' ∧ t'.groups = t.groups ∧ (∀ i, i < 4 → objWord d' t' obj i = ws i) ∧
    (∀ a, (a < obj ∨ obj + 16 ≤ a) →
      (t.page (a / pageSize)).state ≠ .resident ∨ a / pageSize = obj / pageSize ∨
        (t.page (a / pageSize)).frame ≠ (t.page (obj / pageSize)).frame →
      scratchBytes d' t' a 1 = scratchBytes d t a 1) ∧
    (ws 2 = objWord d t obj 2 → ∀ k, d'.group k = d.group k) ∧
    ∀ k g, d.group k = some g → ∃ g', d'.group k = some g' ∧ OnlyWoken g g' ∧
      (g.ownByte false (obj + 8) = none → ∀ id, k = .user id → id ∈ t.groups → ∀ b parity,
        (g.core.slot b).held = some (obj, parity) → ws 2 ≠ objWord d t obj 2 →
        (g'.core.slot b).held = if decide (ws 2 % 2 = 1) = parity then some (obj, parity) else none)

/-- A range of a team's scratchpad takes bytes: every byte of it outside the range, and all memory outside the cores, is as before. -/
def ScratchTakes (d d' : Device) (team : Nat) (t t' : Team) (a : Nat) (bytes : List Byte) : Prop :=
  d'.mem = d.mem ∧ d'.team team = some t' ∧ scratchBytes d' t' a bytes.length = bytes ∧
  ∀ x, (x < a ∨ a + bytes.length ≤ x) →
    (t.page (x / pageSize)).state ≠ .resident ∨
      (∀ p ∈ rangePages a bytes.length, x / pageSize = p ∨ (t.page (x / pageSize)).frame ≠ (t.page p).frame) →
    scratchBytes d' t' x 1 = scratchBytes d t x 1

/-- Of the groups only slots that a WAITB held have changed. -/
def GroupsWoken (d d' : Device) : Prop := ∀ k g, d.group k = some g → ∃ g', d'.group k = some g' ∧ OnlyWoken g g'

-- resampling (18 R377 to R381)

/-- A vacancy's rank from a parent's lane: its tier, then its order within the tier (18 R377). -/
def vacancyRank (d : Device) (parent v : Arrival) : List Nat :=
  let team (a : Arrival) : Option (Nat × Team) := d.teamOf (.user a.group)
  let group := ((d.group (.user v.group)).map (fun g => g.index)).getD 0
  let index := ((team v).map (fun t => t.2.index.toNat)).getD 0
  let die := dieOf v.place.1
  let home := dieOf parent.place.1
  if v.group = parent.group then [1, v.lane]
  else if (team v).map (fun t => t.1) = (team parent).map (fun t => t.1) then [2, group, v.lane]
  else if v.place = parent.place then [3, index, group, v.lane]
  else if die = home then [4, v.place.1, v.place.2, index, group, v.lane]
  else
    let apart (x y : Nat) : Nat := max x y - min x y
    [5, apart (die / 4) (home / 4) + apart (die % 4) (home % 4), die, v.place.1, v.place.2, index, group, v.lane]

/-- The lane of an arrival. -/
def laneOfArrival (a : Arrival) : Nat × Nat := (a.group, a.lane)

/-- The part of a status word that every lane of a round shares (18 R379). -/
def statusBase (v : Verdict) (errdep loginc : Bool) : Nat :=
  errdep.toNat * 16 + loginc.toNat * 8 + v.ndiff.toNat * 4 + (if v.degenerate then 1 else if v.short then 2 else 0)

/-- The fields of an outcome's status word (18 R379). -/
def StatusHolds (o : LaneOutcome) (v : Verdict) (errdep loginc : Bool) (copies : Nat) (clone : Bool) : Prop :=
  o.status.toNat % 4 = (if v.degenerate then 1 else if v.short then 2 else 0) ∧ o.status.getLsbD 2 = v.ndiff ∧
    o.status.getLsbD 3 = loginc ∧ o.status.getLsbD 4 = errdep ∧ o.status.getLsbD 5 = clone ∧ o.status.toNat / 2 ^ 6 % 2 ^ 10 = 0 ∧
    o.status.toNat / 2 ^ 16 = min copies 0xFFFF

/-- A table with one entry for each key. -/
def KeysOnce {α : Type} (t : Tbl α) : Prop := (t.map (fun x => x.1)).Nodup

end Sys2Proof.Claims

open Sys2Proof Sys2Proof.Machine Sys2Proof.Claims

-- the machine

/-- What reset leaves (01 R14, 09 R230, 11 R256, 24 R439, 26 R461, R463): nothing is open, no partition is created, and the registers hold
the values that the manual gives them. That the memories outside the cores read 0 is the model's choice (log entry 5). Where it rests on
the model's choices, they are those of log entry 5. -/
def Obligations.ResetLeavesTheGivenValues : Prop :=
  State.sound State.reset ∧
    (∀ part idx, (State.reset.dev.part part).state = 0 ∧ (State.reset.dev.part part).dies = 0 ∧ (State.reset.dev.part part).cap = 15 ∧
      (State.reset.dev.part part).tdi = .unlocked ∧ ((State.reset.dev.part part).stream idx).log2 = 12 ∧
      ((State.reset.dev.part part).stream idx).base = 0 ∧ ((State.reset.dev.part part).stream idx).wptr = 0) ∧
    (∀ die, (State.reset.dev.die die).rways = 2 ∧ (State.reset.dev.die die).sways = 4) ∧
    (∀ core quad, ((State.reset.dev.core core).seq quad).burst = 1 ∧ ((State.reset.dev.core core).seq quad).interval = 64) ∧
    ∀ (team : Team) page, { team with spt := [] }.page page = SptEntry.zeroOut

/-- A bundle runs in one step (01 R14), and no step breaks the canonical form of the memories outside the cores: what holds between two
bundles holds after every step. Where it rests on the model's choices, they are those of log entries 1 and 5. -/
def Obligations.StepKeepsSoundness : Prop := ∀ s t, State.sound s → step s = .next t → State.sound t

/-- Between bundles the machine never stops: whatever its agents do next has a next state. A slot operation is no agent's step: one that
is given as a step of its own, with no bundle open, is a fault. Where it rests on the model's choices, they are those of log entries 1
and 10. -/
def Obligations.StepGoesOn : Prop :=
  (∀ s, State.betweenBundles s → (∀ i, Turn.event i ∈ s.agenda → i.slotClass = none) → ∃ t, step s = .next t) ∧
    ∀ s i rest, State.betweenBundles s → s.agenda = .event i :: rest → i.slotClass ≠ none → step s = .fault .noBundle

/-- A step runs the instruction that its turn names: an event as given, the end of a turnover that runs (26 R469), or the packet whose words stand at the stream's position, as it
decodes (25 R447). Where it rests on the model's choices, they are those of log entries 1 and 16. -/
def Obligations.StepRunsTheInstruction : Prop :=
  ∀ s turn rest, s.agenda = turn :: rest →
    (∀ i, turn = .event i → step s = exec i { s with agenda := rest }) ∧
    (∀ part, turn = .turnover part → step s = .next { s with agenda := rest, dev := endTurnover s.dev part }) ∧
    ∀ st, turn = .packet st →
      (fetchPacket s.dev st = .idle → step s = .next { s with agenda := rest }) ∧
      (∀ d, fetchPacket s.dev st = .moved d → step s = .next { s with agenda := rest, dev := d }) ∧
      ∀ d i, fetchPacket s.dev st = .run d i →
        step s = exec i { s with agenda := rest, dev := d } ∧
        ∃ h op dw b, levelWord d st.part (d.stream st) (d.stream st).top.pos = .ok h ∧
          decodePacketHeader st (BitVec.ofNat 32 h) = .ok (op, dw) ∧
          packetBytes d st.part (d.stream st) (4 * dw) (d.stream st).top.pos = (b, none) ∧ decodePacket st (bytesWords dw b) = .ok i

/-- A bundle runs to its end in one step (01 R14, R16): its leaves act in slot order, each as its instruction; what traps or waits has
ended it already. A user group's bundle runs when the group was picked and can still issue. A firmware context's runs when the context
is ready and has a credit, four cycles after its last one, in a cycle in which no bundle of its quadrant and no other firmware bundle
with one of its engine ports has issued, and when it has issued it holds them for the cycle (09 R228, R231).
-/
def Sys2Proof.Claims.BundlesRun : Prop :=
  (∀ i, i.slotClass ≠ none → ∀ s, execSlot i s = exec i s) ∧
  (∀ s who, s.opn = none → ∃ t, exec (.bundle who) s = .next t ∧ t.opn = none ∧ t.agenda = s.agenda ∧ t.tick = s.tick) ∧
  (∀ s id core, s.opn = none → s.dev.coreOf (.user id) = some core →
    let d0 := s.dev.modCore core (fun x => { x with picked := x.picked.filter (· != id) })
    ((s.dev.core core).picked.contains id = false → exec (.bundle (.group id)) s = .next s) ∧
    ((s.dev.core core).picked.contains id = true →
      (ableToIssue d0 id = false ∨ inFront d0 id = false → exec (.bundle (.group id)) s = .next { s with dev := d0 }) ∧
      (ableToIssue d0 id = true → inFront d0 id = true →
        RunsOpened (.bundle (.group id)) s (openUser d0 id) ((s.dev.core core).now - 1) (fun t => t)))) ∧
  ∀ s core quad halves, s.opn = none →
    let x := s.dev.core core
    let q := x.seq quad
    let ports := firmwarePorts halves
    let slot (t : State) : State :=
      if ((t.dev.core core).seq quad).lastIssue = some x.now then
        { t with dev := t.dev.modCore core (fun y => { y with fwPicked := quad :: y.fwPicked, fwPorts := ports ++ y.fwPorts }) }
      else t
    let mayIssue := x.fwFault = false ∧ 0 < q.credits ∧ x.fwPicked.contains quad = false ∧ quad < 4 ∧ core < 2560 ∧
      (∀ k, q.lastIssue = some k → k + 4 ≤ x.now) ∧ firmwareReady s.dev (4 * core + quad) = true ∧ ∀ p ∈ ports, p ∉ x.fwPorts
    (¬ mayIssue → exec (.bundle (.firmware core quad halves)) s = .next s) ∧
    (mayIssue → RunsOpened (.bundle (.firmware core quad halves)) s (openFirmware s.dev (4 * core + quad) halves) x.now slot)

/-- The end of a user group's bundle. In protected mode copies that differ are cause 0xC0; a checkpoint bundle waits until its span's
accesses have passed their checks (14 R300; 22 R424). Else the bundle commits: the registers are as its slots left them, its path stands
at its next bundle, it is counted for the results of its path, in a handler for those issued there alone, and it is one more bundle of the
span, or the checkpoint keeps what it left; then the boundary follows. No lane leaves here (01 R14, R16, R24, R27; 07 R184; 16 R334). -/
def Sys2Proof.Claims.BundlesClose : Prop :=
  ∀ (s : State) (b : OpenBundle) id g, b.gid = .user id → s.dev.group b.gid = some g →
    let part := s.dev.partOf b.gid
    let counted (p : Pending) : Prop :=
      p.lanes &&& b.lanes ≠ 0 ∧ ∀ h, g.core.handler = some h → h.firstOp ≤ p.op
    ((s.dev.part part).prot = true → ∀ d x, inject s.dev part 3 = (some x, d) →
      closeBundle s.dev b = takeTrap (issueBundle (b.undo d) b) b.gid (b.trap 7 (plainCause 0xC0))) ∧
    ((s.dev.part part).prot = false →
      (b.ckAfter = true ∧ g.mayCheckpoint = false → closeBundle s.dev b = holdBack b s.dev none) ∧
      ((b.ckAfter = true → g.mayCheckpoint = true) → b.hold = none → b.leaving g.core = 0 → b.redirect ≠ .iret →
        (∀ p ∈ g.core.pend, p.scr = []) →
        ∃ d g', closeBundle s.dev b = boundary d b.gid ∧ d.group b.gid = some g' ∧ SameRegisters g.core g'.core ∧
          g'.core.turnB = !b.slotB ∧
          g'.spanLen = (if b.ckAfter then 0 else g.spanLen + 1) ∧ g'.spanV = (if b.ckAfter then [] else g.spanV) ∧
          g'.ck = (if b.ckAfter then g'.core else g.ck) ∧ (b.ckAfter = true → g'.hamper = []) ∧
          (∀ p ∈ g'.core.pend, ∃ q ∈ g.core.pend, p.op = q.op ∧ p.dst = q.dst ∧ p.lanes &&& ~~~q.lanes = 0 ∧
            (counted q → p.rem = q.rem - 1) ∧ (¬ counted q → p.rem = q.rem)) ∧
          ((∀ target taken, b.redirect ≠ .split target taken) →
            g'.core.pend.length = g.core.pend.length ∧ g'.core.stack = g.core.stack ∧
            SameSlot (g.core.slot (!b.slotB)) (g'.core.slot (!b.slotB)) ∧
            SameSlot
              (let x := g.core.slot b.slotB
               match b.redirect with
               | .jump pc => { x with pc }
               | .join mask => { x with st := .joining, next := b.npc, mask }
               | _ => { x with pc := b.npc })
              (g'.core.slot b.slotB))))

/-- A boundary of a user group whose results are none of RSMP's. While one that is due has no data nothing changes. Else every due result
lands, and of those that write one register the one issued last stands; what a checkpoint of this very boundary kept follows (01 R23, R25,
R26; 07 R184). -/
def Sys2Proof.Claims.LandingsAreOrdered : Prop :=
  ∀ (s : State) id g, s.dev.group (.user id) = some g → g.asksFirmware = false → g.core.live ≠ 0 → (∀ p ∈ g.core.pend, p.isRsmp = false) →
    let due := g.core.pend.filter (fun p => p.rem == 0)
    ((∃ p ∈ due, p.arrived = false) → settle s.dev (.user id) = s.dev) ∧
    ((∀ p ∈ due, p.arrived = true) → (g.core.handler = none ∨ g.core.slotA.st ≠ .idle ∨ g.core.slotB.st ≠ .idle) →
      (∀ p ∈ due, p.uni = true → (∀ n k, p.dst ≠ .v n k) ∧
        ∀ q ∈ due, q.uni = true → q.op = p.op → q.dst = p.dst ∧ q.vals = p.vals ∧ q.cut = p.cut) →
      ∃ g', (settle s.dev (.user id)).group (.user id) = some g' ∧
        (∀ r l, l < 32 → LastLands due (fun p => landsV g.core.live p r l) (g.core.vAt r l) (g'.core.vAt r l)) ∧
        (∀ r, LastLands due (fun p => landsS p r) (g.core.sAt r) (g'.core.sAt r)) ∧
        (∀ p ∈ g'.core.pend, p.rem ≠ 0) ∧ g'.core.live = g.core.live ∧ g'.core.acc = g.core.acc ∧ g'.core.x = g.core.x ∧
        g'.ck = (if g.spanLen = 0 then g'.core else g.ck) ∧ g'.spanLen = g.spanLen ∧ g'.hamper = g.hamper)

/-- A checkpoint keeps the state: every register, pending result and path is as before and is what a rollback will return to, the span is
empty and the hamper has released its stores (01 R27, R29; 20 R391, R392). -/
def Sys2Proof.Claims.CheckpointsKeepState : Prop :=
  ∀ (s : State) gid g, s.dev.group gid = some g → (∀ p ∈ g.core.pend, p.scr = []) →
    ∃ g', (checkpoint s.dev gid).group gid = some g' ∧ g'.ck = g'.core ∧ g'.spanV = [] ∧ g'.spanLen = 0 ∧ g'.hamper = [] ∧
      SameRegisters g.core g'.core ∧ g'.core.turnB = g.core.turnB ∧ g'.core.stack = g.core.stack ∧
      g'.core.pend.map (fun p => (p.op, p.rem, p.dst, p.lanes)) = g.core.pend.map (fun p => (p.op, p.rem, p.dst, p.lanes)) ∧
      ∀ b, SameSlot (g.core.slot b) (g'.core.slot b)

/-- A bundle runs its slots, closes and commits, its results land, and checkpoints keep what they find (01 R14 to R29; 09 R228, R231; 20
R391, R392). Where it rests on the model's choices, they are those of log entries 1, 7, 25, 30 and 38. -/
def Obligations.BundlesRunTheirSlots : Prop :=
  BundlesRun ∧ BundlesClose ∧ LandingsAreOrdered ∧ CheckpointsKeepState

/-- Words written out from the manual's encodings decode to the instructions they stand for (02 R33 to R47; 25 R447, R448). -/
def Obligations.WrittenWordsDecode : Prop :=
  (∀ x ∈ leafWords, decodeLeaf x.1 x.2.1 = .ok x.2.2) ∧ ∀ x ∈ packetWords, decodePacket x.1 x.2.1 = .ok x.2.2

/-- Decoding the leaf of a well-formed slot operation gives it back, with every operand at every value that the encoding admits (02 R33 to
R51). -/
def Obligations.LeavesDecodeAsEncoded : Prop :=
  ∀ i k w, i.wf = true → i.slotClass = some k → encodeLeaf i = some w → decodeLeaf k w = .ok i

/-- Decoding the words of a well-formed command packet gives it back (25 R447 to R454). -/
def Obligations.PacketsDecodeAsEncoded : Prop :=
  ∀ i st, i.wf = true → streamOf i = some st → decodePacket st (encodePacket i) = .ok i

-- vector operations: every form completes or traps

/-- The integer, logical and bit-field instructions complete: in each active lane DST takes the instruction's value, PD its primary
predicate and PC2 the complement; every other register, lane and byte of memory is as before. -/
def Sys2Proof.Claims.IntegerOpsComplete : Prop :=
  ∀ x ∈ integerOps, ∀ s b g o, VecReady s b g o (x.dst o) (x.words o) →
    VecResult (x.ctor o) s b g o (x.dst o) (x.words o) (fun l => (x.out o (workOf s b) (vActive b o) l).val)
      (fun l => (x.out o (workOf s b) (vActive b o) l).prim)

/-- The same for the short-class instructions of chapter 06. -/
def Sys2Proof.Claims.FloatOpsComplete : Prop :=
  ∀ x ∈ floatOps, ∀ s b g o, VecReady s b g o (x.dst o) (x.words o) →
    VecResult (x.ctor o) s b g o (x.dst o) (x.words o) (fun l => (x.out o (workOf s b) (vActive b o) l).val)
      (fun l => (x.out o (workOf s b) (vActive b o) l).prim)

/-- Every vector instruction of chapters 05 and 06 whose result is short class completes, with its frame (05 R132, R136; 06 R154). -/
def Obligations.VectorOperationsComplete : Prop :=
  IntegerOpsComplete ∧ FloatOpsComplete

/-- The table functions, block conversions and RAND complete: nothing lands now; the group takes a fresh operation number and the pending
results of the operation join its list, to land when LOOK more bundles of the path have issued (01 R20, R23). -/
def Sys2Proof.Claims.LateOpsPend : Prop :=
  ∀ x ∈ lateOps, ∀ s b g o, Open s b g → vActive b o ≠ 0 → litsPresent b o →
    LateResult (x.ctor o) s b g o (x.dst o) (x.words o) (fun l => (x.out o (workOf s b) (vActive b o) l).val)
      (fun l => (x.out o (workOf s b) (vActive b o) l).prim)

/-- FRCP, FRSQ and FSQRT give the exact reciprocal, reciprocal root and root, rounded once (03 R102); FEX2, FLG2, FSIN and FCOS follow
their reference algorithms (03 R104, R105, R106); the primary predicate is "result not ±0" (06 R165). -/
def Sys2Proof.Claims.TableFunctionValues : Prop :=
  TablesAreNearest ∧
  ∀ s b g o, Open s b g → vActive b o ≠ 0 → litsPresent b o → o.type = .f32 →
    ∀ f ∈ [(Instr.frcp, isReciprocal o.rm), (.frsq, isReciprocalRoot o.rm), (.fsqrt, isRoot o.rm), (.fex2, isExp2), (.flg2, isLog2),
        (.fsin, isTrig false), (.fcos, isTrig true)],
      ∃ val, LateResult (f.1 o) s b g o o.dst 1 val (fun l => decide (val l % 2 ^ 31 ≠ 0)) ∧
        ∀ l, (vActive b o).getLsbD l → f.2 (opA b o 1 l) (val l)

/-- CVT under a block scale 2^(e − 127), e in SC's low byte: a narrow source is multiplied by it, an FP32 source divided; e = 0xFF makes the
source a NaN (06 R170, R171). -/
def Sys2Proof.Claims.ScaledConversionValues : Prop :=
  ∀ s b g o src, Open s b g → vActive b o ≠ 0 → litsPresent b o → o.cvtSrc = some src → convertsScaled src o.type = true →
    elementsFit o src →
    ∃ (val : Nat → Nat) (prim : Nat → Bool) (code : Nat → Nat), LateResult (.cvtMx o) s b g o o.dst 1 val prim ∧
      ∀ l, (vActive b o).getLsbD l → mergesElement b o l (val l) (code l) ∧
        let e : Nat := opC b o 1 l % 2 ^ 8
        let k : Int := if src = .f32 then 127 - (e : Int) else (e : Int) - 127
        if e = 0xFF then
          (o.type = .lg6 → code l = 0) ∧ (o.type ≠ .lg6 → code l = (typeFmt o.type).theNan) ∧
            prim l = !(decide (o.type ≠ .lg6) && (typeFmt o.type).isNanCode (code l))
        else
          convertedTo b src o.type k (sourceCode b o src l) (code l) ∧
            (prim l = false ↔ convertsExactly src o.type k (sourceCode b o src l) (code l))

/-- SCALE.MX gives every active lane the scale of the active lanes' block, and the primary predicate whether it is 0xFF (06 R173). -/
def Sys2Proof.Claims.BlockScaleValue : Prop :=
  ∀ s b g o, Open s b g → vActive b o ≠ 0 → litsPresent b o →
    ∀ emax : Int, o.type = .e4m3 ∧ emax = 8 ∨ o.type = .e5m2 ∧ emax = 15 ∨ o.type = .e2m1 ∧ emax = 2 ∨ o.type = .lg6 ∧ emax = 3 →
      let r := blockScale emax ((lanesOf (vActive b o)).map (spreadWord b o.type o.sa))
      LateResult (.scaleMx o) s b g o o.dst 1 (fun _ => r) (fun _ => decide (r = 0xFF))

/-- RAND mixes the counter in SA with the lane's member identifier, or with its grid position and bit 63 (05 R153; 03 R94). -/
def Sys2Proof.Claims.RandomValues : Prop :=
  ∀ s b g o id team lid, Open s b g → vActive b o ≠ 0 → litsPresent b o → b.gid = .user id → s.dev.teamOf b.gid = some team →
    s.dev.launchOf b.gid = some lid → o.type = .n32 ∨ o.type = .n64 →
      LateResult (.rand o) s b g o o.dst o.type.words
        (fun l =>
          let place := (team.2.index.toNat * lid.2.spine.tgroups + g.index) * 32 + l
          let key := match b.regs.popAt l with | .member _ id _ _ => id | _ => 2 ^ 63 ||| place
          (mixer (BitVec.ofNat 64 key) (BitVec.ofNat 64 (opA b o 2 l))).toNat)
        (fun _ => false)

/-- The instructions whose results land by lookahead complete (01 R20, R23), with the values of the table functions, the block conversions,
the block scale and RAND. Where it rests on the model's choices, they are those of log entries 2, 6 and 33. -/
def Obligations.LateOpsComplete : Prop :=
  LateOpsPend ∧ TableFunctionValues ∧ ScaledConversionValues ∧ BlockScaleValue ∧ RandomValues

/-- A vector operation with no active lane changes nothing and raises no trap (01 R18). -/
def Sys2Proof.Claims.InactiveVectorDoesNothing : Prop :=
  ∀ i ∈ vectorOps, ∀ s b o, s.opn = some b → vActive b o = 0 → exec (i o) s = .next s

/-- A guarded-off control operation changes nothing and raises no trap (01 R18); so does one resumed past its trap (04 R119). -/
def Sys2Proof.Claims.GuardedOffControlDoesNothing : Prop :=
  ∀ i ∈ controlOps, ∀ s b g o, Open s b g → Guard.holds o.guard b.regs 0 = false ∨ g.past = some b.pc → exec (i o) s = .next s

/-- A memory operation with no active lane. -/
def Sys2Proof.Claims.InactiveMemoryDoesNothing : Prop :=
  ∀ i ∈ memoryOps, ∀ s b o, s.opn = some b → mActive b o = 0 → exec (i o) s = .next s

/-- A guarded-off engine operation; one that names an accumulator tile the launch has not is checked whatever its guard holds. -/
def Sys2Proof.Claims.GuardedOffEngineDoesNothing : Prop :=
  (∀ i ∈ engineOps, ∀ s b o, s.opn = some b → Guard.holds o.guard b.regs 0 = false → exec (i o) s = .next s) ∧
    ∀ i ∈ tileOps, ∀ s b o lid l, s.opn = some b → Guard.holds o.guard b.regs 0 = false → s.dev.launchOf b.gid = some (lid, l) →
      (o.acc.toNat < l.spine.tiles → exec (i o) s = .next s) ∧
      (l.spine.tiles ≤ o.acc.toNat → Traps (i o) s b 4 (plainCause 0x60))

/-- A slot operation that is guarded off, or that has no active lane, changes nothing and raises no trap of its own; the check of the
accumulator tile alone ignores the guard (01 R18, 11 R240). -/
def Obligations.InactiveOperationsDoNothing : Prop :=
  InactiveVectorDoesNothing ∧ GuardedOffControlDoesNothing ∧ InactiveMemoryDoesNothing ∧ GuardedOffEngineDoesNothing

/-- A vector operation that executes and names a literal the bundle does not carry takes cause 0x07 (02 R57). -/
def Sys2Proof.Claims.AbsentLiteralTraps : Prop :=
  ∀ i ∈ vectorOps, ∀ s b o, s.opn = some b → vActive b o ≠ 0 → ¬ litsPresent b o →
    Traps (i o) s b (vSlotNo o) { cause := 0x07, code := 0, lane := none, addr := 0, write := false }

/-- The same for the control, memory and engine operations. -/
def Sys2Proof.Claims.OtherAbsentLiteralsTrap : Prop :=
  (∀ i ∈ controlOps, ∀ s b g o, Open s b g → Guard.holds o.guard b.regs 0 = true → g.past ≠ some b.pc → litMissing b.lits o.sa = true →
    Traps (i o) s b 0 (plainCause 0x07)) ∧
  (∀ i ∈ memoryOps, ∀ s b o, s.opn = some b → mActive b o ≠ 0 → ¬ memLits b o → Traps (i o) s b 3 (plainCause 0x07)) ∧
  ∀ i ∈ engineOps, ∀ s b o, s.opn = some b → Guard.holds o.guard b.regs 0 = true → litMissing b.lits o.src = true →
    Traps (i o) s b 4 (plainCause 0x07)

/-- A short-class result that would make the span write more than 48 v registers takes cause 0x0D (20 R393). -/
def Sys2Proof.Claims.FullSpanTraps : Prop :=
  ∀ x ∈ integerOps ++ floatOps, ∀ s b g o, Open s b g → vActive b o ≠ 0 → litsPresent b o → ¬ spanFits g (x.dst o) (x.words o) →
    Traps (x.ctor o) s b (vSlotNo o) { cause := 0x0D, code := 0, lane := none, addr := 0, write := false }

/-- An operation that executes and names a literal the bundle does not carry takes cause 0x07 (02 R57); a result that would bring the
span to 49 v registers takes cause 0x0D (20 R393). -/
def Obligations.AbsentLiteralsTrap : Prop :=
  AbsentLiteralTraps ∧ OtherAbsentLiteralsTrap ∧ FullSpanTraps

-- their values

/-- IADD, ISUB, IADDC and ISUBB: each element is the exact sum or difference of the operands' elements and the carry-in, wrapped or
saturated; the primary predicate is the unsigned carry or borrow out (05 R137). -/
def Sys2Proof.Claims.AdditionValues : Prop :=
  IntResult .iadd (fun _ _ _ x y _ => x + y) (carryOut (fun _ _ _ => 0)) ∧
    IntResult .isub (fun _ _ _ x y _ => x - y) (borrowOut (fun _ _ _ => 0)) ∧
    IntResult .iaddc (fun b o l x y _ => x + y + carryIn b o l) (carryOut carryIn) ∧
    IntResult .isubb (fun b o l x y _ => x - y - carryIn b o l) (borrowOut carryIn)

/-- IMUL and IMAD are exact before they wrap or saturate; IMULH gives the high half of the exact product (05 R138). -/
def Sys2Proof.Claims.MultiplyValues : Prop :=
  IntResult .imul (fun _ _ _ x y _ => x * y) nonZeroPrim ∧
    (∀ s b g o, VecReady s b g o o.dst o.type.words → o.type ∈ [VType.i32, .n32, .i64, .n64] →
      (∃ val, VecResult (.imad o) s b g o o.dst o.type.words val (fun l => decide (val l ≠ 0)) ∧
        ∀ l, (vActive b o).getLsbD l → val l < 2 ^ (32 * o.type.words) ∧
          elemInt (typeSigned o.type) (32 * o.type.words) (val l) 0 =
            finishInt o (32 * o.type.words)
              (elemArg b o.type o.sa l 0 * elemArg b o.type o.sb l 0 + elemArg b o.type o.sc l 0)) ∧
      (∃ val, VecResult (.imulh o) s b g o o.dst o.type.words val (fun l => decide (val l ≠ 0)) ∧
        ∀ l, (vActive b o).getLsbD l → val l < 2 ^ (32 * o.type.words) ∧
          elemInt (typeSigned o.type) (32 * o.type.words) (val l) 0 =
            Int.fdiv (elemArg b o.type o.sa l 0 * elemArg b o.type o.sb l 0) (2 ^ (32 * o.type.words))))

/-- IMADW: 32-bit factors under TYPE, a 64-bit addend and result under the same signedness (05 R138). -/
def Sys2Proof.Claims.WideMultiplyValue : Prop :=
  ∀ s b g o, VecReady s b g o o.dst 2 → o.type = .i32 ∨ o.type = .n32 →
    ∃ val, VecResult (.imadw o) s b g o o.dst 2 val (fun l => decide (val l ≠ 0)) ∧
      ∀ l, (vActive b o).getLsbD l → val l < 2 ^ 64 ∧
        elemInt (typeSigned o.type) 64 (val l) 0 =
          finishInt o 64
            (elemInt (typeSigned o.type) 32 (opA b o 1 l) 0 * elemInt (typeSigned o.type) 32 (opB b o 1 l) 0 +
              elemInt (typeSigned o.type) 64 (opC b o 2 l) 0)

/-- IMIN and IMAX return the lesser and the greater element, IABS the absolute value and INEG the negation, which then wrap or saturate
(05 R139). -/
def Sys2Proof.Claims.MinMaxAbsNegValues : Prop :=
  IntResult .imin (fun _ _ _ x y _ => min x y) nonZeroPrim ∧ IntResult .imax (fun _ _ _ x y _ => max x y) nonZeroPrim ∧
    IntResult .iabs (fun _ _ _ x _ _ => (x.natAbs : Int)) nonZeroPrim ∧ IntResult .ineg (fun _ _ _ x _ _ => -x) nonZeroPrim

/-- IDP4 adds the four exact products of the operands' bytes to SC, wrapped or saturated (05 R148). -/
def Sys2Proof.Claims.DotProductValue : Prop :=
  ∀ s b g o, VecReady s b g o o.dst 1 → o.type = .i8x4 ∨ o.type = .n8x4 →
    ∃ val, VecResult (.idp4 o) s b g o o.dst 1 val (fun l => decide (val l ≠ 0)) ∧
      ∀ l, (vActive b o).getLsbD l → val l < 2 ^ 32 ∧
        elemInt (typeSigned o.type) 32 (val l) 0 =
          finishInt o 32
            (elemInt (typeSigned o.type) 32 (opC b o 1 l) 0 +
              elemArg b o.type o.sa l 0 * elemArg b o.type o.sb l 0 + elemArg b o.type o.sa l 1 * elemArg b o.type o.sb l 1 +
              elemArg b o.type o.sa l 2 * elemArg b o.type o.sb l 2 + elemArg b o.type o.sa l 3 * elemArg b o.type o.sb l 3)

/-- The integer arithmetic instructions: addition and subtraction (05 R137), the products (R138), the minimum, maximum, absolute value
and negation (R139) and the dot product of bytes (R148). -/
def Obligations.IntegerArithmeticValues : Prop :=
  AdditionValues ∧ MultiplyValues ∧ WideMultiplyValue ∧ MinMaxAbsNegValues ∧ DotProductValue

/-- ICMP writes its condition to PD and the complement to PC2 (05 R140). -/
def Sys2Proof.Claims.CompareWritesCondition : Prop :=
  ∀ s b g o, VecReady s b g o .null o.type.words → o.dst = .null → o.type ∈ [VType.i32, .n32, .i64, .n64] →
    VecResult (.icmp o) s b g o .null o.type.words (fun _ => 0)
      (fun l => icmpHolds o.sub.toNat (elemArg b o.type o.sa l 0) (elemArg b o.type o.sb l 0))

/-- SEL writes a where the predicate that IMM8 names is 1 and b where it is 0; MOV copies SA; READL delivers the chosen lane's SA to every
active lane, 0 for a lane that is not live (05 R141, R149, R150). -/
def Sys2Proof.Claims.SelectAndMoveValues : Prop :=
  VecValue .sel (fun b o l => if predBit b (immPredOf o) l then opA b o o.type.words l else opB b o o.type.words l) ∧
    VecValue .mov (fun b o l => opA b o o.type.words l) ∧
    VecValue .readl (fun b o l => if b.regs.live.getLsbD (opB b o 1 l % 32) then opA b o o.type.words (opB b o 1 l % 32) else 0)

/-- FMIN and FMAX (06 R160), FCMP (06 R161) and FCLASS (06 R163) on FP32 patterns. -/
def Sys2Proof.Claims.FloatOrderValues : Prop :=
  (∀ s b g o, VecReady s b g o o.dst 1 → o.type = .f32 →
    VecResult (.fmin o) s b g o o.dst 1 (fun l => pick32 false (opA b o 1 l) (opB b o 1 l))
      (fun l => decide (order32 (pick32 false (opA b o 1 l) (opB b o 1 l)) ≠ 0)) ∧
    VecResult (.fmax o) s b g o o.dst 1 (fun l => pick32 true (opA b o 1 l) (opB b o 1 l))
      (fun l => decide (order32 (pick32 true (opA b o 1 l) (opB b o 1 l)) ≠ 0))) ∧
  (∀ s b g o, VecReady s b g o .null 1 → o.dst = .null → o.type = .f32 →
    VecResult (.fcmp o) s b g o .null 1 (fun _ => 0)
      (fun l => holds32 o.sub.toNat (opA b o 1 l) (opB b o 1 l))) ∧
  (∀ s b g o, VecReady s b g o o.dst 1 → o.type = .f32 →
    ∃ val, VecResult (.fclass o) s b g o o.dst 1 val (fun l => decide (val l ≠ 0)) ∧
      ∀ l, (vActive b o).getLsbD l →
        let x := opA b o 1 l
        let e := x / 2 ^ 23 % 2 ^ 8
        let f := x % 2 ^ 23
        let neg := x / 2 ^ 31 % 2 = 1
        let cls : Nat :=
          if e = 255 ∧ f ≠ 0 then (if f / 2 ^ 22 = 0 then 8 else 9)
          else if e = 255 then (if neg then 0 else 7)
          else if e ≠ 0 then (if neg then 1 else 6)
          else if f ≠ 0 then (if neg then 2 else 5)
          else if neg then 3 else 4
        val l = 2 ^ cls &&& opB b o 1 l)

/-- FADD, FSUB, FMUL and FFMA give the exact result rounded once (06 R159), FRND the integral value that the mode chooses (06 R162), FSCALE
the operand times a power of two rounded once (06 R164); the primary predicate is "result not ±0" (06 R158). -/
def Sys2Proof.Claims.FloatArithmeticValues : Prop :=
  ∀ s b g o, VecReady s b g o o.dst 1 → o.type = .f32 →
    let x := opA b o 1
    let y := opB b o 1
    ∀ f ∈ [(Instr.fadd, fun l r => fp32.isSum o.rm (x l) (y l) r), (.fsub, fun l r => fp32.isSum o.rm (x l) (fp32.negated (y l)) r),
        (.fmul, fun l r => fp32.isProduct o.rm (x l) (y l) r), (.ffma, fun l r => fp32.isFused o.rm (x l) (y l) (opC b o 1 l) r),
        (.frnd, fun l r => isIntegral o.rm (x l) r), (.fscale, fun l r => isScaled o.rm (x l) (elemInt true 32 (y l) 0) r)],
      ∃ val, VecResult (f.1 o) s b g o o.dst 1 val (fun l => decide (val l % 2 ^ 31 ≠ 0)) ∧
        ∀ l, (vActive b o).getLsbD l → f.2 l (val l)

/-- The packed BF16 functions do to each element what the FP32 ones do, in BF16 (06 R166); PKCMP writes all ones or zeros to each element,
and its primary predicate says that both hold (06 R167). -/
def Sys2Proof.Claims.PackedFloatValues : Prop :=
  ∀ s b g o, VecReady s b g o o.dst 1 → o.type = .bf16x2 →
    let x := elemCode b 16 o.sa
    let y := elemCode b 16 o.sb
    (∀ f ∈ [(Instr.pkadd, fun l k r => bf16.isSum o.rm (x l k) (y l k) r), (.pkmul, fun l k r => bf16.isProduct o.rm (x l k) (y l k) r),
        (.pkfma, fun l k r => bf16.isFused o.rm (x l k) (y l k) (elemCode b 16 o.sc l k) r),
        (.pkmin, fun l k r => r = pick32 false (x l k * 2 ^ 16) (y l k * 2 ^ 16) / 2 ^ 16),
        (.pkmax, fun l k r => r = pick32 true (x l k * 2 ^ 16) (y l k * 2 ^ 16) / 2 ^ 16)],
      ∃ val, VecResult (f.1 o) s b g o o.dst 1 val (fun _ => false) ∧
        ∀ l, (vActive b o).getLsbD l → val l < 2 ^ 32 ∧ ∀ k, k < 2 → f.2 l k (val l / 2 ^ (16 * k) % 2 ^ 16)) ∧
    ∃ val, VecResult (.pkcmp o) s b g o o.dst 1 val (fun l => decide (val l = 2 ^ 32 - 1)) ∧
      ∀ l, (vActive b o).getLsbD l → val l < 2 ^ 32 ∧
        ∀ k, k < 2 → val l / 2 ^ (16 * k) % 2 ^ 16 = if holds32 o.sub.toNat (x l k * 2 ^ 16) (y l k * 2 ^ 16) then 0xFFFF else 0

/-- CVT rounds the source element's value once into its destination's format, in the modes that need no random bits, and merges it into a
packed destination (06 R170); the primary predicate says that the result is inexact (06 R171). -/
def Sys2Proof.Claims.ConversionValues : Prop :=
  ∀ s b g o src, VecReady s b g o o.dst o.type.words → o.cvtSrc = some src → converts src o.type = true → elementsFit o src →
    ∃ (val : Nat → Nat) (prim : Nat → Bool) (code : Nat → Nat), VecResult (.cvt o) s b g o o.dst o.type.words val prim ∧
      ∀ l, (vActive b o).getLsbD l → mergesElement b o l (val l) (code l) ∧
        convertedTo b src o.type 0 (sourceCode b o src l) (code l) ∧
        (prim l = false ↔ convertsExactly src o.type 0 (sourceCode b o src l) (code l))

/-- LGMUL adds the exponents of the five LG6 pairs (06 R175); LGADD rounds the sum of their linear values (06 R176). -/
def Sys2Proof.Claims.LogarithmicValues : Prop :=
  ∀ s b g o, VecReady s b g o o.dst o.type.words →
    ∀ f ∈ [(Instr.lgmul, fun x y r => r = lgProduct (lgMode b) x y), (.lgadd, fun x y r => isLgSum (lgMode b) x y r)],
      ∃ val, VecResult (f.1 o) s b g o o.dst o.type.words val (fun _ => false) ∧
        ∀ l, (vActive b o).getLsbD l → val l < 2 ^ 30 ∧
          ∀ k, k < 5 → f.2 (elemCode b 6 o.sa l k) (elemCode b 6 o.sb l k) (val l / 2 ^ (6 * k) % 2 ^ 6)

/-- Comparing, choosing and moving values: ICMP, SEL, MOV and READL; FMIN, FMAX, FCMP and FCLASS of FP32. The values of the other
floating-point, packed, conversion and logarithmic instructions. -/
def Obligations.CompareAndSelectValues : Prop :=
  CompareWritesCondition ∧ SelectAndMoveValues ∧ FloatOrderValues ∧ FloatArithmeticValues ∧ PackedFloatValues ∧ ConversionValues ∧
    LogarithmicValues

/-- The bitwise functions (05 R142): AND, OR, XOR, ANDN, ORN, NOT on patterns of the TYPE's width, and BMIX, whose result bit i is the
bit of IMM8 that the three operand bits number. -/
def Sys2Proof.Claims.LogicValues : Prop :=
  VecValue .bitAnd (fun b o l => (wideA b o l &&& wideB b o l).toNat) ∧ VecValue .bitOr (fun b o l => (wideA b o l ||| wideB b o l).toNat) ∧
    VecValue .bitXor (fun b o l => (wideA b o l ^^^ wideB b o l).toNat) ∧
    VecValue .andn (fun b o l => (wideA b o l &&& ~~~wideB b o l).toNat) ∧
    VecValue .orn (fun b o l => (wideA b o l ||| ~~~wideB b o l).toNat) ∧ VecValue .bitNot (fun b o l => (~~~wideA b o l).toNat) ∧
    ∀ s b g o, VecReady s b g o o.dst o.type.words →
      ∃ val : Nat → BitVec (32 * o.type.words),
        VecResult (.bmix o) s b g o o.dst o.type.words (fun l => (val l).toNat) (fun l => decide (val l ≠ 0)) ∧
          ∀ l i, (vActive b o).getLsbD l → i < 32 * o.type.words →
            (val l).getLsbD i =
              o.imm8.getLsbD (((wideA b o l).getLsbD i).toNat + 2 * ((wideB b o l).getLsbD i).toNat + 4 * ((wideC b o l).getLsbD i).toNat)

/-- SHL, SHR, SAR and ROT by the 32-bit amount of SB, at any amount (05 R143), and the funnel shift SHF (05 R144). -/
def Sys2Proof.Claims.ShiftValues : Prop :=
  VecValue .shl (fun b o l => (wideA b o l <<< opB b o 1 l).toNat) ∧ VecValue .shr (fun b o l => (wideA b o l >>> opB b o 1 l).toNat) ∧
    VecValue .sar (fun b o l => ((wideA b o l).sshiftRight (opB b o 1 l)).toNat) ∧
    VecValue .rot (fun b o l =>
      if o.sub = 0 then ((wideA b o l).rotateRight (opB b o 1 l)).toNat else ((wideA b o l).rotateLeft (opB b o 1 l)).toNat) ∧
    ∀ s b g o, VecReady s b g o o.dst 1 → o.type = .n32 →
      VecResult (.shf o) s b g o o.dst 1
        (fun l =>
          let n := min (opC b o 1 l) 32
          let f := (BitVec.ofNat 64 (opB b o 1 l) <<< 32) ||| BitVec.ofNat 64 (opA b o 1 l)
          if o.sub = 0 then ((f >>> n).setWidth 32).toNat else ((f <<< n) >>> 32).toNat)
        (fun l =>
          let n := min (opC b o 1 l) 32
          let f := (BitVec.ofNat 64 (opB b o 1 l) <<< 32) ||| BitVec.ofNat 64 (opA b o 1 l)
          decide ((if o.sub = 0 then ((f >>> n).setWidth 32).toNat else ((f <<< n) >>> 32).toNat) ≠ 0))

/-- The bitwise functions (05 R142), the shifts and rotations (R143) and the funnel shift (R144). -/
def Obligations.LogicAndShiftValues : Prop :=
  LogicValues ∧ ShiftValues

/-- POPC counts the 1 bits, CLZ the 0 bits above the highest 1 bit and CTZ those below the lowest, w for none; BREV reverses the bits
(05 R145). -/
def Sys2Proof.Claims.CountAndReverseValues : Prop :=
  VecValue .popc (fun b o l => ((List.range (32 * o.type.words)).filter (fun i => (wideA b o l).getLsbD i)).length) ∧
    VecValue .clz (fun b o l => ((List.range (32 * o.type.words)).takeWhile (fun i => !(wideA b o l).getMsbD i)).length) ∧
    VecValue .ctz (fun b o l => ((List.range (32 * o.type.words)).takeWhile (fun i => !(wideA b o l).getLsbD i)).length) ∧
    VecValue .brev (fun b o l => (wideA b o l).reverse.toNat)

/-- BFX extracts and BFI inserts the field that the control names (05 R146). -/
def Sys2Proof.Claims.BitFieldValues : Prop :=
  ∀ s b g o, VecReady s b g o o.dst 1 → o.type = .i32 ∨ o.type = .n32 →
    (∃ val : Nat → Word,
      VecResult (.bfx o) s b g o o.dst 1 (fun l => (val l).toNat) (fun l => decide (val l ≠ 0)) ∧
        ∀ l, (vActive b o).getLsbD l →
          let pos := ctlPos (opB b o 1 l)
          let len := ctlLen (opB b o 1 l)
          let field := BitVec.ofNat len (opA b o 1 l >>> pos)
          val l = if o.type = .i32 then field.signExtend 32 else field.setWidth 32) ∧
      ∃ val : Nat → Word,
        VecResult (.bfi o) s b g o o.dst 1 (fun l => (val l).toNat) (fun l => decide (val l ≠ 0)) ∧
          ∀ l i, (vActive b o).getLsbD l → i < 32 →
            let pos := ctlPos (opC b o 1 l)
            let len := ctlLen (opC b o 1 l)
            (val l).getLsbD i =
              if pos ≤ i ∧ i < pos + len then (opA b o 1 l).testBit (i - pos) else (opB b o 1 l).testBit i

/-- BPERM builds each result byte from the byte that its selector nibble picks; SUB[0] reverses the result's bytes (05 R147). -/
def Sys2Proof.Claims.BytePermuteValue : Prop :=
  ∀ s b g o, VecReady s b g o o.dst 1 → o.type = .n32 →
    ∃ val : Nat → Word,
      VecResult (.bperm o) s b g o o.dst 1 (fun l => (val l).toNat) (fun l => decide (val l ≠ 0)) ∧
        ∀ l k, (vActive b o).getLsbD l → k < 4 →
          (val l).toNat / 2 ^ (8 * (if o.sub = 0 then k else 3 - k)) % 2 ^ 8 =
            permByte (opA b o 1 l) (opB b o 1 l) (opC b o 1 l / 2 ^ (4 * k) % 16)

/-- Counting and reversal (05 R145), bit fields (R146) and the byte permutation (R147). -/
def Obligations.BitManipulationValues : Prop :=
  CountAndReverseValues ∧ BitFieldValues ∧ BytePermuteValue

/-- The lane exchanges: each active lane takes SA of its source lane, or its own fill where the source is not valid, and the primary
predicate says which (08 R200, R203). -/
def Sys2Proof.Claims.LaneExchangeValues : Prop :=
  ∀ f ∈ [(Exchange.get, Instr.xlGet), (.up, .xlUp), (.down, .xlDn), (.butterfly, .xlBfly)],
    ∀ s b g o, VecReady s b g o o.dst o.type.words → o.imm8.toNat % 8 ≤ 5 →
      VecResult (f.2 o) s b g o o.dst o.type.words
        (fun l => match exchangeSource f.1 b o l with | some j => opA b o o.type.words j | none => opC b o o.type.words l)
        (fun l => (exchangeSource f.1 b o l).isSome)

/-- BALLOT gathers a predicate of the active lanes, the votes decide on it or on SA, LFOLD folds SA over the active lanes or over those
numbered no higher (08 R204, R205, R206). -/
def Sys2Proof.Claims.BallotVoteFoldValues : Prop :=
  (∀ s b g o, VecReady s b g o o.dst o.type.words → o.type = .n32 →
    ∃ val : Word, VecResult (.ballot o) s b g o o.dst 1 (fun _ => val.toNat) (fun _ => decide (val ≠ 0)) ∧
      ∀ l, l < 32 → val.getLsbD l = ((vActive b o).getLsbD l && votePred b o l)) ∧
  (∀ s b g o, VecReady s b g o .null o.type.words → o.dst = .null →
    VecResult (.voteAny o) s b g o .null o.type.words (fun _ => 0)
      (fun _ => decide (∃ l ∈ lanesOf (vActive b o), votePred b o l = true)) ∧
    VecResult (.voteAll o) s b g o .null o.type.words (fun _ => 0)
      (fun _ => decide (∀ l ∈ lanesOf (vActive b o), votePred b o l = true)) ∧
    VecResult (.voteEq o) s b g o .null o.type.words (fun _ => 0)
      (fun _ => decide (∀ l ∈ lanesOf (vActive b o), ∀ k ∈ lanesOf (vActive b o),
        opA b o o.type.words l = opA b o o.type.words k))) ∧
  (∀ s b g o, VecReady s b g o o.dst o.type.words → o.type ∈ [VType.i32, .n32, .i64, .n64] → o.sub.toNat ≤ 5 →
    VecResult (.lfold o) s b g o o.dst o.type.words
      (fun l => foldLanes b o ((lanesOf (vActive b o)).filter (fun k => !o.imm8.getLsbD 0 || decide (k ≤ l))))
      (fun l => decide (foldLanes b o ((lanesOf (vActive b o)).filter (fun k => !o.imm8.getLsbD 0 || decide (k ≤ l))) ≠ 0)))

/-- The predicate-logic functions (08 R207), and the packing and spreading of predicates (08 R208). -/
def Sys2Proof.Claims.LanePredicateValues : Prop :=
  (∀ s b g o, VecReady s b g o .null 1 →
    VecResult (.pand o) s b g o .null 1 (fun _ => 0) (fun l => votePred b o l && votePred2 b o l) ∧
    VecResult (.por o) s b g o .null 1 (fun _ => 0) (fun l => votePred b o l || votePred2 b o l) ∧
    VecResult (.pxor o) s b g o .null 1 (fun _ => 0) (fun l => votePred b o l ^^ votePred2 b o l) ∧
    (o.sub = 0 →
      VecResult (.pnot o) s b g o .null 1 (fun _ => 0) (fun l => !predBit b (immPredOf o) l) ∧
      VecResult (.pmov o) s b g o .null 1 (fun _ => 0) (fun l => predBit b (immPredOf o) l))) ∧
  (∀ s b g o, VecReady s b g o o.dst 1 →
    ∃ val : Nat → Word, VecResult (.p2v o) s b g o o.dst 1 (fun l => (val l).toNat) (fun l => decide (val l ≠ 0)) ∧
      ∀ l i, l < 32 → i < 32 → (val l).getLsbD i =
        if i < 16 then (b.regs.pAt i).getLsbD l else if i < 24 then b.regs.qAt (i - 16) else false) ∧
  (∀ s b g o, Open s b g → vActive b o ≠ 0 → litsPresent b o →
    ∃ t c, exec (.v2p o) s = .next t ∧ OnlyRegs s t b b g c ∧ c = { g.core with p := c.p } ∧
      ∀ (r : BitVec 4) (l : Nat), l < 32 → (c.pAt r.toNat).getLsbD l =
        if r = 15 then true
        else if (vActive b o).getLsbD l ∧ (opB b o 1 l).testBit r.toNat then (opA b o 1 l).testBit r.toNat
        else (g.core.pAt r.toNat).getLsbD l)

/-- What crosses lanes: the exchanges, ballots, votes and folds, and the lane predicates (08 R200 to R208). -/
def Obligations.LaneCrossingValues : Prop :=
  LaneExchangeValues ∧ BallotVoteFoldValues ∧ LanePredicateValues

/-- What a member's lane reads as MEMBER, PARENT and GEN; a lane without a member reads all ones, all ones and 0 (05 R151). -/
def Sys2Proof.Claims.memberValue (b : OpenBundle) (index l : Nat) : Nat :=
  match b.regs.popAt l with
  | .member _ id parent gen => if index = 9 then id else if index = 0xA then parent else gen
  | _ => if index = 0xB then 0 else 2 ^ 64 - 1

/-- RDSYS of a program's values: what its place in its team and grid gives, where and when its bundle issued, its lanes' members, and its
bank; DST takes the value in every active lane, and nothing else changes (05 R151). -/
def Sys2Proof.Claims.SystemValues : Prop :=
  ∀ s b g o gs id team lid place, VecReady s b g o o.dst o.type.words → b.gid = .user id → b.start.group b.gid = some gs →
    b.start.teamOf b.gid = some team → b.start.launchOf b.gid = some lid → team.2.place = some place →
    ∀ v, o.imm8.toNat = 0 ∧ v = (fun l => l) ∨ o.imm8.toNat = 1 ∧ v = (fun _ => gs.index) ∨
        o.imm8.toNat = 2 ∧ v = (fun _ => team.2.index.toNat) ∨
        o.imm8.toNat = 3 ∧ v = (fun l => (team.2.index.toNat * lid.2.spine.tgroups + gs.index) * 32 + l) ∨
        o.imm8.toNat = 4 ∧ v = (fun _ => if gs.producer then 0 else 1) ∨ o.imm8.toNat = 5 ∧ v = (fun _ => gs.quad) ∨
        o.imm8.toNat = 6 ∧ v = (fun _ => place.1 % 160) ∨ o.imm8.toNat = 7 ∧ v = (fun _ => place.1 / 160) ∨
        o.imm8.toNat = 8 ∧ v = (fun _ => gs.issueCycle.toNat) ∨
        (o.imm8.toNat = 9 ∨ o.imm8.toNat = 0xA ∨ o.imm8.toNat = 0xB) ∧ v = memberValue b o.imm8.toNat ∨
        o.imm8.toNat = 0xC ∧ v = (fun _ => place.2) →
      VecResult (.rdsys o) s b g o o.dst o.type.words v (fun l => decide (v l ≠ 0))

/-- RDSYS of a firmware value and WRSYS of any value are for the firmware context: another group takes cause 0xA0 (05 R152). -/
def Sys2Proof.Claims.FirmwareValuesTrap : Prop :=
  ∀ s b g o id, Open s b g → b.gid = .user id → vActive b o ≠ 0 → litsPresent b o →
    (0x40 ≤ o.imm8.toNat → Traps (.rdsys o) s b (vSlotNo o) { cause := 0xA0, code := 0, lane := none, addr := 0, write := false }) ∧
    Traps (.wrsys o) s b (vSlotNo o) { cause := 0xA0, code := 0, lane := none, addr := 0, write := false }

/-- RDSYS in the firmware context: it completes for every index; LANE, QUAD, CORE, DIE, the core's cycle counter, FWSHARE, the energy
budget, GSEL and RSEL (with PEND of the selected group in bit 31) as they stand at the bundle's start (05 R151, R152, 21 R417 to R419). -/
def Sys2Proof.Claims.FirmwareReads : Prop :=
  ∀ s b g o key, VecReady s b g o o.dst o.type.words → b.gid = .fw key →
    (∃ t, exec (.rdsys o) s = .next t ∧ t.opn = some b) ∧
    ∀ gs, b.start.group b.gid = some gs →
      let c := b.start.core (key / 4)
      let q := c.seq g.quad
      let pend := match selectedGroup b.start (key / 4) q.gsel with | some (_, x) => elementPending x.core q.rsel | none => false
      ∀ v, o.imm8.toNat = 0 ∧ v = (fun l => l) ∨ o.imm8.toNat = 5 ∧ v = (fun _ => gs.quad) ∨
          o.imm8.toNat = 6 ∧ v = (fun _ => key / 4 % 160) ∨ o.imm8.toNat = 7 ∧ v = (fun _ => key / 4 / 160) ∨
          o.imm8.toNat = 8 ∧ v = (fun _ => c.cycle.toNat) ∨ o.imm8.toNat = 0x40 ∧ v = (fun _ => q.share.toNat) ∨
          o.imm8.toNat = 0x41 ∧ v = (fun _ => c.budget) ∨ o.imm8.toNat = 0x42 ∧ v = (fun _ => q.gsel.toNat) ∨
          o.imm8.toNat = 0x48 ∧ v = (fun _ => q.rsel.toNat + if pend then 2 ^ 31 else 0) →
        VecResult (.rdsys o) s b g o o.dst o.type.words v (fun l => decide (v l ≠ 0))

/-- WRSYS in the firmware context: it completes for every index, and the lowest active lane supplies the value. CYCLE sets the core's
cycle counter; FWSHARE takes a BURST of 1 to 8 with an INTERVAL of 16 or more; GSEL and RSEL take a value whose reserved fields are 0, RSEL with
bit 31 read-only; a value that they do not take changes nothing. No group, no other field of a core and no other core changes (05 R152,
09 R230, 21 R418, R419). -/
def Sys2Proof.Claims.FirmwareWrites : Prop :=
  ∀ s b g o key, Open s b g → b.gid = .fw key → vActive b o ≠ 0 → litsPresent b o →
    let x := opA b o o.type.words ((firstLane (vActive b o)).getD 0)
    let w : Word := BitVec.ofNat 32 x
    let seqr (f : Seqr → Seqr) : Device := s.dev.modCore (key / 4) (fun c => c.setSeq g.quad (f (c.seq g.quad)))
    ∃ d, exec (.wrsys o) s = .next { s with dev := d } ∧
      (o.imm8.toNat = 8 → d = s.dev.modCore (key / 4) (fun c => { c with cycle := BitVec.ofNat 64 x })) ∧
      (o.imm8.toNat = 0x40 →
        d = if 1 ≤ w.toNat / 2 ^ 8 ∧ w.toNat / 2 ^ 8 ≤ 8 ∧ 16 ≤ w.toNat % 2 ^ 8 then seqr (fun q => { q with share := w }) else s.dev) ∧
      (o.imm8.toNat = 0x42 → d = if w.toNat < 2 ^ 7 then seqr (fun q => { q with gsel := w }) else s.dev) ∧
      (o.imm8.toNat = 0x48 →
        d = if w.toNat / 2 ^ 16 % 2 ^ 15 = 0 ∧ w.toNat / 2 ^ 13 % 8 ≠ 7 then
          seqr (fun q => { q with rsel := BitVec.ofNat 32 (w.toNat % 2 ^ 16) }) else s.dev)

/-- RDSYS and WRSYS: a program's own values, and what is the firmware context's (05 R151, R152). What a firmware context reads of a value
that has no meaning for it rests on log entry 6. -/
def Obligations.SystemValueInstructions : Prop :=
  SystemValues ∧ FirmwareValuesTrap ∧ FirmwareReads ∧ FirmwareWrites

-- control operations

/-- BRA, BRI, CALL and RET set PC to their target, and CALL its return address in s[D]; a target that is not valid is cause 0x08 with
the bad address (04 R110, R111). -/
def Sys2Proof.Claims.BranchesGoToTarget : Prop :=
  ∀ s b g o, CtlReady s b g o →
    (goodTarget (relTarget b o) → exec (.bra o) s = .next { s with opn := some (jumping b (relTarget b o)) } ∧
      ∀ n, o.d = .s n → SResult (.call o) s b (jumping b (relTarget b o)) g n [lo32 b.npc, hi32 b.npc]) ∧
    (goodTarget (cPair b o) → exec (.bri o) s = .next { s with opn := some (jumping b (cPair b o)) } ∧
      exec (.ret o) s = .next { s with opn := some (jumping b (cPair b o)) }) ∧
    (¬ goodTarget (relTarget b o) →
      Traps (.bra o) s b 0 { plainCause 0x08 with addr := (relTarget b o).toNat } ∧
      Traps (.call o) s b 0 { plainCause 0x08 with addr := (relTarget b o).toNat }) ∧
    (¬ goodTarget (cPair b o) →
      Traps (.bri o) s b 0 { plainCause 0x08 with addr := (cPair b o).toNat } ∧
      Traps (.ret o) s b 0 { plainCause 0x08 with addr := (cPair b o).toNat })

/-- LOOP and LEND count in s[D] and branch as the pseudocode says (04 R112). -/
def Sys2Proof.Claims.LoopsCount : Prop :=
  ∀ s b g o n, CtlReady s b g o → o.d = .s n →
    (cWord b o ≠ 0 → SResult (.loop o) s b b g n [cWord b o]) ∧
    (cWord b o = 0 → goodTarget (skipTarget b o) → SResult (.loop o) s b (jumping b (skipTarget b o)) g n [0]) ∧
    (b.regs.sAt n.toNat = 1 → SResult (.lend o) s b b g n [0]) ∧
    (b.regs.sAt n.toNat ≠ 1 → goodTarget (skipTarget b o) →
      SResult (.lend o) s b (jumping b (skipTarget b o)) g n [b.regs.sAt n.toNat - 1]) ∧
    (¬ goodTarget (skipTarget b o) →
      (cWord b o = 0 → Traps (.loop o) s b 0 { plainCause 0x08 with addr := (skipTarget b o).toNat }) ∧
      (b.regs.sAt n.toNat ≠ 1 → Traps (.lend o) s b 0 { plainCause 0x08 with addr := (skipTarget b o).toNat }))

/-- Branches, calls, returns and loops (04 R110 to R112). -/
def Obligations.BranchesAndLoops : Prop :=
  BranchesGoToTarget ∧ LoopsCount

/-- BRD completes: when no lane takes it the path goes on, when all do it is a branch, and else the bundle will end with a split; where
that pushes a path, the stack's page must be at hand. Every register, every other group and all of memory is as before (07 R186, R187;
08 R210). -/
def Sys2Proof.Claims.BrdCompletes : Prop :=
  ∀ s b g o, CtlReady s b g o →
    (takenBy b o = 0 → exec (.brd o) s = .next s) ∧
    (takenBy b o ≠ 0 → goodTarget (relTarget b o) →
      (takenBy b o = slotLanes b → exec (.brd o) s = .next { s with opn := some (jumping b (relTarget b o)) }) ∧
      (takenBy b o ≠ slotLanes b → b.regs.handler = none →
        ((b.regs.slot (!b.slotB)).st = .idle → exec (.brd o) s = .next { s with opn := some (splitting b o) }) ∧
        ((b.regs.slot (!b.slotB)).st ≠ .idle → b.regs.stack.length < 256 →
          ∀ w, slotScratch (workOf s (splitting b o)) (pushAddr g b) true false = .ok w →
            exec (.brd o) s = .next { s with dev := w.dev, opn := some w.b } ∧ PageFound s (splitting b o) w)))

/-- Where BRD and JOIN trap: an invalid target is cause 0x08, a split or a JOIN in a handler 0x09, a push past 256 entries 0x0C, and
a push onto a page that cannot be used what the scratchpad access finds (07 R187, 08 R210, 16 R333). -/
def Sys2Proof.Claims.BrdAndJoinTrap : Prop :=
  ∀ s b g o, CtlReady s b g o →
    (takenBy b o ≠ 0 → ¬ goodTarget (relTarget b o) → Traps (.brd o) s b 0 { plainCause 0x08 with addr := (relTarget b o).toNat }) ∧
    (takenBy b o ≠ 0 → takenBy b o ≠ slotLanes b → goodTarget (relTarget b o) →
      (b.regs.handler ≠ none → Traps (.brd o) s b 0 (plainCause 0x09)) ∧
      (b.regs.handler = none → (b.regs.slot (!b.slotB)).st ≠ .idle →
        (256 ≤ b.regs.stack.length → Traps (.brd o) s b 0 (plainCause 0x0C)) ∧
        (b.regs.stack.length < 256 → ∀ c, slotScratch (workOf s (splitting b o)) (pushAddr g b) true false = .error c →
          Traps (.brd o) s b 0 c))) ∧
    (b.regs.handler ≠ none → Traps (.join o) s b 0 (plainCause 0x09))

/-- JOIN completes: the bundle will end with the slot joining under its rejoin mask, SA as it read at the bundle's start; the slot then
stands at JOIN's PC with the next bundle to go to, and no other path, register or byte of memory changes (07 R190, 08 R211). -/
def Sys2Proof.Claims.JoinCompletes : Prop :=
  (∀ s b g o, CtlReady s b g o → b.regs.handler = none →
    exec (.join o) s = .next { s with opn := some { b with redirect := .join (cWord b o) } }) ∧
  ∀ (c : GCore) (b : OpenBundle) mask, b.redirect = .join mask →
    c.redirect b = c.setSlot b.slotB { c.slot b.slotB with st := .joining, next := b.npc, mask }

/-- A split keeps every lane and both halves carry the path's format register: the taken lanes issue at the target and the others at the
next bundle when the other slot is idle; else, of the other path and the two halves, the one with the lowest PC goes onto the stack,
the taken half first and then the other path when PCs are equal (07 R186). -/
def Sys2Proof.Claims.SplitKeepsEveryLane : Prop :=
  ∀ (c : GCore) (b : Bool) (target fall : DWord) (t : LaneMask),
    let x := c.slot b
    let y := c.slot (!b)
    let f := x.lanes &&& ~~~t
    let c' := c.split b target fall t
    let go := issuingSlot target t x.fmt
    let stay := issuingSlot fall f x.fmt
    (y.st = .idle → c'.slot b = stay ∧ c'.slot (!b) = go ∧ c'.stack = c.stack) ∧
    (y.st ≠ .idle →
      let pushed (p : PcSlot) : List StackEntry := { w := false, fmt := p.fmt, lanes := p.lanes, pc := p.pc } :: c.stack
      (target.toNat ≤ y.pc.toNat → target.toNat ≤ fall.toNat → c'.stack = pushed go ∧ c'.slot b = stay ∧ c'.slot (!b) = y) ∧
      (y.pc.toNat < target.toNat → y.pc.toNat ≤ fall.toNat → c'.stack = pushed y ∧ c'.slot b = stay ∧ c'.slot (!b) = go) ∧
      (fall.toNat < target.toNat → fall.toNat < y.pc.toNat → c'.stack = pushed stay ∧ c'.slot b = go ∧ c'.slot (!b) = y))

/-- The releases of a boundary. A JOIN whose lanes present are those of its mask that live releases: all lanes present become one path that
issues behind the JOIN, in the released slot, or in slot A with slot B idle where both slots stood at that JOIN; the stack loses its
entries with W = 1 there and keeps the others in their order. A result of the paths that merge keeps the smaller count. Where no JOIN releases
nothing moves (07 R184, R190, R191). -/
def Sys2Proof.Claims.JoinsRelease : Prop :=
  ∀ c : GCore,
    let c' := c.releases
    SameRegisters c c' ∧ c'.turnB = c.turnB ∧ c'.handler = c.handler ∧
    (¬ joinReleases c false → ¬ joinReleases c true → c' = c) ∧
    (∀ p ∈ c.pend, ∃ q ∈ c'.pend, q.op = p.op ∧ q.uni = p.uni ∧ q.rem ≤ p.rem) ∧
    (∀ q ∈ c'.pend, ∃ p ∈ c.pend, q.op = p.op ∧ q.uni = p.uni ∧ q.rem = p.rem) ∧
    ∀ b, joinReleases c b →
      let j := (c.slot b).pc
      let next := (c.slot b).next
      let both := (c.slot (!b)).st = .joining ∧ (c.slot (!b)).pc = j
      (both → (b = true → ¬ joinReleases c false) →
        MergedAt c j next c'.slotA ∧ c'.slotB = idleSlot ∧ c'.stack = stackLeft j c.stack) ∧
      (¬ both →
        MergedAt c j next (c'.slot b) ∧
        (¬ joinReleases c (!b) → c'.slot (!b) = c.slot (!b) ∧ c'.stack = stackLeft j c.stack) ∧
        (joinReleases c (!b) → c'.stack = stackLeft (c.slot (!b)).pc (stackLeft j c.stack)))

/-- Pops and the withdrawal. An idle slot takes the topmost entry that holds a live lane, with its live lanes; entries above it are gone
(07 R189). Where neither slot issues, the joining slot with the higher PC, slot B on a tie, changes places with the topmost entry of W = 0 that
holds a live lane; where there is none, nothing moves (07 R192). -/
def Sys2Proof.Claims.StackedPathsMove : Prop :=
  ∀ c : GCore,
    (∀ b : Bool,
      ((c.slot b).st ≠ .idle → c.popInto b = c) ∧
      ((c.slot b).st = .idle →
        (∀ above e below, c.stack = above ++ e :: below → (∀ x ∈ above, x.lanes &&& c.live = 0) → e.lanes &&& c.live ≠ 0 →
          c.popInto b = ({ c with stack := below } : GCore).setSlot b (issuingSlot e.pc (e.lanes &&& c.live) e.fmt)) ∧
        ((∀ e ∈ c.stack, e.lanes &&& c.live = 0) → c.popInto b = { c with stack := [] }))) ∧
    ((c.slotA.st = .issuing ∨ c.slotB.st = .issuing) → c.withdraw = c) ∧
    (c.slotA.st ≠ .issuing → c.slotB.st ≠ .issuing →
      ((∀ e ∈ c.stack, e.w = true ∨ e.lanes &&& c.live = 0) → c.withdraw = c) ∧
      ∀ b, (c.slot b).st = .joining →
        ((c.slot (!b)).st = .joining → if b then c.slotA.pc.toNat ≤ c.slotB.pc.toNat else c.slotB.pc.toNat < c.slotA.pc.toNat) →
        ∀ above e below, c.stack = above ++ e :: below → e.w = false → e.lanes &&& c.live ≠ 0 →
          (∀ x ∈ above, x.w = true ∨ x.lanes &&& c.live = 0) →
          let s := c.slot b
          c.withdraw =
            ({ c with stack := above ++ { w := true, fmt := s.fmt, lanes := s.lanes, pc := s.pc } :: below } : GCore).setSlot b
              (issuingSlot e.pc (e.lanes &&& c.live) e.fmt))

/-- A boundary outside a handler moves the paths after its landings: the releases, a pop into each idle slot, slot A first, and the
withdrawal. A group with live lanes of which no slot issues and one joins has come to a rejoin deadlock, cause 0x0B at the JOIN of slot A,
or of slot B where A is idle (07 R192). -/
def Sys2Proof.Claims.BoundariesMovePaths : Prop :=
  (∀ (s : State) id g, s.dev.group (.user id) = some g → g.asksFirmware = false → g.core.live ≠ 0 → g.core.handler = none →
    (∀ p ∈ g.core.pend, p.isRsmp = false ∧ p.rem ≠ 0) →
    ∃ g', (settle s.dev (.user id)).group (.user id) = some g' ∧
      g'.core = ((g.core.releases.popInto false).popInto true).withdraw) ∧
  ∀ (s : State) id g, s.dev.group (.user id) = some g → g.deferred = none → g.core.live ≠ 0 → g.retired = false →
    g.waitsData = false → g.asksFirmware = false →
    (∀ b, (g.core.slot b).st = .joining → (g.core.slot (!b)).st ≠ .issuing → (b = true → g.core.slotA.st = .idle) →
      afterBoundary s.dev (.user id) =
        takeTrap s.dev (.user id)
          { cause := 0x0B, code := 0, lane := none, addr := 0, slot := 7, write := false, bpc := (g.core.slot b).pc, slotB := b
            defer := false }) ∧
    (g.core.slotA.st = .issuing ∨ g.core.slotB.st = .issuing → afterBoundary s.dev (.user id) = s.dev)

/-- Divergence and reconvergence: BRD, JOIN, the split of a path, and the paths' moves at a boundary (07 R184, R186 to R192; 08 R209 to
R211). Where it rests on the model's choices, they are those of log entries 24, 34 and 39. -/
def Obligations.DivergentPaths : Prop :=
  BrdCompletes ∧ JoinCompletes ∧ BrdAndJoinTrap ∧ SplitKeepsEveryLane ∧ JoinsRelease ∧ StackedPathsMove ∧ BoundariesMovePaths

/-- NOP changes nothing (04 R108). GETFMT writes the slot's format register to s[D]. SETFMT writes its operand to the format register
of the issuing slot alone, which is that of the bundles to come; a value that is forbidden is cause 0x41 (04 R116). -/
def Sys2Proof.Claims.NopAndFormatComplete : Prop :=
  ∀ s b g o, CtlReady s b g o →
    exec (.nop o) s = .next s ∧
    (∀ n, o.d = .s n → SResult (.getfmt o) s b b g n [b.fmt]) ∧
    (fmtAllowed (cWord b o) = true →
      ∃ t, exec (.setfmt o) s = .next t ∧
        OnlyRegs s t b b g (g.core.setSlot b.slotB { g.core.slot b.slotB with fmt := cWord b o })) ∧
    (fmtAllowed (cWord b o) = false → Traps (.setfmt o) s b 0 (plainCause 0x41))

/-- EXIT completes outside a handler: the bundle will commit as a checkpoint bundle and its end retires every live lane of the issuing
slot, whatever POP.LEAVE asks for beside it. IRET completes in a handler: the bundle will commit as a checkpoint bundle and its end
leaves the path's slot idle. Each changes nothing else at once; in the other place each is cause 0x09 (04 R113, R121). -/
def Sys2Proof.Claims.ExitAndIretComplete : Prop :=
  (∀ s b g o, CtlReady s b g o →
    (b.regs.handler = none → exec (.exit o) s = .next { s with opn := some { b with redirect := .exit, ckAfter := true } } ∧
      Traps (.iret o) s b 0 (plainCause 0x09)) ∧
    (b.regs.handler ≠ none → exec (.iret o) s = .next { s with opn := some { b with redirect := .iret, ckAfter := true } } ∧
      Traps (.exit o) s b 0 (plainCause 0x09))) ∧
  (∀ (b : OpenBundle) (c : GCore), b.redirect = .exit → b.leaving c = b.lanes &&& c.live) ∧
  ∀ (b : OpenBundle) (c : GCore), b.redirect = .iret → (c.redirect b).slot b.slotB = idleSlot

/-- YIELD makes its group the youngest of its pair's age order and changes nothing else; a firmware context stands in no age order
(04 R115). -/
def Sys2Proof.Claims.YieldCompletes : Prop :=
  ∀ s b g o, CtlReady s b g o →
    (∀ id team tm core bank, b.gid = .user id → s.dev.teamOf b.gid = some (team, tm) → tm.place = some (core, bank) →
      exec (.yield o) s = .next { s with dev := s.dev.modCore core (fun c =>
        c.setAge bank (g.quad / 2) ((c.age bank (g.quad / 2)).filter (· != id) ++ [id])) }) ∧
    ∀ key, b.gid = .fw key → exec (.yield o) s = .next s

/-- PERF.SET gives the slot's live lanes the requested level, at most 15, and q5 says whether two live lanes differ. No other register, no
other group and no memory changes; the die's power state, and that of no other die, takes its target from the requests (04 R117). -/
def Sys2Proof.Claims.PerfSetCompletes : Prop :=
  ∀ s b g o, CtlReady s b g o →
    ∃ t c, exec (.perfSet o) s = .next t ∧ t.opn = some b ∧ t.agenda = s.agenda ∧ t.tick = s.tick ∧
      t.dev.group b.gid = some { g with core := c } ∧ (∀ k, k ≠ b.gid → t.dev.group k = s.dev.group k) ∧
      t.dev = { s.dev with groups := t.dev.groups, fw := t.dev.fw, dies := t.dev.dies } ∧
      (∀ k, k ≠ (workOf s b).die → t.dev.die k = s.dev.die k) ∧
      (t.dev.die (workOf s b).die = (s.dev.die (workOf s b).die).aim (dieGrant t.dev (workOf s b).die)) ∧
      c = { g.core with perf := c.perf, q := c.q } ∧
      (∀ l, l < 32 → c.perfAt l =
        if (slotLanes b).getLsbD l then BitVec.ofNat 4 (min (cWord b o).toNat 15) else g.core.perfAt l) ∧
      (c.qAt 5 = true ↔ ∃ l ∈ lanesOf g.core.live, ∃ k ∈ lanesOf g.core.live, c.perfAt l ≠ c.perfAt k) ∧
      ∀ n, n < 8 → n ≠ 5 → c.qAt n = g.core.qAt n

/-- TRAP takes cause 0x01 and HALT cause 0x10, with IMM15[7:0] as their code; BKPT takes cause 0xE0 with its tag when a debugger is
attached, and is a NOP when none is (04 R114, R118). -/
def Sys2Proof.Claims.SoftwareTrapsAreTaken : Prop :=
  ∀ s b g o, CtlReady s b g o →
    let code := o.imm.toNat % 256
    Traps (.trap o) s b 0 { plainCause 0x01 with code } ∧ Traps (.halt o) s b 0 { plainCause 0x10 with code } ∧
      ((s.dev.part (s.dev.partOf b.gid)).debugger = true → Traps (.bkpt o) s b 0 { plainCause 0xE0 with code }) ∧
      ((s.dev.part (s.dev.partOf b.gid)).debugger = false → exec (.bkpt o) s = .next s)

/-- IRET's end. The results that the handler issued land at its boundary, whatever they still had to count; then, with the path's slot idle,
the group is out of the handler: s56 to s63 and q4 to q6 are those of the interrupted paths and the handler's own are kept as the shadows, the
slots, their turn and the stack are those held, with the lanes that still live, and nothing else changes; then the paths move as at any
boundary. What the entry into a handler made, the return undoes (04 R121; 16 R333, R334). -/
def Sys2Proof.Claims.HandlersReturn : Prop :=
  (∀ (c : GCore) (b : OpenBundle) h, c.handler = some h → b.redirect = .iret →
    (c.redirect b).pend = c.pend.map (fun p => if h.firstOp ≤ p.op then { p with rem := 0 } else p)) ∧
  (∀ (c : GCore) h, c.handler = some h →
    (c.slotA.st ≠ .idle ∨ c.slotB.st ≠ .idle → c.afterLanding = c) ∧
    (c.slotA.st = .idle → c.slotB.st = .idle → ∃ c' : GCore,
      c.afterLanding = ((c'.releases.popInto false).popInto true).withdraw ∧
      c' = { c with s := c'.s, q := c'.q, shadowS := c'.shadowS, shadowQ := c'.shadowQ, handler := none, slotA := c'.slotA
                    slotB := c'.slotB, turnB := h.turnB, stack := h.stack } ∧
      (∀ r, r < 56 → c'.sAt r = c.sAt r) ∧
      (∀ i, i < 8 → c'.sAt (56 + i) = tgetD c.shadowS i 0 ∧ tgetD c'.shadowS i 0 = c.sAt (56 + i)) ∧
      c'.q.extractLsb' 4 3 = c.shadowQ ∧ c'.shadowQ = c.q.extractLsb' 4 3 ∧ (∀ n, n < 4 → c'.q.getLsbD n = c.q.getLsbD n) ∧
      ∀ b : Bool, let old := if b then h.slotB else h.slotA
        (old.lanes &&& c.live ≠ 0 → old.st ≠ .idle → c'.slot b = { old with lanes := old.lanes &&& c.live }) ∧
        (old.lanes &&& c.live = 0 ∨ old.st = .idle → (c'.slot b).st = .idle))) ∧
  ∀ (c : GCore) uvec op k, c.handler = none → c.slotA.lanes &&& c.live = c.slotA.lanes → c.slotB.lanes &&& c.live = c.slotB.lanes →
    (∀ b, (c.slot b).st ≠ .idle → (c.slot b).lanes ≠ 0) →
    let c' := (c.enterHandler uvec op k).leaveHandler
    c'.handler = none ∧ c'.slotA = c.slotA ∧ c'.slotB = c.slotB ∧ c'.turnB = c.turnB ∧ c'.stack = c.stack ∧ c'.pend = c.pend ∧
      (∀ r, r < 64 → c'.sAt r = c.sAt r) ∧ ∀ n, n < 7 → c'.q.getLsbD n = c.q.getLsbD n

/-- NOP, GETFMT, SETFMT, EXIT, IRET, YIELD, PERF.SET and BKPT with no debugger complete; TRAP, HALT and BKPT take their trap (04 R108,
R113 to R118, R121); a handler's end restores what its entry held (16 R333, R334). Where it rests on the model's choices, they are those of
log entries 24 and 34. -/
def Obligations.PathEndsTrapsAndLevels : Prop :=
  NopAndFormatComplete ∧ ExitAndIretComplete ∧ HandlersReturn ∧ YieldCompletes ∧ PerfSetCompletes ∧ SoftwareTrapsAreTaken

/-- SYS completes: the group of a program parks with the request when the bundle ends, and nothing else changes at once; in the firmware
context, which answers requests, s[D] takes 0. A service the manual does not list is cause 0xA2 (04 R120). -/
def Sys2Proof.Claims.SysParksTheGroup : Prop :=
  ∀ f ∈ [(0, Instr.sysRoundTrip), (1, .sysProgress), (2, .sysPageIn), (3, .sysGroupCount)],
    ∀ s b g o, CtlReady s b g o →
      (o.imm.toNat % 256 = f.1 →
        (∀ id, b.gid = .user id → exec (f.2 o) s = .next { s with opn := some { b with parkAs := .sys f.1 (cWord b o) o.d } }) ∧
        ∀ key n, b.gid = .fw key → o.d = .s n → SResult (f.2 o) s b b g n [0]) ∧
      (o.imm.toNat % 256 ≠ f.1 → Traps (f.2 o) s b 0 (plainCause 0xA2))

/-- The answer r is in s[n] of a group that is unparked, and in its kept state when no bundle has issued since the checkpoint; nothing
else of the group changes. The boundary of its bundle follows, and what is due there lands over the answer. -/
def Sys2Proof.Claims.AnswerTaken (g g' : Group) (n : BitVec 6) (r : Nat) : Prop :=
  g' = { g with park := .none, core := { g.core with s := g'.core.s }, ck := { g.ck with s := g'.ck.s } } ∧
    sAfter g.core g'.core n [BitVec.ofNat 32 r] ∧ (g.spanLen = 0 → sAfter g.ck g'.ck n [BitVec.ofNat 32 r]) ∧
    (g.spanLen ≠ 0 → g'.ck = g.ck)

/-- Firmware's answer to SYS arrives in s[D]: 0 for the round trip; 0 for a progress write, which the stream's progress register then
shows; for a page 2 when it is unmapped or past the last one, 1 when it is resident and 0 when its repair is queued, which waits when every
frame is pinned; the number of unretired groups for service 3. No other group changes, and nothing else but what the service says. The
boundary that the request held up follows (04 R120, 01 R23, 12 R269). -/
def Sys2Proof.Claims.SysAnswerArrives : Prop :=
  ∀ s id g team tm lid l v n service, s.dev.group (.user id) = some g → s.dev.teamOf (.user id) = some (team, tm) →
    s.dev.launchOf (.user id) = some (lid, l) → g.park = .sys service v (.s n) → service ≤ 3 →
    let page := v.toNat
    ∃ d g' r, Becomes (.sysAnswer id) s (boundary d (.user id)) ∧
      d.group (.user id) = some g' ∧ AnswerTaken g g' n r ∧ (∀ k, k ≠ .user id → d.group k = s.dev.group k) ∧
      (service = 0 → r = 0 ∧ d = { s.dev with groups := d.groups }) ∧
      (service = 1 → r = 0 ∧ d = { s.dev with groups := d.groups, parts := d.parts } ∧
        (∀ p, p ≠ l.part → d.part p = s.dev.part p) ∧ ((d.part l.part).stream l.stream).value = v ∧
        ((d.part l.part).stream l.stream).writes = min (((s.dev.part l.part).stream l.stream).writes + 1) (2 ^ 32 - 1)) ∧
      (service = 2 →
        (8192 ≤ page ∨ (tm.page page).state = .unmapped → r = 2 ∧ d = { s.dev with groups := d.groups }) ∧
        (page < 8192 → (tm.page page).state = .resident → r = 1 ∧ d = { s.dev with groups := d.groups }) ∧
        (page < 8192 → (tm.page page).state = .out ∨ (tm.page page).state = .sharedOut →
          r = 0 ∧ d = { (repairPage s.dev team l.spine.spu page false).getD
            (s.dev.modTeam team (fun t => { t with pageIns := t.pageIns ++ [page] })) with groups := d.groups })) ∧
      (service = 3 → d = { s.dev with groups := d.groups } ∧
        r = (tm.groups.filter (fun k => match s.dev.group (.user k) with | some x => !x.retired | none => false)).length) ∧
      ((∀ p ∈ g.core.pend, p.rem ≠ 0 ∧ p.isRsmp = false) → g.core.afterLanding = g.core → g.core.live ≠ 0 → g.core.deadlocked = false →
        g.deferred = none → g.stackWait = false →
        ∃ g2, (boundary d (.user id)).group (.user id) = some g2 ∧ g2.park = .none ∧ sAfter g.core g2.core n [BitVec.ofNat 32 r])

/-- SYS and the answers of firmware (04 R120). Where it rests on the model's choices, they are those of log entries 13 and 14. -/
def Obligations.SysRequestsAndAnswers : Prop :=
  SysParksTheGroup ∧ SysAnswerArrives

/-- WAITB. A misaligned object is cause 0x22; an address past the space or on an unmapped page 0x23, one in the stacks' range 0x24, and
a page that is out 0x28, when the frame demand fits; a poisoned phase word is cause 0xC1. On a sound object at hand the instruction
completes when bit 0 of the phase word differs from the parity, changing no register and no memory, and waits, its slot held for that
phase, while it does not (04 R122, 12 R266, 16 R330). Where it rests on the model's choices, they are those of log entries 25 and 30. -/
def Obligations.WaitbWaitsForPhase : Prop :=
  ∀ s b g o team t, CtlReady s b g o → s.dev.teamOf b.gid = some (team, t) →
    let addr := (cWord b o).toNat
    let st := (t.page (addr / 2048)).state
    (addr % 16 ≠ 0 → Traps (.waitb o) s b 0 { plainCause 0x22 with addr }) ∧
    (addr % 16 = 0 →
      (2 ^ 24 ≤ addr → Traps (.waitb o) s b 0 { plainCause 0x23 with addr }) ∧
      (0xFE0000 ≤ addr → addr < 2 ^ 24 → Traps (.waitb o) s b 0 { plainCause 0x24 with addr }) ∧
      (addr < 0xFE0000 →
        (st = .unmapped → Traps (.waitb o) s b 0 { plainCause 0x23 with addr }) ∧
        ((workOf s b).addDemand [addr / 2048] ≠ none →
          (st = .out ∨ st = .sharedOut → Traps (.waitb o) s b 0 { plainCause 0x28 with addr }) ∧
          (st = .resident →
            (scratchPoisoned s.dev t (addr + 8) = true → Traps (.waitb o) s b 0 { plainCause 0xC1 with addr }) ∧
            (scratchPoisoned s.dev t (addr + 8) = false →
              (phaseBit s.dev g t addr ≠ o.imm.getLsbD 0 →
                ∃ w, exec (.waitb o) s = .next { s with dev := w.dev, opn := some w.b } ∧ PageFound s b w) ∧
              (phaseBit s.dev g t addr = o.imm.getLsbD 0 → Waits (.waitb o) s b (some (addr, o.imm.getLsbD 0)))))) ∧
        ((workOf s b).addDemand [addr / 2048] = none → st ≠ .unmapped → Traps (.waitb o) s b 0 (plainCause 0x2F))))

/-- A named barrier takes the arrival: BAR.ARRIVE goes on with q6 = 0, BAR.WAIT holds its group for the phase; the phase completes when
its count is reached. An arrival that does not fit is cause 0x0E (04 R123, R125). -/
def Sys2Proof.Claims.NamedBarriersTakeArrivals : Prop :=
  ∀ s b g o id team t l, BarReady s b g o id team t → s.dev.launch t.launch = some l →
    let n := o.imm.toNat % 16
    let arrived := t.setBar n ((t.bar n).arrive id (barCount s g t o) (if o.imm.toNat / 16 = 0 then some g.producer else none) false)
    let going := (s.dev.setTeam team arrived).setGroup b.gid { g with core := (zeroed g).setQ6 false }
    let waiting := (s.dev.setTeam team arrived).setGroup b.gid { g with waits := .barrier n (t.bar n).phase, core := zeroed g }
    (arrivalFits s g t l o id →
      exec (.barArrive o) s = .next { s with dev := completeBarrier going team n } ∧
      exec (.barWait o) s = .next { s with dev := completeBarrier waiting team n }) ∧
    (¬ arrivalFits s g t l o id → Traps (.barArrive o) s b 0 (plainCause 0x0E) ∧ Traps (.barWait o) s b 0 (plainCause 0x0E))

/-- A phase whose arrivals reach its count completes: the phase number rises by 1, no arrival is left, and every group of the team that
waited for it goes on with q6 = 0; else nothing changes (04 R125, R128). -/
def Sys2Proof.Claims.FullPhaseCompletes : Prop :=
  ∀ d team n t, d.team team = some t →
    ((t.bar n).full = false → completeBarrier d team n = d) ∧
    ((t.bar n).full = true →
      (completeBarrier d team n).team team = some (t.setBar n { Barrier.reset with phase := (t.bar n).phase + 1, solo := (t.bar n).solo }) ∧
      ∀ id g, id ∈ t.groups → d.group (.user id) = some g → g.waits = .barrier n (t.bar n).phase →
        (completeBarrier d team n).group (.user id) =
          some { g with waits := .none, core := g.core.setQ6 false, ck := g.ck.setQ6 false })

/-- The named barriers: arrivals, and a phase whose arrivals are complete (04 R123, R125, R128). Where it rests on the model's choices,
they are those of log entry 27. -/
def Obligations.NamedBarriers : Prop :=
  NamedBarriersTakeArrivals ∧ FullPhaseCompletes

/-- BAR.TEAM and BAR.GRID arrive with every unretired group as the count and wait; BAR.GRID outside a resident grid is cause 0x11
(04 R124). -/
def Sys2Proof.Claims.TeamAndGridBarriersWait : Prop :=
  ∀ s b g o id team t l, BarReady s b g o id team t → s.dev.launch t.launch = some l →
    let arrived := t.setBar 16 ((t.bar 16).arrive id (unretired s.dev t).length none true)
    let atTeam := (s.dev.setTeam team arrived).setGroup b.gid { g with waits := .barrier 16 (t.bar 16).phase, core := zeroed g }
    let atGrid := (s.dev.setLaunch t.launch { l with grid := l.grid.arrive id (gridGroups s.dev t.launch l) none true }).setGroup b.gid
      { g with waits := .grid l.grid.phase, core := zeroed g }
    exec (.barTeam o) s = .next { s with dev := completeBarrier atTeam team 16 } ∧
    (l.rgrid = false → Traps (.barGrid o) s b 0 (plainCause 0x11)) ∧
    (l.rgrid = true → (Released s b true → exec (.barGrid o) s = .next { s with dev := completeGrid atGrid t.launch }) ∧
      (¬ Released s b true → Waits (.barGrid o) s b none))

/-- What stops a barrier instruction, holds it back, or lets it pass without arriving: a handler (cause 0x09), divergence (cause 0x0A), a
release that is not ready (it waits), and a group of the team that was killed, when it completes at once with q6 = 1. A firmware context
has no team: there it completes with q6 = 0 (04 R126 to R128, 16 R333). -/
def Sys2Proof.Claims.BarriersOutOfOrder : Prop :=
  ∀ i ∈ [Instr.barArrive, .barWait, .barTeam, .barGrid], ∀ s b g o, CtlReady s b g o →
    (b.regs.handler ≠ none → Traps (i o) s b 0 (plainCause 0x09)) ∧
    (b.regs.handler = none → (b.regs.slot (!b.slotB)).st ≠ .idle → Traps (i o) s b 0 (plainCause 0x0A)) ∧
    (b.regs.handler = none → (b.regs.slot (!b.slotB)).st = .idle →
      (¬ Released s b false → Waits (i o) s b none) ∧
      (Released s b false →
        (g.abandon = true →
          ∃ t, exec (i o) s = .next t ∧ OnlyGroup s t b b { g with abandon := false, core := (zeroed g).setQ6 true }) ∧
        (g.abandon = false → s.dev.teamOf b.gid = none →
          ∃ t, exec (i o) s = .next t ∧ OnlyRegs s t b b g ((zeroed g).setQ6 false))))

/-- The team and the grid barrier, and what stops any barrier instruction (04 R124, R126 to R128). Where it rests on the model's choices,
they are those of log entries 1, 27 and 34. -/
def Obligations.TeamAndGridBarriers : Prop :=
  TeamAndGridBarriersWait ∧ BarriersOutOfOrder

/-- The uniform predicate functions write PD from PA and PB, or QMOV from SA when PA is none; XMOV and XLI fill a staging register, XLI
from both literals or with cause 0x07 (04 R129, R130). -/
def Obligations.UniformPredicatesAndStaging : Prop :=
  ∀ s b g o, CtlReady s b g o →
    let x := predBit b o.pa 0
    let y := predBit b o.pb 0
    QResult (.qand o) s b g o.pd (x && y) ∧ QResult (.qor o) s b g o.pd (x || y) ∧ QResult (.qxor o) s b g o.pd (x ^^ y) ∧
      QResult (.qnot o) s b g o.pd (!x) ∧
      QResult (.qmov o) s b g o.pd (if o.pa = .none then decide (cWord b o ≠ 0) else x) ∧
      XResult (.xmov o) s b g o.d (cPair b o) ∧
      (∀ k0 k1, b.lits = [k0, k1] → XResult (.xli o) s b g o.d (k1 ++ k0)) ∧
      (b.lits.length < 2 → Traps (.xli o) s b 0 (plainCause 0x07))

-- memory operations

/-- LD.G issues when its checks pass: a fresh operation number and a pending result with one line request for each line that its elements
lie in, to land when LOOK more bundles of the path have issued; no register changes, and the checks of an access to a migrating segment
are kept. It waits while a TST of the group has still to write a byte it reads; a failing check traps with the lowest failing lane's cause
(11 R246, R247; 14 R300, R302). -/
def Sys2Proof.Claims.GlobalLoadIssues : Prop :=
  ∀ s b g o, MemReady s b g o →
    (∀ as, globalAccs s b o readNeeds false = .ok as →
      (noOut g as (msBytes o.size) →
        ∃ t g' p, exec (.ldG o) s = .next t ∧ GlobalIssued s t b g' ∧
          g' = { g with nextOp := g.nextOp + 1, checks := g'.checks, core := { classed o g with pend := g.core.pend ++ [p] } } ∧
          (noneWaits as → g'.checks = g.checks) ∧
          p = loadPending ((workOf s b).noteClass o) o g.nextOp (mActive b o) (loadDst o).1 (loadDst o).2 as ∧
          p.op = g.nextOp ∧ p.rem = b.lookM + 1 ∧ ∀ line, line ∈ p.lines ↔ ∃ a ∈ as, ∃ va pa, a.at_ = some (va, pa) ∧ line = va / 64) ∧
      (¬ noOut g as (msBytes o.size) → Waits (.ldG o) s b none)) ∧
    ∀ c, globalAccs s b o readNeeds false = .error c → Traps (.ldG o) s b 3 c

/-- REC.LD is the lowest active lane's access of 16 bytes alone, with a buffer record as its destination (14 R310). -/
def Sys2Proof.Claims.RecordLoadIssues : Prop :=
  ∀ s b g o, MemReady s b g o →
    (∀ as, recAccs s b o = .ok as →
      (noOut g as 16 →
        ∃ t g' p, exec (.recLd o) s = .next t ∧ GlobalIssued s t b g' ∧
          g' = { g with nextOp := g.nextOp + 1, checks := g'.checks, core := { classed o g with pend := g.core.pend ++ [p] } } ∧
          (noneWaits as → g'.checks = g.checks) ∧
          p = loadPending ((workOf s b).noteClass o) o g.nextOp (mActive b o) (.rcd (o.ofs.toNat % 32)) true as ∧
          p.op = g.nextOp ∧ p.rem = b.lookM + 1) ∧
      (¬ noOut g as 16 → Waits (.recLd o) s b none)) ∧
    ∀ c, recAccs s b o = .error c → Traps (.recLd o) s b 3 c

/-- LD.S issues when every lane's address passes: the bytes that the group sees are read at issue and land by lookahead; nothing else of
the group changes. A lane whose word is poisoned gets no value, and a deferred trap is noted. After an acquire that has not received its data
the bundle goes on too, and the reads are kept until it has. A failing address traps (12 R266, R268; 13 R286; 14 R302; 22 R425). -/
def Sys2Proof.Claims.ScratchLoadIssues : Prop :=
  ∀ s b g o, MemReady s b g o →
    (∀ c, scratchLanes ((workOf s b).noteClass o) o (msBytes o.size) false (mActive b o) = .error c → Traps (.ldS o) s b 3 c) ∧
    ∀ w as team tm, scratchLanes ((workOf s b).noteClass o) o (msBytes o.size) false (mActive b o) = .ok (w, as) →
      s.dev.teamOf b.gid = some (team, tm) → (s.dev.part (workOf s b).part).inj.en = false →
      let bad (a : Nat × Nat) : Bool := scratchBad s.dev g tm g.nextOp a.2 (msBytes o.size)
      ∃ t g' p, exec (.ldS o) s = .next t ∧ GroupIssued s t b w.b g' ∧ PagesFound s t b w ∧
        g' = { g with nextOp := g.nextOp + 1, deferred := g'.deferred, core := { classed o g with pend := g.core.pend ++ [p] } } ∧
        p.op = g.nextOp ∧ p.rem = b.lookM + 1 ∧ p.dst = (loadDst o).1 ∧
        (g.behindAcquire g.nextOp = false →
          (as.any bad = false → g'.deferred = g.deferred) ∧ (as.any bad = true → g'.deferred ≠ none) ∧ p.scr = [] ∧
          p.vals = issuedValues b o
            ((as.filter (fun a => !bad a)).map (fun a => (a.1, scratchSeen s.dev g tm g.nextOp a.2 (msBytes o.size))))) ∧
        (g.behindAcquire g.nextOp = true → g'.deferred = g.deferred ∧ p.scr = as ∧ p.arrived = false ∧ p.vals = [])

/-- The loads LD.G, REC.LD and LD.S (14 R300, R302, R310; 12 R266). Where it rests on the model's choices, they are those of log entries
25 and 39. -/
def Obligations.LoadInstructionsIssue : Prop :=
  GlobalLoadIssues ∧ RecordLoadIssues ∧ ScratchLoadIssues

/-- ST.G and ST.S: a store whose checks pass puts its lanes' bytes into the hamper, in ascending lane order, under a fresh operation
number, and changes no register, no other group and no byte of memory; a span that would need more than 64 entries takes cause 0x0D, and a
failing check its cause (13 R278, 14 R303). Where it rests on the model's choices, they are those of log entries 25 and 39. -/
def Obligations.StoresEnterTheHamper : Prop :=
  ∀ s b g o, MemReady s b g o →
    (∀ as, globalAccs s b o writeNeeds false = .ok as →
      ((hamperEntries (g.hamper ++ globalBytes s b g o as)).length ≤ 64 →
        ∃ t g', exec (.stG o) s = .next t ∧ GlobalIssued s t b g' ∧ HamperTook o g g' (globalBytes s b g o as) ∧
          (noneWaits as → g'.checks = g.checks)) ∧
      (64 < (hamperEntries (g.hamper ++ globalBytes s b g o as)).length → Traps (.stG o) s b 3 (plainCause 0x0D))) ∧
    (∀ c, globalAccs s b o writeNeeds false = .error c → Traps (.stG o) s b 3 c) ∧
    (∀ w as, scratchLanes (workOf s b) o (msBytes o.size) true (mActive b o) = .ok (w, as) →
      ((hamperEntries (g.hamper ++ scratchWrites s b g o as)).length ≤ 64 →
        ∃ t g', exec (.stS o) s = .next t ∧ GroupIssued s t b w.b g' ∧ PagesFound s t b w ∧ HamperTook o g g' (scratchWrites s b g o as) ∧
          g'.checks = g.checks) ∧
      (64 < (hamperEntries (g.hamper ++ scratchWrites s b g o as)).length → Traps (.stS o) s b 3 (plainCause 0x0D))) ∧
    (∀ c, scratchLanes (workOf s b) o (msBytes o.size) true (mActive b o) = .error c → Traps (.stS o) s b 3 c)

/-- What a FENCE's order asks for holds: as an acquire the group's earlier loads have read; as a release its earlier stores are visible
too, at die scope and wider at their home slices (14 R306, 13 R280). -/
def Sys2Proof.Claims.FenceHolds (s : State) (b : OpenBundle) (g : Group) (o : MOp) : Prop :=
  g.loadsRead g.nextOp = true ∧ (orderReleases o.order = true → releaseReady s.dev b.gid (Scope.isWide o.scope) g.nextOp = true)

/-- FENCE never holds its group back. Where what its order asks for holds, it is done: as an acquire at die scope or wider it drops the
partition's lines from the core's L1, and changes nothing else. Until then it is kept: an acquire keeps back the group's later loads and
stores, a release its later stores and atomics (14 R306, 13 R280). -/
def Sys2Proof.Claims.FenceCompletes : Prop :=
  ∀ s b g o, MemReady s b g o → (∀ f ∈ g.core.fences ++ g.ck.fences, f.op < g.nextOp) →
    let f : FenceWait := { op := g.nextOp, acq := orderAcquires o.order, rel := orderReleases o.order, wide := Scope.isWide o.scope }
    let kept := { g with nextOp := g.nextOp + 1, core := { g.core with fences := g.core.fences ++ [f] } }
    (FenceHolds s b g o →
      exec (.fence o) s =
        .next { s with dev := acquireL1 (s.dev.setGroup b.gid { g with nextOp := g.nextOp + 1 }) b.gid (f.acq && f.wide) }) ∧
    (¬ FenceHolds s b g o → exec (.fence o) s = .next { s with dev := s.dev.setGroup b.gid kept }) ∧
    (g.retired = false → g.halted = false → ∀ op, g.nextOp < op →
      (f.acq = true → kept.behindAcquire op = true) ∧ (f.rel = true → kept.behindRelease op = true)) ∧
    ∀ d (x : Group) w, (x.behindAcquire w.op = true ∨ x.behindRelease w.op = true → storeWaits d b.gid x w = true) ∧
      ∀ p pa, x.behindAcquire p.op = true → mayAnswer x p pa = false

/-- PREF completes and raises no trap. Where nothing disturbs the core it changes its L1 alone: a line that it adds holds what memory
holds; with a malformed record it does nothing (14 R312). -/
def Sys2Proof.Claims.PrefCompletes : Prop :=
  ∀ s b g o, MemReady s b g o →
    let core := (workOf s b).coreNo
    (∃ t, exec (.pref o) s = .next t ∧ t.opn = some b ∧ t.agenda = s.agenda ∧ t.tick = s.tick) ∧
    ((recOf s b o).bad = true → exec (.pref o) s = .next s) ∧
    (Quiet s core (workOf s b).part → ∃ t, exec (.pref o) s = .next t ∧ t.dev.mem = s.dev.mem ∧
      t.dev = { s.dev with groups := t.dev.groups, fw := t.dev.fw, cores := t.dev.cores } ∧ (∀ k, t.dev.group k = s.dev.group k) ∧
      (∀ k, k ≠ core → t.dev.core k = s.dev.core k) ∧
      t.dev.core core = { s.dev.core core with l1 := (t.dev.core core).l1, l1First := (t.dev.core core).l1First } ∧
      ∀ key line, tget (t.dev.core core).l1 key = some line →
        tget (s.dev.core core).l1 key = some line ∨ ∃ n, line = readBytes s.dev.mem.hbm (64 * n) 64)

/-- The L1 invalidations complete and raise no trap: L1INV drops the lines its active lanes name through a record, L1INV.ALL every line
of the partition, L1INV.REC every line that overlaps the record's span; a malformed record drops none (14 R313). -/
def Sys2Proof.Claims.InvalidationsComplete : Prop :=
  ∀ s b g o, MemReady s b g o →
    let w := workOf s b
    let r := recOf s b o
    (r.bad = true → exec (.l1inv o) s = .next s ∧ exec (.l1invRec o) s = .next s) ∧
    (r.span = 0 → exec (.l1invRec o) s = .next s) ∧
    (r.bad = false → ∃ t, exec (.l1inv o) s = .next t ∧
      L1Lost s t b w.coreNo (fun key => ∃ l ∈ lanesOf (mActive b o), key = l1Key w.part (r.va (laneIndex w o l)))) ∧
    (∃ t, exec (.l1invAll o) s = .next t ∧ L1Lost s t b w.coreNo (fun key => key / 2 ^ 51 = w.part)) ∧
    (r.bad = false → 0 < r.span → ∃ t, exec (.l1invRec o) s = .next t ∧
      L1Lost s t b w.coreNo (fun key =>
        key / 2 ^ 51 = w.part ∧ r.base / 64 ≤ key % 2 ^ 51 ∧ key % 2 ^ 51 ≤ (r.base + r.span - 1) / 64))

/-- REC.MK makes a buffer record of four s registers at once and changes nothing else (14 R311). -/
def Sys2Proof.Claims.RecordMakeCompletes : Prop :=
  ∀ s b g o n, MemReady s b g o → o.da = .s n → ∃ t c, exec (.recMk o) s = .next t ∧ OnlyRegs s t b b g c ∧ c = { g.core with b := c.b } ∧
    ∀ m k, m < 32 → k < 4 → c.bWord m k = if m = o.ofs.toNat % 32 then b.regs.sAt (n.toNat + k) else g.core.bWord m k

/-- The page hints complete and raise no trap. SPG.IN makes the repair of a read for each page it names, where a frame can be had; SPG.OUT
pages out each resident page it names that is not pinned. No register changes (14 R314, 12 R269). -/
def Sys2Proof.Claims.PageHintsComplete : Prop :=
  ∀ s b g o, MemReady s b g o →
    (∀ team t, s.dev.teamOf b.gid = some (team, t) →
      let pages := hintPages (workOf s b) o (mActive b o)
      exec (.spgIn o) s = .next { s with dev := pages.foldl (fun d p => (repairPage d team (spuOf d team) p false).getD d) s.dev } ∧
        exec (.spgOut o) s = .next { s with dev := pages.foldl (fun d p => if pinned d team p then d else pageOut d team p) s.dev } ∧
        ∀ p ∈ pages, p < 8128) ∧
    (s.dev.teamOf b.gid = none → exec (.spgIn o) s = .next s ∧ exec (.spgOut o) s = .next s) ∧
    ∃ t u, exec (.spgIn o) s = .next t ∧ exec (.spgOut o) s = .next u ∧ ∀ k, t.dev.group k = s.dev.group k ∧ u.dev.group k = s.dev.group k

/-- FENCE, PREF, the L1 invalidations, REC.MK and the page hints complete, and what each changes (14 R306, R311 to R314; 12 R269). Where
it rests on the model's choices, they are those of log entries 25, 39 and 40. -/
def Obligations.FencesAndHintsComplete : Prop :=
  FenceCompletes ∧ PrefCompletes ∧ InvalidationsComplete ∧ RecordMakeCompletes ∧ PageHintsComplete

/-- What stops a TLD or a TST: an accumulator tile that the launch lacks is cause 0x60, a ring that is not configured 0x61, a failing check
of an element its cause; a migrating segment, or an earlier access of the group that is not done, makes it wait (14 R307, R308; 13 R276). -/
def Sys2Proof.Claims.TileTransfersStop : Prop :=
  ∀ s b g o, MemReady s b g o →
    (g.acquireOp ≠ none → Waits (.tld o) s b none) ∧
    (∀ c, tilePlace (workOf s b) o = .error c → (g.acquireOp = none → Traps (.tld o) s b 3 c) ∧ Traps (.tst o) s b 3 c) ∧
    (∀ team t lid l, s.dev.teamOf b.gid = some (team, t) → s.dev.launchOf b.gid = some (lid, l) →
      (o.ofs.getLsbD 4 = true → l.spine.tiles ≤ o.ofs.toNat % 16 → tilePlace (workOf s b) o = .error (plainCause 0x60)) ∧
      (o.ofs.getLsbD 4 = false → (t.ring (o.ofs.toNat % 16)).conf = none → tilePlace (workOf s b) o = .error (plainCause 0x61))) ∧
    ∀ team t place, tilePlace (workOf s b) o = .ok (team, t, place) →
      (g.acquireOp = none → ∀ c, tileAccs (workOf s b) o (mActive b o) readNeeds place.rowBytes = .error c → Traps (.tld o) s b 3 c) ∧
      (∀ c, tileAccs (workOf s b) o (mActive b o) writeNeeds place.rowBytes = .error c → Traps (.tst o) s b 3 c) ∧
      (∀ as, tileAccs (workOf s b) o (mActive b o) readNeeds place.rowBytes = .ok as →
        ¬ (noneWaits as ∧ noOut g as (2 ^ (recOf s b o).esize)) → Waits (.tld o) s b none) ∧
      ∀ as, tileAccs (workOf s b) o (mActive b o) writeNeeds place.rowBytes = .ok as → ¬ noneWaits as → Waits (.tst o) s b none

/-- TLD into an accumulator tile completes. Where nothing disturbs the core and its lines are sound, all 32 rows of the tile become what
memory holds, an inactive lane's zeros, and no other tile or register changes; while the tile is in use the rows wait for their turn
(14 R307, R309; 16 R321). -/
def Sys2Proof.Claims.TileLoadCompletes : Prop :=
  ∀ s b g o id tile as core, MemReady s b g o → b.gid = .user id → s.dev.coreOf b.gid = some core → g.acquireOp = none →
    tileAt s b o readNeeds tile as → noneWaits as → noOut g as (2 ^ (recOf s b o).esize) → noEarlier g o as →
    let e := 2 ^ (recOf s b o).esize
    (∃ t, exec (.tld o) s = .next t ∧ t.opn = some b) ∧
    (Quiet s core (workOf s b).part → PlainLines s g core (workOf s b).part e as →
      (tileBusy s.dev core g id tile = false →
        ∃ t g', exec (.tld o) s = .next t ∧ GroupIssued s t b b g' ∧ t.dev.mem = s.dev.mem ∧
          g' = { g with nextOp := g.nextOp + 1, core := { classed o g with acc := g'.core.acc } } ∧
          (∀ n row col, row < 32 → col < 32 → n ≠ tile → g'.core.accAt n row col = g.core.accAt n row col) ∧
          ∀ l j, l < 32 → j < 128 →
            g'.core.tileByte tile (128 * l + j) = if (mActive b o).getLsbD l then rowByte s as e l j else 0) ∧
      (tileBusy s.dev core g id tile = true →
        ∃ t g' x, exec (.tld o) s = .next t ∧ GroupIssued s t b b g' ∧ t.dev.mem = s.dev.mem ∧
          g' = { g with nextOp := g.nextOp + 1, core := { classed o g with tiles := g.core.tiles ++ [x] } } ∧
          x.op = g.nextOp ∧ x.tile = tile ∧ x.load = true ∧ x.outs = []))

/-- TLD into a ring completes when the ring has room, no other agent owns its pushes and the tile is at hand: the tile joins the span's
pushes at the ring's port position, which rises by 1, and no byte of memory or scratchpad changes before the checkpoint (12 R272, 14 R309,
16 R323). -/
def Sys2Proof.Claims.RingPushCompletes : Prop :=
  ∀ s b g o id team t n c as core, MemReady s b g o → b.gid = .user id → s.dev.coreOf b.gid = some core → g.acquireOp = none → 0 < c.tsize →
    tilePlace (workOf s b) o = .ok (team, t, .ring n c) → tileAccs (workOf s b) o (mActive b o) readNeeds (c.tsize * 2) = .ok as →
    noneWaits as → noOut g as (2 ^ (recOf s b o).esize) → noEarlier g o as →
    let r := t.ring n
    (c.tcount ≤ (g.core.pushes.filter (fun p => p.ring == n)).length → Traps (.tld o) s b 3 (plainCause 0x0D)) ∧
    ((g.core.pushes.filter (fun p => p.ring == n)).length < c.tcount →
      (¬ (mine r.pushOwner id ∧ r.rtail - r.head < c.tcount) → Waits (.tld o) s b none) ∧
      (mine r.pushOwner id → r.rtail - r.head < c.tcount → TileAtHand t (c.tileAddr r.rtail) c.bytes →
        (∃ u, exec (.tld o) s = .next u) ∧
        (Quiet s core (workOf s b).part → PlainLines s g core (workOf s b).part (2 ^ (recOf s b o).esize) as →
          ∃ u g' data, exec (.tld o) s = .next u ∧ GroupIssued s u b b g' ∧
            u.dev.mem = s.dev.mem ∧ g' = { g with core := { classed o g with pushes := g.core.pushes ++ [{ ring := n, pos := r.rtail, data }] } } ∧
            u.dev.team team = some (t.setRing n { r with rtail := r.rtail + 1, pushOwner := some (.group id) }) ∧
            (∀ k, k ≠ team → u.dev.team k = s.dev.team k) ∧
            ∀ l j, l < 32 → j < c.tsize * 2 →
              data[c.tsize * 2 * l + j]? =
                some (if (mActive b o).getLsbD l then rowByte s as (2 ^ (recOf s b o).esize) l j else 0))))

/-- TST completes. From an accumulator tile its bytes join the group's stores, or wait for their turn while the tile is in use; from a ring
that holds a tile, whose pops no other group owns, once no acquire waits for its data, the tile at the port's head is read and popped at the checkpoint. No register changes
and no byte of memory (14 R307, R309; 13 R291; 16 R323). -/
def Sys2Proof.Claims.TileStoreCompletes : Prop :=
  ∀ s b g o id, MemReady s b g o → b.gid = .user id → (hamperEntries g.hamper).length ≤ 64 →
    (∀ tile as, tileAt s b o writeNeeds tile as → noneWaits as →
      let outs := tstOuts as (2 ^ (recOf s b o).esize) 128
      ∃ t g', exec (.tst o) s = .next t ∧ GlobalIssued s t b g' ∧
        (tileBusy s.dev (workOf s b).coreNo g id tile = false → HamperTook o g g' (tstBytes b g outs (g.core.tileByte tile))) ∧
        (tileBusy s.dev (workOf s b).coreNo g id tile = true →
          g' = { g with nextOp := g.nextOp + 1, core := { classed o g with tiles := g'.core.tiles } } ∧
            ∃ x, g'.core.tiles.getLast? = some x ∧ g'.core.tiles.length = g.core.tiles.length + 1 ∧ x.op = g.nextOp ∧ x.tile = tile ∧
              x.load = false ∧ x.outs = outs)) ∧
    ∀ team t n c as, tilePlace (workOf s b) o = .ok (team, t, .ring n c) → 0 < c.tsize →
      tileAccs (workOf s b) o (mActive b o) writeNeeds (c.tsize * 2) = .ok as → noneWaits as →
      let r := t.ring n
      let addr := c.tileAddr r.rhead
      (c.tcount ≤ (g.core.pops.filter (fun p => p.1 == n)).length → Traps (.tst o) s b 3 (plainCause 0x0D)) ∧
      ((g.core.pops.filter (fun p => p.1 == n)).length < c.tcount →
        (¬ (g.acquireOp = none ∧ mine r.popOwner id ∧ r.rhead < r.tail) → Waits (.tst o) s b none) ∧
        (g.acquireOp = none → mine r.popOwner id → r.rhead < r.tail → TileAtHand t addr c.bytes →
          ∃ u g', exec (.tst o) s = .next u ∧ GroupIssued s u b b g' ∧
            (s.dev.mem.planted = [] → u.dev.mem = s.dev.mem) ∧
            g' = { g with nextOp := g.nextOp + 1, deferred := g'.deferred
                          hamper := g.hamper ++ tstBytes b g (tstOuts as (2 ^ (recOf s b o).esize) (c.tsize * 2))
                            (fun k => (scratchBytes s.dev t addr c.bytes).getD k 0)
                          core := { classed o g with tiles := g'.core.tiles, pops := g.core.pops ++ [(n, r.rhead)] } } ∧
            u.dev.team team = some (t.setRing n { r with rhead := r.rhead + 1, popOwner := some (.group id) }) ∧
            ∀ k, k ≠ team → u.dev.team k = s.dev.team k))

/-- The checkpoint of a span with ring operations. A push whose tile's pages are at hand is written, TAIL stands behind its position and its
group's ownership of the pushes ends. A pop is committed: HEAD advances over every position whose pop is committed, in ascending order, and
stops at the first whose pop is not; the ownership of the pops ends. The other rings, and memory outside the cores, are as before
(12 R272; 16 R323, R324). -/
def Sys2Proof.Claims.RingsCommit : Prop :=
  ∀ (s : State) id g team t, s.dev.group (.user id) = some g → g.kind = .user team → s.dev.team team = some t →
    let d := commitRings s.dev (.user id)
    let emptied (g' : Group) : Prop :=
      OnlyWoken { g with core := { g.core with pushes := [], pops := [] } } g' ∧ d.group (.user id) = some g'
    (∀ p c, g.core.pushes = [p] → g.core.pops = [] → (t.ring p.ring).conf = some c → p.data.length = c.bytes →
      PagesAtHand s t [(c.tileAddr p.pos, c.bytes)] →
      ∃ t' g', emptied g' ∧ ScratchTakes s.dev d team t t' (c.tileAddr p.pos) p.data ∧
        ∀ k, t'.ring k = if k = p.ring then { t.ring k with tail := p.pos + 1, pushOwner := none } else t.ring k) ∧
    ∀ n pos, g.core.pushes = [] → g.core.pops = [(n, pos)] →
      ∃ (t' : Team) (g' : Group) (r : Ring), emptied g' ∧ d.mem = s.dev.mem ∧ d.team team = some t' ∧ t' = { t with rings := t'.rings } ∧
        (∀ k, t'.ring k = if k = n then { t.ring k with head := r.head, popDone := r.popDone, popOwner := none } else t.ring k) ∧
        (t.ring n).head ≤ r.head ∧ (∀ x, (t.ring n).head ≤ x → x < r.head → x = pos ∨ x ∈ (t.ring n).popDone) ∧
        ¬ (r.head = pos ∨ r.head ∈ (t.ring n).popDone) ∧
        ∀ x, x ∈ r.popDone ↔ (x = pos ∨ x ∈ (t.ring n).popDone) ∧ ¬ ((t.ring n).head ≤ x ∧ x < r.head)

/-- TLD and TST on accumulator tiles and on rings, and the checkpoint that commits a span's pushes and pops (14 R307 to R309; 12 R272; 13
R291; 16 R321, R323, R324). Where it rests on the model's choices, they are those of log entries 25 and 39. -/
def Obligations.TileTransfersComplete : Prop :=
  TileTransfersStop ∧ TileLoadCompletes ∧ RingPushCompletes ∧ TileStoreCompletes ∧ RingsCommit

/-- The integer atomics' new value (14 R304); the operands and the value read are patterns of w bits. -/
def Sys2Proof.Claims.AtomicFunctions : Prop :=
  ∀ k signed w old a c, w = 32 ∨ w = 64 → old < 2 ^ w → a < 2 ^ w → atomNew k signed w old a c = atomValue k signed w old a c

/-- ATOM.G completes when its checks pass and, as a release, when the earlier accesses are done; it waits until then. Where nothing
disturbs the core and its lines are sound, its lanes act in order on memory: each element's bytes become the new value's, every other byte
of memory is as before, and what the lanes read is on its way to DST. A failing check traps with its cause (14 R304, R305; 13 R284). -/
def Sys2Proof.Claims.GlobalAtomicsComplete : Prop :=
  ∀ f ∈ globalAtomics, ∀ s b g o, MemReady s b g o →
    (g.acquireOp ≠ none → Waits (f.2 o) s b none) ∧
    (g.acquireOp = none →
      (∀ c, globalAccs s b o bothNeeds true = .error c → Traps (f.2 o) s b 3 c) ∧
      ∀ as, globalAccs s b o bothNeeds true = .ok as →
        let ready := noneWaits as ∧ noOut g as (msBytes o.size) ∧ g.behindRelease g.nextOp = false ∧
          (orderReleases o.order = true → Released s b (Scope.isWide o.scope))
        (¬ ready → Waits (f.2 o) s b none) ∧
        (ready →
          (∃ t, exec (f.2 o) s = .next t ∧ t.opn = some b ∧ t.agenda = s.agenda ∧ t.tick = s.tick) ∧
          (Quiet s (workOf s b).coreNo (workOf s b).part →
            (∀ a ∈ as, ∀ va pa, a.at_ = some (va, pa) → tagCause s.dev (workOf s b).part (lineOf pa) = none) →
            let r := atomRun f.1 (workOf s b) o s.dev.mem.hbm (as.map (fun a => (a.lane, a.at_.map (fun x => x.2))))
            ∃ t g', exec (f.2 o) s = .next t ∧ GroupIssued s t b b g' ∧ AtomIssued b g g' o r.2 ∧
              (∀ a, readByte t.dev.mem.hbm a = readByte r.1 a) ∧ t.dev.mem = { s.dev.mem with hbm := t.dev.mem.hbm } ∧
              t.dev = { s.dev with groups := t.dev.groups, fw := t.dev.fw, cores := t.dev.cores, dies := t.dev.dies, mem := t.dev.mem } ∧
              ∀ k, t.dev.core k = { s.dev.core k with l1 := (t.dev.core k).l1 })))

/-- ATOM.S does the same at the frames of its pages, when no word it reads is poisoned (14 R304, R305; 12 R266). -/
def Sys2Proof.Claims.ScratchAtomicsComplete : Prop :=
  ∀ f ∈ scratchAtomics, ∀ s b g o, MemReady s b g o →
    (g.acquireOp ≠ none → Waits (f.2 o) s b none) ∧
    (g.acquireOp = none →
      (∀ c, scratchLanes ((workOf s b).noteClass o) o (msBytes o.size) true (mActive b o) = .error c → Traps (f.2 o) s b 3 c) ∧
      ∀ w as, scratchLanes ((workOf s b).noteClass o) o (msBytes o.size) true (mActive b o) = .ok (w, as) →
        let ready := g.behindRelease g.nextOp = false ∧ (orderReleases o.order = true → Released s b false)
        (¬ ready → Waits (f.2 o) s b none) ∧
        (ready →
          (∃ t, exec (f.2 o) s = .next t ∧ t.opn = some w.b ∧ t.dev.mem = s.dev.mem ∧
            ∀ k x, s.dev.group k = some x → k ≠ b.gid → ∃ y, t.dev.group k = some y ∧ OnlyWoken x y) ∧
          ∀ team tm core bank, s.dev.teamOf b.gid = some (team, tm) → tm.place = some (core, bank) →
            (s.dev.part (workOf s b).part).inj.en = false → (∀ a ∈ as, scratchBad s.dev g tm g.nextOp a.2 (msBytes o.size) = false) →
            let frame (a : Nat) : Option Nat := match scratchTranslate tm a true true with | .ok fb => some fb | .error _ => none
            let r := atomRun f.1 (workOf s b) o ((s.dev.core core).bank bank).bytes (as.map (fun a => (a.1, frame a.2)))
            ∃ t g', exec (f.2 o) s = .next t ∧ t.dev.group b.gid = some g' ∧ AtomIssued b g g' o r.2 ∧
              ∀ fb, frameByte t.dev (core, bank) fb = readByte r.1 fb))

/-- The atomic instructions and their functions (14 R304, R305). Where it rests on the model's choices, they are those of log entries 25 and
39. -/
def Obligations.AtomicsComplete : Prop :=
  AtomicFunctions ∧ GlobalAtomicsComplete ∧ ScratchAtomicsComplete

/-- LOAD_RESPONSE completes: after the FENCEs whose condition holds have taken effect, the line's data enter the load, from the core's L1 where scope and policy allow and the line is held, else as
memory holds them, in the bytes that the group's own stores do not supply; a line that fails its tag check brings no data and its lane and
cause are noted. The answer to a load's last line leads on as `loadDone` says, and a boundary that waited for the data goes on (01 R25; 11
R246; 14 R300, R301). -/
def Sys2Proof.Claims.LoadResponseArrives : Prop :=
  ∀ s n g op line p l core d0, d0 = settleFences s.dev (gidOf n) → d0.group (gidOf n) = some g →
    g.core.pend.find? (fun p => p.op == op && p.lines.contains line) = some p → p.loads.find? (fun l => l.va / 64 == line) = some l →
    l.pa ≠ noPa → d0.coreOf (gidOf n) = some core → Quiet { s with dev := d0 } core (d0.partOf (gidOf n)) →
    let part := d0.partOf (gidOf n)
    let held := tget (d0.core core).l1 (l1Key part l.va)
    let narrow := Scope.isWide p.scope = false ∧ p.cpol ≠ .bypass
    let answered (f : Pending → Pending) : Prop :=
      ∃ d, exec (.loadResponse n op line) s = .next { s with dev := arrived (loadDone d (gidOf n) (f p)) (gidOf n) g.waitsData } ∧
        d.mem = d0.mem ∧ d.group (gidOf n) = some (fillPending g op f) ∧ (∀ k, k ≠ gidOf n → d.group k = d0.group k) ∧
        d = { d0 with groups := d.groups, fw := d.fw, cores := d.cores }
    (mayAnswer g p l.pa = false → exec (.loadResponse n op line) s = .next { s with dev := d0 }) ∧
    (mayAnswer g p l.pa = true →
      (∀ data, held = some data → narrow → answered (fun q => q.answer g line (some data))) ∧
      (held = none ∨ ¬ narrow →
        (tagCause d0 part (lineOf l.pa) = none →
          answered (fun q => q.answer g line (some (readBytes d0.mem.hbm (64 * lineOf l.pa) 64)))) ∧
        ∀ c, tagCause d0 part (lineOf l.pa) = some c →
          answered (fun q => { q.answer g line none with bad := lowerLane q.bad (some (l.lane, c, l.va)) })))

/-- RESULT_DATA_ARRIVAL completes: the data of a result that were read at issue are there, and a boundary that waited for them goes on
(01 R25). -/
def Sys2Proof.Claims.ResultDataArrive : Prop :=
  ∀ s n g op d0, d0 = settleFences s.dev (gidOf n) → d0.group (gidOf n) = some g →
    (∃ p ∈ g.core.pend, p.op = op ∧ p.arrived = false ∧ p.unread = false ∧ p.vals ≠ [] ∧ p.isRsmp = false) →
    ∃ d, exec (.resultDataArrival n op) s = .next { s with dev := arrived d (gidOf n) g.waitsData } ∧
      d.group (gidOf n) = some (fillPending g op (fun p => { p with arrived := true })) ∧
      (∀ k, k ≠ gidOf n → d.group k = d0.group k) ∧ d = { d0 with groups := d.groups, fw := d.fw }

/-- ISSUE_CHECKS_DONE completes: the accesses of a group's span that waited for a migrating segment have passed their checks and have their
addresses; it waits while the earliest that is not settled waits, and traps at its bundle when it fails (14 R300, 11 R254). -/
def Sys2Proof.Claims.WaitingChecksFinish : Prop :=
  ∀ s n g core, s.dev.group (gidOf n) = some g → s.dev.coreOf (gidOf n) = some core →
    let r := settleChecks s.dev (s.dev.partOf (gidOf n)) (dieOf core) g.checks
    (r = none →
      ∃ t g', exec (.issueChecksDone n) s = .next t ∧ t.opn = s.opn ∧ t.agenda = s.agenda ∧ t.tick = s.tick ∧
        t.dev = { s.dev with groups := t.dev.groups, fw := t.dev.fw } ∧ t.dev.group (gidOf n) = some g' ∧
        (∀ k, k ≠ gidOf n → t.dev.group k = s.dev.group k) ∧
        g' = { g with checks := [], hamper := g'.hamper, core := { g.core with pend := g'.core.pend } } ∧
        g'.hamper.map (fun x => (x.op, x.addr, x.val)) = g.hamper.map (fun x => (x.op, x.addr, x.val)) ∧
        g'.core.pend.map (fun x => (x.op, x.dst, x.rem, x.lines)) = g.core.pend.map (fun x => (x.op, x.dst, x.rem, x.lines))) ∧
    (r = some none → exec (.issueChecksDone n) s = .next s) ∧
    ∀ x, r = some (some x) → exec (.issueChecksDone n) s = .next { s with dev := takeTrap s.dev (gidOf n) x }

/-- STORE_AT_HOME_SLICE completes: after the stores that wait for nothing have set out, the group's bytes of the line on their way reach
memory in the order in which they were written, and no other byte changes. A line that fails its tag check takes none of them, and the
earliest bundle that wrote it is charged with a deferred trap (13 R278, 14 R301). -/
def Sys2Proof.Claims.StoreReachesHome : Prop :=
  ∀ s n g line, (settleStores s.dev (gidOf n)).group (gidOf n) = some g →
    let d := settleStores s.dev (gidOf n)
    let part := d.partOf (gidOf n)
    let ws := g.flight.filter (fun w => lineOf w.pa == line)
    let left := { g with flight := g.flight.filter (fun w => lineOf w.pa != line) }
    d.mem.planted = [] → (d.part part).inj.en = false →
    (tagCause d part line = none →
      ∃ t, exec (.storeAtHomeSlice n line) s = .next t ∧ t.opn = s.opn ∧ t.agenda = s.agenda ∧ t.tick = s.tick ∧
        (∀ a, readByte t.dev.mem.hbm a =
          match (ws.filter (fun w => w.pa == a)).getLast? with | some w => w.val | none => readByte d.mem.hbm a) ∧
        t.dev.mem = { d.mem with hbm := t.dev.mem.hbm } ∧ t.dev.group (gidOf n) = some left ∧
        (∀ k, k ≠ gidOf n → t.dev.group k = d.group k) ∧ t.dev = { d with groups := t.dev.groups, fw := t.dev.fw, mem := t.dev.mem }) ∧
    ∀ c, tagCause d part line = some c → ws ≠ [] →
      exec (.storeAtHomeSlice n line) s = .next { s with dev := deferTrap (d.setGroup (gidOf n) left) (gidOf n) (storeTrap c ws) }

/-- The memory events (01 R25; 11 R246; 13 R278; 14 R300, R301). Where it rests on the model's choices, they are those of log entries
19, 25 and 39. -/
def Obligations.MemoryEventsComplete : Prop :=
  LoadResponseArrives ∧ ResultDataArrive ∧ WaitingChecksFinish ∧ StoreReachesHome

-- engine operations

/-- MMA and MMA.SP: a tile the launch has not is cause 0x60, a failing check its own cause; with a full port, or a ring whose pops another
group owns or that has no positions left, they wait (11 R240; 16 R323; 17 R338, R343). Else they complete: the command is in the port with
the positions it has reserved. In a calm port it is the only one, no K-step of it is done, and nothing else has changed. -/
def Sys2Proof.Claims.MmaPassesThePort : Prop :=
  ∀ s b g o id team t lid l, EngReady s b g o id team t lid l →
    ∀ sparse : Bool,
    let i := if sparse then Instr.mmaSp o else .mma o
    let ka := o.ka.toNat
    let kb := o.kb.toNat
    let sq := if sparse then 16 + o.cmd.toNat / 2 % 4 else 32
    let ops := if sparse then [ka, kb, sq] else [ka, kb]
    let n := engWord (workOf s b) o
    let at_ (k more : Nat) : Option Nat := if (t.ring k).waiting = 0 then some ((t.ring k).rhead + more) else none
    (l.spine.tiles ≤ o.acc.toNat → Traps i s b 4 (plainCause 0x60)) ∧
    (o.acc.toNat < l.spine.tiles →
      (∀ c, mmaCause (workOf s b) t sparse ka kb sq n = some c → Traps i s b 4 (plainCause c)) ∧
      (mmaCause (workOf s b) t sparse ka kb sq n = none →
        (¬ ((s.dev.core (coreNo s b)).mq.length < 16 ∧ RingsFree t id n ops) → Waits i s b none) ∧
        ((s.dev.core (coreNo s b)).mq.length < 16 ∧ RingsFree t id n ops →
          Completes i s b ∧
          (Calm s (coreNo s b) g → ∃ u t', exec i s = .next u ∧
            PortPassed s u b { g with nextOp := g.nextOp + 1 } team t'
              [{ portCmd b g id team o.acc.toNat (.mma sparse ka kb sq n) with
                 resA := at_ ka 0, resB := at_ kb (if ka = kb then 1 else 0), resQ := if sparse then at_ sq 0 else none
                 zero := o.cmd.getLsbD 0 }] ∧
            t' = { t with rings := t'.rings } ∧
            ∀ k, t'.ring k =
              if k ∈ ops ∧ (t.ring k).waiting = 0 then { t.ring k with rhead := (t.ring k).rhead + n * ops.count k } else t.ring k))))

/-- ACC.ZERO, ACC.WR and ACC.RD: a tile the launch has not is cause 0x60; else they complete as the port has room (11 R240; 17 R347 to
R349). In a calm port they take effect at once: ACC.ZERO clears the live lanes' rows, ACC.WR writes four columns of them from SRC, ACC.RD's
result, the four columns of each live lane, is on its way; nothing else changes. An ACC.RD without a v destination reads nothing. -/
def Sys2Proof.Claims.AccumulatorCommandsComplete : Prop :=
  ∀ s b g o id team t lid l, EngReady s b g o id team t lid l →
    let chunk := o.cmd.toNat % 8
    (l.spine.tiles ≤ o.acc.toNat → ∀ i ∈ [Instr.accZero, .accWr, .accRd], Traps (i o) s b 4 (plainCause 0x60)) ∧
    (o.acc.toNat < l.spine.tiles →
      NeedsPort (.accZero o) s b ∧ NeedsPort (.accWr o) s b ∧
      (Calm s (coreNo s b) g →
        (∃ u g', exec (.accZero o) s = .next u ∧ PortPassed s u b g' team t [] ∧
          TileBecomes g g' (fun n row _ x => if n = o.acc.toNat ∧ (slotLanes b).getLsbD row then 0 else x)) ∧
        ∃ u g', exec (.accWr o) s = .next u ∧ PortPassed s u b g' team t [] ∧
          TileBecomes g g' (fun n row col x =>
            if n = o.acc.toNat ∧ (slotLanes b).getLsbD row ∧ 4 * chunk ≤ col ∧ col < 4 * chunk + 4 then
              wordOf (readOperand b.regs b.lits o.src row 4) (col - 4 * chunk)
            else x)) ∧
      ((∀ n, o.dst ≠ .v n) → ∃ u, exec (.accRd o) s = .next u ∧ OnlyGroup s u b b { g with nextOp := g.nextOp + 1 }) ∧
      ∀ n, o.dst = .v n →
        NeedsPort (.accRd o) s b ∧
        (Calm s (coreNo s b) g → g.waitsData = false →
          ∃ u g', exec (.accRd o) s = .next u ∧ PortPassed s u b g' team t [] ∧
            PortAnswered b g g' (.v n.toNat 4) false (fun _ => (lanesOf (slotLanes b)).map (fun i =>
              (i, (List.range 4).map (fun k => g.core.accAt o.acc.toNat i (4 * chunk + k)))))))

/-- The matrix and accumulator commands (11 R240; 16 R321, R323; 17 R338, R343 to R349). -/
def Obligations.MatrixCommandsPassThePort : Prop :=
  MmaPassesThePort ∧ AccumulatorCommandsComplete

/-- RING.CFG, SQ.CFG, RING.RST and RING.STAT complete as the port has room; parameters that are not valid are cause 0x65 first. In a calm
port the ring command waits there alone for its effect, with one more command waiting on the ring, whose checks see RING.CFG's parameters
already; RING.STAT's result, the ring's state word, is on its way; nothing else changes (16 R322, R325; 17 R350 to R353). -/
def Obligations.RingCommandsComplete : Prop :=
  ∀ s b g o id team t lid l, EngReady s b g o id team t lid l →
    let more (k : Nat) (view : Option RingConf) : Team :=
      t.setRing k { t.ring k with waiting := (t.ring k).waiting + 1, view := if view.isSome then view else (t.ring k).view }
    let counted := { g with nextOp := g.nextOp + 1 }
    (∀ queue : Bool,
      let i := if queue then Instr.sqCfg o else .ringCfg o
      let k := if queue then 16 + o.ka.toNat % 4 else o.ka.toNat
      (ringParams (engX (workOf s b) o 0) queue = none → Traps i s b 4 (plainCause 0x65)) ∧
      ∀ c, ringParams (engX (workOf s b) o 0) queue = some c →
        NeedsPort i s b ∧
        (Calm s (coreNo s b) g → ∃ u, exec i s = .next u ∧
          PortPassed s u b counted team (more k (some c)) [portCmd b g id team 16 (.ringCfg k c)])) ∧
    NeedsPort (.ringRst o) s b ∧
    (Calm s (coreNo s b) g → ∃ u, exec (.ringRst o) s = .next u ∧
      PortPassed s u b counted team (more (ringNamed o) none) [portCmd b g id team 16 (.ringRst (ringNamed o))]) ∧
    NeedsPort (.ringStat o) s b ∧
    (Calm s (coreNo s b) g → g.waitsData = false →
      ∃ u g', exec (.ringStat o) s = .next u ∧ PortPassed s u b g' team t [] ∧
        let word := wordsOf 2 (t.ring (ringNamed o)).word
        PortAnswered b g g' (match o.dst with | .v n => .v n.toNat 2 | .s n => .s n.toNat 2 | .null => .none)
          (match o.dst with | .s _ => true | _ => false)
          (fun p => if p.uni then [(0, word)] else (lanesOf (slotLanes b)).map (fun i => (i, word))))

/-- A ring command at the head of the port waits while an agent owns the ring's pushes or pops, RING.CFG also while a copy request awaits
them. Then it takes effect: the counters are 0, RING.CFG's parameters stand, and where it was the port's only command nothing else
changes; RING.RST on a ring that is not configured only leaves the port (16 R322 to R325; 17 R351, R352). -/
def Sys2Proof.Claims.RingCommandsTakeEffect : Prop :=
  ∀ s core m t, s.dev.team m.team = some t →
    let owned (k : Nat) : Prop := (t.ring k).pushOwner.isSome ∨ (t.ring k).popOwner.isSome
    let emptied (u : State) (k : Nat) (r : Ring) : Prop :=
      u = { s with dev := u.dev } ∧ u.dev = { s.dev with cores := u.dev.cores, teams := u.dev.teams } ∧
        (∀ c, u.dev.core c = if c = core then { s.dev.core c with mq := [] } else s.dev.core c) ∧
        u.dev.team m.team = some (t.setRing k r) ∧ ∀ x, x ≠ m.team → u.dev.team x = s.dev.team x
    ((s.dev.core core).mq.head? = some m →
      (∀ k c, m.kind = .ringCfg k c → owned k ∨ copyQueued s.dev m.team k = true → exec (.ringCfgTakeEffect core) s = .next s) ∧
      (∀ k, m.kind = .ringRst k → owned k → exec (.ringRstTakeEffect core) s = .next s)) ∧
    (OneCommand s core m →
      (∀ k c, m.kind = .ringCfg k c → ¬ owned k → copyQueued s.dev m.team k = false →
        ∃ u, exec (.ringCfgTakeEffect core) s = .next u ∧
          emptied u k { Ring.reset with conf := some c, waiting := (t.ring k).waiting - 1 }) ∧
      (∀ k, m.kind = .ringRst k → ¬ owned k →
        (∀ c, (t.ring k).conf = some c → ∃ u, exec (.ringRstTakeEffect core) s = .next u ∧
          emptied u k { Ring.reset with conf := some c, waiting := (t.ring k).waiting - 1 }) ∧
        ((t.ring k).conf = none → ∃ u, exec (.ringRstTakeEffect core) s = .next u ∧
          emptied u k { t.ring k with waiting := (t.ring k).waiting - 1 })))

/-- MATRIX_KSTEP for the command at the head of the port: it waits until its tiles are pushed and their pages have frames; a popped
position in an unmapped page, or a poisoned word, is a deferred trap, and the pops stand. Else the step adds its products to every element
of the command's rows, from zero for a first step that clears, pops its tiles, and counts as done; the last one ends the command. Where the
pages are resident no page moves (12 R272; 16 R326, R327; 17 R340, R344, R345; 22 R425). -/
def Sys2Proof.Claims.MatrixKstepAdds : Prop :=
  ∀ s core m t sp ka kb sq n ps, OneCommand s core m → s.dev.team m.team = some t → m.kind = .mma sp ka kb sq n →
    let fails (d : Device) (c a : Nat) : Prop :=
      let cleared := if m.zero then modAcc d m.group (zeroRows m.tile m.rows) else d
      Becomes (.matrixKstep core) s (settleAll (matrixTrap (retireStep cleared core m ps) m c a) core)
    (kstepPops t m = none → exec (.matrixKstep core) s = .next s) ∧
    (kstepPops t m = some ps →
      (popsReady t ps = false → exec (.matrixKstep core) s = .next s) ∧
      (popsReady t ps = true →
        let unmapped := popAddr ps (fun a => decide ((t.page (a / pageSize)).state = .unmapped))
        (∀ a, unmapped = some a → fails s.dev 0x23 a) ∧
        (unmapped = none → fetchTiles s.dev m.team ps = none → exec (.matrixKstep core) s = .next s) ∧
        (∀ d tiles a, unmapped = none → fetchTiles s.dev m.team ps = some (d, tiles, some a) → fails d 0xC1 a) ∧
        ∀ fa fb, fmtA m.fmt = some fa → fmtB m.fmt = some fb → t.place ≠ none →
          (∀ p ∈ ps, ∀ x ∈ rangePages (p.2.2.tileAddr p.2.1) p.2.2.bytes, (t.page x).state = .resident) →
          (∀ p ∈ ps, ∀ i, i < p.2.2.bytes → scratchPoisoned s.dev t (p.2.2.tileAddr p.2.1 + i) = false) →
          ((s.dev.part (s.dev.partOf (.user m.group))).prot = false ∨ (s.dev.core core).residue = none) →
          let tiles := ps.map (fun p => scratchBytes s.dev t (p.2.2.tileAddr p.2.1) p.2.2.bytes)
          ∃ u, exec (.matrixKstep core) s = .next u ∧ u = { s with dev := u.dev } ∧
            u.dev = { s.dev with groups := u.dev.groups, cores := u.dev.cores, teams := u.dev.teams } ∧
            (∀ c, u.dev.core c =
              if c = core then { s.dev.core c with mq := if n ≤ m.step + 1 then [] else [{ m with step := m.step + 1, zero := false }] }
              else s.dev.core c) ∧
            u.dev.team m.team = some (ps.foldl (fun t p => t.setRing p.1 ((t.ring p.1).popped p.2.1)) t) ∧
            (∀ x, x ≠ m.team → u.dev.team x = s.dev.team x) ∧ (∀ x, x ≠ .user m.group → u.dev.group x = s.dev.group x) ∧
            ∀ g, s.dev.group (.user m.group) = some g → ∃ g', u.dev.group (.user m.group) = some g' ∧
              g' = { g with core := { g.core with acc := g'.core.acc }, ck := { g.ck with acc := g'.ck.acc } } ∧
              ∀ k row col, row < 32 → col < 32 → g'.core.accAt k row col =
                if k = m.tile ∧ m.rows.getLsbD row then
                  BitVec.ofNat 32 (kstepElem m.fmt fa fb (tiles.getD 0 []) (tiles.getD 1 []) tiles[2]?
                    (if m.zero then 0 else (g.core.accAt k row col).toNat) row col)
                else g.core.accAt k row col))

/-- What a matrix-port event does at the head of the port (12 R272; 16 R322 to R327; 17 R340, R344, R345, R351, R352). -/
def Obligations.MatrixPortEvents : Prop :=
  RingCommandsTakeEffect ∧ MatrixKstepAdds

/-- COPY.KICK checks its record's place; it waits while its core's queue of 32 is full or the group's and the core's earlier stores are not
out; else it queues the request with the record's bytes as the group sees them, none when a word of them is poisoned. UINT.ARM sets the
arming bit from CMD[0]. Nothing else changes (13 R293; 16 R329; 17 R354, R360). -/
def Sys2Proof.Claims.KickAndArmComplete : Prop :=
  ∀ s b g o id team t lid l, EngReady s b g o id team t lid l →
    let core := coreNo s b
    let a := engX (workOf s b) o 0
    (∀ c, blockCause t a 0x66 = some c → Traps (.copyKick o) s b 4 { plainCause c with addr := a }) ∧
    (blockCause t a 0x66 = none →
      (¬ ((s.dev.core core).kicks.length < 32 ∧ Released s b true) → Waits (.copyKick o) s b none) ∧
      ((s.dev.core core).kicks.length < 32 ∧ Released s b true →
        ∃ u bytes, exec (.copyKick o) s = .next u ∧ u.opn = some b ∧ u.agenda = s.agenda ∧ u.tick = s.tick ∧
          u.dev = { s.dev.setGroup b.gid { g with core := zeroed g } with cores := u.dev.cores } ∧
          (∀ c, c ≠ core → u.dev.core c = s.dev.core c) ∧
          u.dev.core core = { s.dev.core core with
            kicks := (s.dev.core core).kicks ++ [{ group := id, team, record := a, bytes, bpc := b.pc, slotB := b.slotB }] } ∧
          ((∀ i, i < 64 → scratchPoisoned s.dev t (a + i) = false) → bytes ≠ none) ∧
          ∀ bs, bytes = some bs → bs.length = 64 ∧
            ∀ i, i < 64 → bs[i]? = some ((g.ownByte false (a + i)).getD ((scratchBytes s.dev t (a + i) 1).headD 0)))) ∧
    ∃ u, exec (.uintArm o) s = .next u ∧ OnlyGroup s u b b { g with armed := o.cmd.getLsbD 0 }

/-- UINT_ENTRY: a group that may not enter its handler stays as it is. Else the boundary is a checkpoint, and after it every live lane runs
at UVEC with the record's address in s56 and its cause in s57; the paths are held, the shadows of s58 to s63 and of q4 to q6 are in place,
the group is not armed, the completion has left its queue, and the entry belongs to the state that is kept (16 R333, R334). -/
def Sys2Proof.Claims.HandlerEntry : Prop :=
  ∀ s id g team t k rest, s.dev.group (.user id) = some g → s.dev.teamOf (.user id) = some (team, t) → g.uq = k :: rest →
    (mayEnterHandler s.dev id g = false → exec (.uintEntry id) s = .next s) ∧
    (mayEnterHandler s.dev id g = true → ∀ g1, (checkpoint s.dev (.user id)).group (.user id) = some g1 →
      ∃ u g', exec (.uintEntry id) s = .next u ∧ u = { s with dev := u.dev } ∧
        u.dev = { checkpoint s.dev (.user id) with groups := u.dev.groups } ∧
        (∀ x, x ≠ .user id → u.dev.group x = (checkpoint s.dev (.user id)).group x) ∧ u.dev.group (.user id) = some g' ∧
        g' = { g1 with core := g'.core, ck := g'.core, armed := false, uq := rest } ∧
        g'.core = { g1.core with s := g'.core.s, q := g'.core.q, shadowS := g'.core.shadowS, shadowQ := g'.core.shadowQ
                                 handler := g'.core.handler, slotA := g'.core.slotA, slotB := idleSlot, turnB := false, stack := [] } ∧
        g'.core.slotA = issuingSlot (BitVec.ofNat 64 (uvecOf s.dev team)) g1.core.live
          (if g1.core.slotA.st = .idle then g1.core.slotB.fmt else g1.core.slotA.fmt) ∧
        g'.core.handler = some { slotA := g1.core.slotA, slotB := g1.core.slotB, turnB := g1.core.turnB, stack := g1.core.stack
                                 firstOp := g1.nextOp } ∧
        g'.core.sAt 56 = BitVec.ofNat 32 k.record ∧ g'.core.sAt 57 = BitVec.ofNat 32 k.cause ∧
        (∀ r, r < 56 → g'.core.sAt r = g1.core.sAt r) ∧
        (∀ i, 2 ≤ i → i < 8 → g'.core.sAt (56 + i) = tgetD g1.core.shadowS i 0) ∧
        (∀ i, i < 8 → tgetD g'.core.shadowS i 0 = g1.core.sAt (56 + i)) ∧
        g'.core.shadowQ = g1.core.q.extractLsb' 4 3 ∧ g'.core.q.extractLsb' 4 3 = g1.core.shadowQ ∧
        g'.core.q.extractLsb' 0 4 = g1.core.q.extractLsb' 0 4)

/-- COPY.KICK, UINT.ARM and the entry into a handler (13 R293; 16 R329, R333, R334; 17 R354, R360). Where it rests on the model's choices,
they are those of log entry 17. -/
def Obligations.KicksAndInterrupts : Prop :=
  KickAndArmComplete ∧ HandlerEntry

/-- COPY_RECORD_FETCH takes the first queued record: a poisoned record is cause 0xC1, an object that is not valid or a record that is not
0x67, an interrupt without a handler 0x09, and the fault is recorded; a record that touches a migrating segment, or whose page waits for a
frame, stays queued; else it becomes a running request (16 R329; 17 R356, R358). -/
def Sys2Proof.Claims.RecordsAreFetched : Prop :=
  ∀ s core k rest t, (s.dev.core core).kicks = k :: rest → s.dev.team k.team = some t →
    (bringRange s.dev k.team k.record 64 false = none → exec (.copyRecordFetch core) s = .next s) ∧
    ∀ d, bringRange s.dev k.team k.record 64 false = some d →
      let gone := d.modCore core (fun c => { c with kicks := rest })
      let part := s.dev.partOf (.user k.group)
      let fails (q : CopyRec) (c a : Nat) : Prop := Becomes (.copyRecordFetch core) s (faultedReq gone core k q c a)
      (k.bytes = none → fails (copyRecOf []) 0xC1 k.record) ∧
      ∀ bs, k.bytes = some bs →
        let r := copyRecOf bs
        let sound := copyValid r (copyReserved bs)
        (objectBad t r = true → fails { r with count := false } 0x67 r.bobj) ∧
        (objectBad t r = false →
          (r.uint = true ∧ uvecOf s.dev k.team = 0 → fails r 0x09 k.record) ∧
          (¬ (r.uint = true ∧ uvecOf s.dev k.team = 0) →
            (sound = false → fails r 0x67 k.record) ∧
            (sound = true →
              (touchesMoving s.dev part (dieOf core) r = true → exec (.copyRecordFetch core) s = .next s) ∧
              (touchesMoving s.dev part (dieOf core) r = false →
                ∃ u, exec (.copyRecordFetch core) s = .next u ∧ u = { s with dev := u.dev } ∧
                  u.dev = { d with cores := u.dev.cores, nextReq := s.dev.nextReq + 1 } ∧
                  ∀ c, u.dev.core c =
                    if c = core then
                      { d.core c with
                        kicks := rest
                        reqs := (d.core c).reqs ++
                          [{ id := s.dev.nextReq, kick := some k, stream := none, part, rcd := r, n := 0, buf := [], sealedLine := false
                             owner := false, peerTag := none
                             port := if r.skind = 1 ∨ r.dkind = 1 then peerPort s.dev r.peer else none, fault := none }] }
                    else d.core c))))

/-- COPY_OWNERSHIP_GRANT: a request whose turn it is becomes the ring's push owner; it waits for an owner and for the requests that were
fetched before it; a ring that is not configured is cause 0x61 or 0x62, a box that is no whole number of tiles 0x67 (16 R323, 17 R358). -/
def Sys2Proof.Claims.RingsAreGranted : Prop :=
  ∀ s core r k n t, reqOf s.dev core r.id = some r → r.kick = some k → r.rcd.ring = some n → s.dev.team k.team = some t →
    let turn := r.awaits k.team n = true ∧ (t.ring n).pushOwner = none ∧
      ∀ c ∈ s.dev.cores, ∀ x ∈ c.2.reqs, x.id < r.id → x.awaits k.team n = false
    (¬ turn → exec (.copyOwnershipGrant core r.id) s = .next s) ∧
    (turn →
      ((t.ring n).conf = none →
        Becomes (.copyOwnershipGrant core r.id) s (copyFault s.dev core r (if n < 16 then 0x61 else 0x62) r.rcd.daddr)) ∧
      ∀ c, (t.ring n).conf = some c →
        (r.rcd.total % c.bytes ≠ 0 → Becomes (.copyOwnershipGrant core r.id) s (copyFault s.dev core r 0x67 r.rcd.daddr)) ∧
        (r.rcd.total % c.bytes = 0 →
          ∃ u, exec (.copyOwnershipGrant core r.id) s = .next u ∧ u = { s with dev := u.dev } ∧
            u.dev = { s.dev with cores := u.dev.cores, teams := u.dev.teams } ∧
            u.dev.team k.team = some (t.setRing n { t.ring n with pushOwner := some (.copy r.id) }) ∧
            (∀ x, x ≠ k.team → u.dev.team x = s.dev.team x) ∧ reqOf u.dev core r.id = some { r with owner := true } ∧
            ∀ c x, c ≠ core ∨ x ≠ r.id → reqOf u.dev c x = reqOf s.dev c x))

/-- COPY_SOURCE_LINE_READ: the next bytes of a source in memory, host memory or staging join those in hand; a line that belongs to another
partition is cause 0x26, a poisoned line the cause it holds, a poisoned staging line 0xC1, a sealed line bound for a ring 0x2C, an address
that does not translate its own cause; a gated die is ungated first (16 R335, 17 R359, 22 R425, 24 R440). -/
def Sys2Proof.Claims.SourceLinesAreRead : Prop :=
  ∀ s core r, reqOf s.dev core r.id = some r → r.ready s.dev = true → r.buf.length < r.rcd.pieceLen r.n →
    let i := Instr.copySourceLineRead core r.id
    let a := (r.rcd.src (r.n + r.buf.length)).toNat
    let len := Nat.min (r.rcd.pieceLen r.n - r.buf.length) (64 - (r.rcd.src (r.n + r.buf.length) % 64).toNat)
    let take (d : Device) (bs : List Byte) (form : Bool) : Prop :=
      if form = true ∧ r.rcd.ring.isSome then Becomes i s (copyFault d core r 0x2C a) else Becomes i s (setReq d core (r.take bs form))
    let awake := ungate s.dev (dieOf core)
    (r.rcd.skind = 0 →
      let d := walkTables awake r.part (dieOf core) a
      let x := copyXlate d r.part (dieOf core) a readNeeds
      (∀ pa, x = .local_ pa → Sound s r.part →
        let tag := tagOf d (lineOf pa)
        (tag.world ≠ r.part → Becomes i s (copyFault awake core r 0x26 a)) ∧
        (tag.world = r.part → tag.poison = true → Becomes i s (copyFault awake core r tag.cause a)) ∧
        (tag.world = r.part → tag.poison = false → take (ungate d (homeDie pa)) (readBytes d.mem.hbm pa len) tag.form)) ∧
      (∀ h, x = .host h → take d (readBytes d.mem.host h len) false) ∧
      ∀ c, x = .fault c → Becomes i s (copyFault awake core r c a)) ∧
    (r.rcd.skind = 2 →
      let good := stagingGood s.dev r.part (r.rcd.src (r.n + r.buf.length))
      let poison := s.dev.mem.stagingPoison.contains (stagingKey a / 64)
      (good = true → poison = false →
        take (ungate awake (a / 2 ^ 28)) (readBytes s.dev.mem.staging (stagingKey a) len)
          (s.dev.mem.stagingForm.contains (stagingKey a / 64))) ∧
      (good = true → poison = true → Becomes i s (copyFault awake core r 0xC1 a)) ∧
      (good = false → Becomes i s (copyFault awake core r 0x68 a)))

/-- COPY_LINE_WRITE: a request that has stopped ends when its object's page admits it. A destination in memory takes the
bytes in hand, no other byte changes, and the line's tag says whether they were sealed; the request goes on, or ends with its last byte
(16 R335; 17 R357, R359; 22 R426). -/
def Sys2Proof.Claims.DestinationLinesAreWritten : Prop :=
  ∀ s core r, reqOf s.dev core r.id = some r →
    let i := Instr.copyLineWrite core r.id
    (r.moving = false → Becomes i s (settleAll (endReq s.dev core r) core)) ∧
    ∀ pa, r.ready s.dev = true → r.rcd.dkind = 0 → r.rcd.count = false → r.rcd.uint = false →
      r.rcd.pieceLen r.n ≤ r.buf.length →
      copyXlate (walkTables s.dev r.part (dieOf core) (r.rcd.dst r.n).toNat) r.part (dieOf core) (r.rcd.dst r.n).toNat writeNeeds =
        .local_ pa →
      Sound s r.part → (tagOf s.dev (lineOf pa)).world = r.part →
      (∀ k y, s.dev.group k = some y → y.flight = [] ∧ y.core.tiles = []) → (s.dev.core core).mq = [] →
      ∃ u, exec i s = .next u ∧ u = { s with dev := u.dev } ∧
        (∀ x, readByte u.dev.mem.hbm x = if pa ≤ x ∧ x < pa + r.buf.length then r.buf.getD (x - pa) 0 else readByte s.dev.mem.hbm x) ∧
        u.dev.mem = { s.dev.mem with hbm := u.dev.mem.hbm, tags := u.dev.mem.tags } ∧
        (∀ line, tagOf u.dev line =
          if line ≠ lineOf pa then tagOf s.dev line
          else if r.buf.length = 64 then { world := r.part, poison := false, form := r.sealedLine, cause := 0 }
          else { tagOf s.dev line with form := r.sealedLine }) ∧
        (∀ k, u.dev.group k = s.dev.group k) ∧
        reqOf u.dev core r.id =
          (if r.n + r.buf.length = r.rcd.total then none
           else some { r with n := r.n + r.buf.length, buf := [], sealedLine := false, peerTag := none }) ∧
        ∀ c x, c ≠ core ∨ x ≠ r.id → reqOf u.dev c x = reqOf s.dev c x

/-- Barrier objects. Bytes counted on an object join ARRIVED; a phase with an EXPECT that they fill is over, what they have in excess counts
toward the next, and PHASE turns. A fault sets FAULT and CAUSE unless one is there, empties ARRIVED and turns PHASE. The turn lets the slots go
that wait for it; nothing else changes (04 R122; 16 R330 to R332). -/
def Sys2Proof.Claims.ObjectsCount : Prop :=
  ∀ (s : State) team t obj, s.dev.team team = some t → obj % 16 = 0 → obj + 16 ≤ stackBase → PagesAtHand s t [(obj, 16)] →
    let w := objWord s.dev t obj
    (∀ n, ∃ d, countObject s.dev team obj n = .done d ∧
      ObjectBecomes s.dev d team obj t (fun i =>
        if i = 1 then (phaseAfter (w 0) (w 1) (w 2) n).1 else if i = 2 then (phaseAfter (w 0) (w 1) (w 2) n).2 else w i)) ∧
    ∀ cause, cause < 256 → ∃ d, faultObject s.dev team obj cause = .done d ∧
      ObjectBecomes s.dev d team obj t (fun i =>
        if i = 1 then 0 else if i = 2 then (w 2 + 1) % 2 ^ 32
        else if i = 3 ∧ w 3 % 2 = 0 then w 3 % 2 ^ 24 + 1 + 2 ^ 24 * cause else w i)

/-- The destinations of copy writes other than local memory. A confidential partition's line that is not sealed does not leave the device,
cause 0x2D. Host memory, the staging area, a scratchpad and a ring's next tile take the bytes in hand, and no other byte changes; a ring's port
position rises with a tile's first byte and TAIL follows with its last. A peer is sent a write of the bytes on the request's port. An address that is no place
of its kind is the kind's cause (16 R324, R335; 17 R357, R359; 27 R474, R475). -/
def Sys2Proof.Claims.DestinationsTakeBytes : Prop :=
  ∀ (s : State) core (r : CopyReq),
    let a := r.rcd.dst r.n
    let n := a.toNat
    let len := r.buf.length
    let put := writeDest s.dev core r
    let kept := (s.dev.part r.part).conf = true ∧ r.sealedLine = false
    let taken (old new : List Host.Cell) (at_ : Nat) : Prop :=
      ∀ x, readByte new x = if at_ ≤ x ∧ x < at_ + len then r.buf.getD (x - at_) 0 else readByte old x
    (r.rcd.dkind = 0 → ∀ h, copyXlate (walkTables s.dev r.part (dieOf core) n) r.part (dieOf core) n writeNeeds = .host h →
      (kept → put = .bad 0x2D n) ∧
      (¬ kept → Sound s r.part → ∃ d, put = .done d ∧ taken s.dev.mem.host d.mem.host h ∧ d.mem = { s.dev.mem with host := d.mem.host })) ∧
    (r.rcd.dkind = 1 →
      (¬ (0 ≤ a ∧ a < 2 ^ 53) ∨ (¬ kept ∧ r.port = none) → put = .bad 0x69 n) ∧
      (0 ≤ a → a < 2 ^ 53 → kept → put = .bad 0x2D n) ∧
      ∀ port, 0 ≤ a → a < 2 ^ 53 → ¬ kept → r.port = some port →
        let tag := (s.dev.port port).nextTag
        let p : Packet :=
          { op := 1, len, tag, world := n / 2 ^ 48 % 32, region := n / 2 ^ 40 % 256, offset := n % 2 ^ 40, akey := r.rcd.akey.toNat
            status := 0, data := r.buf }
        ∃ d, put = .sent d port tag ∧ d = { s.dev with ports := d.ports } ∧ (∀ k, k ≠ port → d.port k = s.dev.port k) ∧
          Answered { s with dev := s.dev.modPort port (fun p => { p with nextTag := (tag + 1) % 2 ^ 16 }) } { s with dev := d } port p.bytes) ∧
    (r.rcd.dkind = 2 →
      (stagingGood s.dev r.part a = false → put = .bad 0x68 n) ∧
      (stagingGood s.dev r.part a = true → ∃ d, put = .done d ∧ taken s.dev.mem.staging d.mem.staging (stagingKey n) ∧
        d.mem = { s.dev.mem with staging := d.mem.staging, stagingForm := d.mem.stagingForm, stagingPoison := d.mem.stagingPoison } ∧
        ∀ line, (line ∈ d.mem.stagingForm ↔ if line = stagingKey n / 64 then r.sealedLine = true else line ∈ s.dev.mem.stagingForm) ∧
          (line ∈ d.mem.stagingPoison ↔ line ∈ s.dev.mem.stagingPoison ∧ ¬ (line = stagingKey n / 64 ∧ len = 64)))) ∧
    ∀ k t, r.kick = some k → s.dev.team k.team = some t →
      (r.rcd.dkind = 3 →
        (a < 0 ∨ 2 ^ 24 ≤ a → put = .bad 0x23 n) ∧
        (0 ≤ a → a < 2 ^ 24 → inStackRange n = true → put = .bad 0x24 n) ∧
        (0 ≤ a → a < 2 ^ 24 → inStackRange n = false → rangeUnmapped t n len = true → put = .bad 0x23 n) ∧
        (0 ≤ a → a < 2 ^ 24 → inStackRange n = false → 0 < len → PagesAtHand s t [(n, len)] →
          ∃ d t', put = .done d ∧ ScratchTakes s.dev d k.team t t' n r.buf ∧ GroupsWoken s.dev d)) ∧
      ∀ q c, r.rcd.ring = some q → (t.ring q).conf = some c →
        let first := r.n % c.bytes = 0
        let pos := if first then (t.ring q).rtail else (t.ring q).rtail - 1
        let at_ := c.tileAddr pos + r.n % c.bytes
        (rangeUnmapped t at_ len = true → put = .bad 0x23 at_) ∧
        (0 < len → PagesAtHand s t [(at_, len)] → ∃ d t', put = .done d ∧ ScratchTakes s.dev d k.team t t' at_ r.buf ∧ GroupsWoken s.dev d ∧
          ∀ x, t'.ring x =
            if x = q then { t.ring x with
              rtail := (t.ring x).rtail + (if first then 1 else 0)
              tail := if (r.n + len) % c.bytes = 0 then pos + 1 else (t.ring x).tail }
            else t.ring x)

/-- What a destination write leads to. A place that waits keeps the request as it is, one that is bad faults it, a peer's packet makes it
wait for the answer. Bytes written are counted on the request's object, if it names one, and the request goes on, or ends with its last byte; an
object that cannot take the count faults it. A request that ends is gone, and its interrupt, where it asks for one, is the last of its
group's queue, with cause 0, or its fault's cause (16 R331 to R333; 17 R357, R359). -/
def Sys2Proof.Claims.PiecesAreCounted : Prop :=
  (∀ (s : State) core (r : CopyReq), reqOf s.dev core r.id = some r → r.ready s.dev = true → r.rcd.pieceLen r.n ≤ r.buf.length →
    let i := Instr.copyLineWrite core r.id
    let awake := ungate s.dev (dieOf core)
    let r2 : CopyReq := { r with n := r.n + r.buf.length, buf := [], sealedLine := false, peerTag := none }
    let onward (d : Device) : Device :=
      if r.n + r.buf.length = r.rcd.total then copyComplete (setReq d core r2) core r2 else setReq d core r2
    (writeDest awake core r = .waits → Becomes i s awake) ∧
    (∀ c a, writeDest awake core r = .bad c a → Becomes i s (copyFault awake core r c a)) ∧
    (∀ d port tag, writeDest awake core r = .sent d port tag → Becomes i s (setReq d core { r with peerTag := some (port, tag) })) ∧
    ∀ d, writeDest awake core r = .done d →
      (r.rcd.count = false ∨ r.kick = none → Becomes i s (settleAll (onward d) core)) ∧
      ∀ k, r.kick = some k → r.rcd.count = true →
        let counted := countObject d k.team r.rcd.bobj r.buf.length
        (∀ d', counted = .done d' → Becomes i s (settleAll (onward d') core)) ∧
        (∀ a, counted = .poisoned a → Becomes i s (settleAll (copyFault d core r 0xC1 a) core)) ∧
        (counted = .unmapped → Becomes i s (settleAll (copyFault d core r 0x23 r.rcd.bobj) core)) ∧
        (counted = .waits → Becomes i s awake)) ∧
  ∀ (s : State) core (r : CopyReq) k g, r.kick = some k → s.dev.group (.user k.group) = some g → g.retired = false → g.halted = false →
    let queued (d : Device) (c : Nat) : Prop :=
      d.group (.user k.group) = some { g with uq := g.uq ++ [{ record := k.record, cause := c }] } ∧
        ∀ x, x ≠ .user k.group → d.group x = s.dev.group x
    let done := copyComplete s.dev core r
    reqOf done core r.id = none ∧ (r.rcd.uint = true → queued done 0) ∧ (r.rcd.uint = false → ∀ x, done.group x = s.dev.group x) ∧
    (r.rcd.count = false → r.rcd.uint = true → uvecOf s.dev k.team ≠ 0 → ∀ c a, queued (copyFault s.dev core r c a) c)

/-- The copy engine's four events, with what they count, fault and tell (16 R323, R324, R329 to R333, R335; 17 R356 to R359). Where it rests on
the model's choices, they are those of log entries 17 and 39. -/
def Obligations.CopyEngineSteps : Prop :=
  RecordsAreFetched ∧ RingsAreGranted ∧ SourceLinesAreRead ∧ DestinationLinesAreWritten ∧ DestinationsTakeBytes ∧ ObjectsCount ∧
    PiecesAreCounted

/-- SEAL and OPEN: an operand that fails a check takes the check's cause; it waits for what a release waits for (13 R293); else the operation joins its core's cipher queue with its operands
and IV, and nothing else changes (17 R361, R362). -/
def Sys2Proof.Claims.CiphersAreQueued : Prop :=
  ∀ s b g o id team t lid l, EngReady s b g o id team t lid l →
    ∀ isSeal : Bool,
    let i := if isSeal then Instr.sealTile o else .openTile o
    let core := coreNo s b
    let w := workOf s b
    (∀ c, cipherCause w o t (cipherArgs w o) = some c → Traps i s b 4 c) ∧
    (cipherCause w o t (cipherArgs w o) = none →
      (¬ Released s b true → Waits i s b none) ∧
      (Released s b true → ∃ u, exec i s = .next u ∧ u = { s with dev := u.dev } ∧
        u.dev = { s.dev.setGroup b.gid { g with core := zeroed g } with cores := u.dev.cores } ∧
        ∀ c, u.dev.core c =
          if c = core then
            { s.dev.core c with
              ciphers := (s.dev.core c).ciphers ++
                [{ group := id, team, isSeal, src := engX w o 0 % 2 ^ 32, dst := engX w o 0 / 2 ^ 32, obj := engX w o 1 % 2 ^ 32
                   tag := engX w o 1 / 2 ^ 32, iv := bigBytes 4 (engWord w o) ++ bigBytes 8 (engX w o 2), key := o.cmd.toNat % 16
                   bpc := b.pc, slotB := b.slotB }] }
          else s.dev.core c))

/-- CIPHER_OPERATION: the unit performs its first queued operation and takes it from the queue. An unmapped operand is the fault 0x23 on
its object, a poisoned word 0xC1; while a page waits for a frame nothing changes. A SEAL whose operands are at hand leaves the ciphertext
at DST and its tag at TAG and changes no byte of memory (16 R336; 17 R363; 22 R425). -/
def Sys2Proof.Claims.CipherUnitWorks : Prop :=
  ∀ s core k rest t, (s.dev.core core).ciphers = k :: rest → s.dev.team k.team = some t →
    let i := Instr.cipherOperation core
    let finish (r : Option Device) : Prop :=
      match r with
      | some d => Becomes i s (d.modCore core (fun c => { c with ciphers := rest }))
      | none => exec i s = .next s
    let ranges := [(k.src, 4096), (k.dst, 4096), (k.tag, 16), (k.obj, 16)]
    let lost := ∃ r ∈ ranges, rangeUnmapped t r.1 r.2 = true
    (lost → finish (cipherFault s.dev core k 0x23 k.src)) ∧
    (¬ lost →
      (cipherInput s.dev k = none → exec i s = .next s) ∧
      (∀ d text tag a, cipherInput s.dev k = some (d, text, tag, some a) → finish (cipherFault d core k 0xC1 a)) ∧
      (∀ d text tag, cipherInput s.dev k = some (d, text, tag, none) → finish (cipherWork d core k text tag)) ∧
      (PagesAtHand s t ranges → k.isSeal = true → (k.src = k.dst ∨ rangesMeet (k.src, 4096) (k.dst, 4096) = false) →
        rangesMeet (k.dst, 4096) (k.tag, 16) = false → rangesMeet (k.dst, 4096) (k.obj, 16) = false →
        rangesMeet (k.tag, 16) (k.obj, 16) = false →
        let key := keyBytes (tgetD (s.dev.part (s.dev.partOf (.user k.group))).keys k.key 0)
        let out := gcmSeal key k.iv [] (scratchBytes s.dev t k.src 4096)
        ∃ u t', exec i s = .next u ∧ u = { s with dev := u.dev } ∧ u.dev.mem = s.dev.mem ∧ (u.dev.core core).ciphers = rest ∧
          u.dev.team k.team = some t' ∧ scratchBytes u.dev t' k.dst 4096 = out.1 ∧ scratchBytes u.dev t' k.tag 16 = out.2))

/-- What SEAL makes of a text OPEN turns back into it (17 R363; AES-256-GCM is presumed, log entry 20). -/
def Sys2Proof.Claims.OpenUndoesSeal : Prop :=
  ∀ key iv aad text, key.length = 32 → gcmOpen key iv aad (gcmSeal key iv aad text).1 (gcmSeal key iv aad text).2 = some text

/-- SEAL and OPEN (16 R336; 17 R361 to R363; 22 R425). Where it rests on the model's choices, they are those of log entry 20. -/
def Obligations.CipherOperations : Prop :=
  CiphersAreQueued ∧ CipherUnitWorks ∧ OpenUndoesSeal

/-- SPAWN: its checks in their order, each with its own cause; it waits for the core's stores, as a release at device scope. Then the counter
rises by the number of teams, and so does what an open grid phase expects; the teams join the queue of the partition in ascending order with
indices from FIRST on, their registers initialised as the descriptor says, and nothing else changes (08 R215 to R219; 07 R198; 12 R268). Where
it rests on the model's choices, they are those of log entries 34 and 39. -/
def Obligations.SpawnEnqueuesTeams : Prop :=
  ∀ s b g o id team t lid l, EngReady s b g o id team t lid l →
    let k := engWord (workOf s b) o
    let a := engX (workOf s b) o 0
    let desc := teamDescOf ((scratchBytes s.dev t a 64).zipIdx.map (fun x => (g.ownByte false (a + x.2)).getD x.1))
    let room := (workOf s b).addDemand [a / pageSize]
    let lost (i : Nat) : Prop := scratchPoisoned s.dev t (a + 8 * i) = true ∧ ∃ j, j < 8 ∧ g.ownByte false (a + (8 * i + j)) = none
    let fails (c x : Nat) : Prop := Traps (.spawn o) s b 4 { plainCause c with addr := x }
    (b.regs.handler ≠ none → fails 0x09 0) ∧
    (b.regs.handler = none →
      (∀ c, blockCause t a 0x13 = some c → (¬ (c = 0x28 ∧ room = none) → fails c a) ∧ (c = 0x28 → room = none → fails 0x2F 0)) ∧
      (blockCause t a 0x13 = none →
        (room = none → fails 0x2F 0) ∧
        ∀ w, room = some w →
          (∀ i, i < 8 → lost i → (∀ j, j < i → ¬ lost j) → fails 0xC1 (a + 8 * i)) ∧
          ((∀ i, i < 8 → ¬ lost i) →
            (∀ c, spawnCause l desc k = some c → fails c a) ∧
            (spawnCause l desc k = none →
              (¬ Released s b true → Waits (.spawn o) s b none) ∧
              (Released s b true →
                ∃ u, exec (.spawn o) s = .next u ∧ u.opn = some w.b ∧ w.b = { b with demand := w.b.demand } ∧ u.agenda = s.agenda ∧
                  u.tick = s.tick ∧
                  u.dev = { s.dev.setGroup b.gid { g with core := zeroed g } with
                            cores := u.dev.cores, teams := u.dev.teams, launches := u.dev.launches, parts := u.dev.parts
                            nextTeam := s.dev.nextTeam + k } ∧
                  (∀ c, u.dev.core c = { s.dev.core c with stb := (u.dev.core c).stb }) ∧
                  u.dev.launch lid = some { l with
                    counter := l.counter + k, spawned := l.spawned + k
                    grid := { l.grid with expected := l.grid.expected.map (· + k * l.spine.tgroups) } } ∧
                  (∀ x, x ≠ lid → u.dev.launch x = s.dev.launch x) ∧
                  u.dev.part l.part =
                    { s.dev.part l.part with gq := (s.dev.part l.part).gq ++ (List.range k).map (s.dev.nextTeam + ·) } ∧
                  (∀ x, x ≠ l.part → u.dev.part x = s.dev.part x) ∧
                  (∀ x, x < s.dev.nextTeam ∨ s.dev.nextTeam + k ≤ x → u.dev.team x = s.dev.team x) ∧
                  ∀ i, i < k → ∃ tm, u.dev.team (s.dev.nextTeam + i) = some tm ∧ tm.index = BitVec.ofNat 32 (desc.first + i) ∧
                    tm.launch = lid ∧ tm.place = none ∧ tm.groups = [] ∧ tm.retired = false ∧
                    tm.entry = (if desc.entry = 0 then l.spine.entry else BitVec.ofNat 64 desc.entry) ∧
                    tm.inits = (List.range desc.scount).map (fun m => (desc.sbase + m, BitVec.ofNat 32 (desc.vals.getD m 0))) ++
                      (if desc.idxreg = 0xFF then [] else [(desc.idxreg, BitVec.ofNat 32 i)]))))))

/-- What every population instruction but POP.STAT begins with: no live lane, nothing; an address that is not a descriptor's is cause 0x80,
one that does not translate for both rights its cause; a migrating segment makes it wait (18 R365, R369). POP.STAT's address is 0x0F. RSMP
in a handler is 0x09. -/
def Sys2Proof.Claims.PopulationAddress : Prop :=
  ∀ f ∈ [(0x80, Instr.popInit), (0x80, .popJoin), (0x80, .popLeave), (0x0F, .popStat), (0x80, .rsmp)],
    ∀ s b g o id team t lid l, EngReady s b g o id team t lid l →
    let va := engX (workOf s b) o 0
    let d := portDev s b va
    let part := d.partOf b.gid
    (slotLanes b = 0 → exec (f.2 o) s = .next s) ∧
    (slotLanes b ≠ 0 → b.regs.handler ≠ none → Traps (.rsmp o) s b 4 (plainCause 0x09)) ∧
    (slotLanes b ≠ 0 → f.2 o ≠ .rsmp o ∨ b.regs.handler = none →
      (2 ^ 57 ≤ va ∨ va % 128 ≠ 0 → Traps (f.2 o) s b 4 { plainCause f.1 with addr := va }) ∧
      (va < 2 ^ 57 → va % 128 = 0 →
        (descWaits d part va = true → Waits (f.2 o) s b none) ∧
        (descWaits d part va = false → ∀ c, descCause d part va = some c →
          Traps (f.2 o) s b 4 { plainCause c with addr := va, write := true })))

/-- POP.INIT activates a population that is empty, for the launch, once the group's committed stores are visible; a descriptor that is not valid is cause 0x80, a seventeenth population
0x86 (18 R366, R370). -/
def Sys2Proof.Claims.PopInitActivates : Prop :=
  ∀ s b g o id team t lid l, EngReady s b g o id team t lid l →
    let va := engX (workOf s b) o 0
    let d := portDev s b va
    let part := d.partOf b.gid
    portGood s b va → ∀ lid1 l1, d.launchOf b.gid = some (lid1, l1) →
    ∀ g1, d.group b.gid = some g1 →
    (g1.storesOut = false → Waits (.popInit o) s b none) ∧
    (g1.storesOut = true → ∀ c, activateCause d part va l1.spine.tgroups = some c →
      Traps (.popInit o) s b 4 { plainCause c with addr := va }) ∧
    (g1.storesOut = true → activateCause d part va l1.spine.tgroups = none →
      let x : Popul :=
        { launch := some lid1, desc := readDesc d part va, current := none, rounds := [], nextRound := 0
          held := { live := 0, reserve := 0, round := 0, nextId := descField (readDesc d part va) 0x20 8, lastStat := 0, logPos := 0 } }
      ∃ u, exec (.popInit o) s = .next u ∧ u.opn = some b ∧ u.agenda = s.agenda ∧ u.tick = s.tick ∧
        (u.dev.part part).popul va = some x ∧ u.dev.launch lid1 = some { l1 with pops := l1.pops ++ [va] } ∧
        (∀ k, u.dev.group k = d.group k) ∧ (∀ k, u.dev.team k = d.team k) ∧
        (d.mem.planted = [] → (tget (d.die (d.part part).lead).segCache (va / segSize)).isSome → livePop u.dev part va = some x))

/-- POP.JOIN makes the slot's live lanes members under the identifiers that SRC gives, or reserve lanes, counts them and answers; a
population that is not live is cause 0x80, a lane or identifier that may not join 0x81, a pending RSMP 0x85 (18 R371). -/
def Sys2Proof.Claims.PopJoinJoins : Prop :=
  ∀ s b g o id team t lid l, EngReady s b g o id team t lid l →
    let va := engX (workOf s b) o 0
    let d := portDev s b va
    let part := d.partOf b.gid
    let w := workAt d b
    let fails (c : Nat) : Prop := Traps (.popJoin o) s b 4 { plainCause c with addr := va }
    let reserve := o.cmd.getLsbD 0
    portGood s b va →
    (livePop d part va = none → fails 0x80) ∧
    ∀ x g1, livePop d part va = some x → d.group b.gid = some g1 →
      let barred := joinViolates w va x || (!reserve && idsViolate w va x (joinIds w o))
      (barred = true → fails 0x81) ∧
      (barred = false → g1.rsmpPending = true → fails 0x85) ∧
      (barred = false → g1.rsmpPending = false →
        ∃ u g', exec (.popJoin o) s = .next u ∧ u.opn = some b ∧ u.agenda = s.agenda ∧ u.tick = s.tick ∧ u.dev.group b.gid = some g' ∧
          (∀ k, k ≠ b.gid → u.dev.group k = d.group k) ∧
          LateAnswer b g1 g' o.dst (fun i => if reserve then 0xFFFFFFFF else readOperand b.regs b.lits o.src i 1) ∧
          g' = { g1 with nextOp := g'.nextOp, core := { g1.core with pend := g'.core.pend, pop := g'.core.pop } } ∧
          (∀ lane, lane < 32 → g'.core.popAt lane =
            if (slotLanes b).getLsbD lane then
              (if reserve then .reserve va else .member va (readOperand b.regs b.lits o.src lane 1) (2 ^ 64 - 1) 0)
            else g1.core.popAt lane) ∧
          (u.dev.part part).popul va = some { x with
            held := if reserve then { x.held with reserve := x.held.reserve + (lanesOf (slotLanes b)).length }
                    else { x.held with live := x.held.live + (lanesOf (slotLanes b)).length } })

/-- POP.LEAVE marks its bundle for its end; a population that is not live is cause 0x80. POP.STAT's result is on its way
and nothing else changes; a pending RSMP is cause 0x85 (18 R372, R373). -/
def Sys2Proof.Claims.PopLeaveAndStatComplete : Prop :=
  ∀ s b g o id team t lid l, EngReady s b g o id team t lid l →
    let va := engX (workOf s b) o 0
    let d := portDev s b va
    let part := d.partOf b.gid
    portGood s b va →
    (livePop d part va = none → Traps (.popLeave o) s b 4 { plainCause 0x80 with addr := va }) ∧
    (livePop d part va ≠ none → exec (.popLeave o) s = .next { s with dev := d, opn := some { b with leave := some va } }) ∧
    ∀ g1, d.group b.gid = some g1 →
      (g1.rsmpPending = true → Traps (.popStat o) s b 4 { plainCause 0x85 with addr := va }) ∧
      (g1.rsmpPending = false →
        ∃ u g', exec (.popStat o) s = .next u ∧ OnlyGroup { s with dev := d } u b b g' ∧
          LateAnswer b g1 g' o.dst (fun _ => statField d part va (o.cmd.toNat % 8)) ∧
          g' = { g1 with nextOp := g'.nextOp, core := { g1.core with pend := g'.core.pend } })

/-- RSMP: its checks in their order; it waits for the core's stores, as a release at device scope. Then it completes: its bundle holds the
group, and in a calm port the group has one more pending result, for the round in which its lanes have arrived (18 R374, R375, R382). -/
def Sys2Proof.Claims.RsmpArrives : Prop :=
  ∀ s b g o id team t lid l, EngReady s b g o id team t lid l →
    let va := engX (workOf s b) o 0
    let n := engX (workOf s b) o 1 % 2 ^ 32
    let d := portDev s b va
    let part := d.partOf b.gid
    let w := workAt d b
    let fails (c : Nat) : Prop := Traps (.rsmp o) s b 4 { plainCause c with addr := va }
    portGood s b va → b.regs.handler = none →
    (livePop d part va = none → fails 0x80) ∧
    ∀ x g1 lid1 l1, livePop d part va = some x → d.group b.gid = some g1 → d.launchOf b.gid = some (lid1, l1) →
      let as := arrivalsOf w o va n (l1.spine.vbud g1.producer)
      let member := (popLanesIn d part va).any (fun m => m.1 == id)
      let whole : Prop := (b.regs.slot (!b.slotB)).st = .idle ∧ b.regs.stack = []
      let fits : Prop := n ≤ descField (readDesc d part va) 8 4
      let bad := as.find? (fun a => a.id.isSome && weightBad a.weight)
      (member = false → fails 0x81) ∧
      (member = true → ¬ whole → fails 0x82) ∧
      (member = true → whole → ¬ fits → fails 0x83) ∧
      (member = true → whole → fits →
        (∀ a, bad = some a → Traps (.rsmp o) s b 4 { plainCause 0x84 with lane := some a.lane, addr := va }) ∧
        (bad = none →
          (g1.rsmpPending = true → fails 0x85) ∧
          (g1.rsmpPending = false →
            (w.mayRelease true = false → Waits (.rsmp o) s b none) ∧
            (w.mayRelease true = true →
              let k := match x.current with
                | none => x.nextRound
                | some j => (match tget x.rounds j with | some r => if r.awaits as then j else x.nextRound | none => j)
              ∃ u, exec (.rsmp o) s = .next u ∧ u.opn = some { b with hold := some (va, k) } ∧ u.agenda = s.agenda ∧ u.tick = s.tick ∧
                (Calm { s with dev := d } w.coreNo g1 →
                  ∃ p x', p.op = g1.nextOp ∧ p.rem = b.lookE + 1 ∧ p.dst = .rsmp o.dst va k ∧ p.arrived = false ∧
                    p.lanes = as.foldl (fun m a => m ||| laneBit a.lane) 0 ∧
                    u.dev.group b.gid =
                      some { g1 with nextOp := g1.nextOp + 1, core := { g1.core with pend := g1.core.pend ++ [p] } } ∧
                    (∀ y, y ≠ b.gid → u.dev.group y = d.group y) ∧ u.dev.mem = d.mem ∧
                    (u.dev.part part).popul va = some x' ∧ x'.held = x.held ∧
                    (x.current = none → ∃ r, tget x'.rounds k = some r ∧ r.arrived.length = as.length ∧
                      ∀ a ∈ as, ∃ y ∈ r.arrived, y.group = id ∧ y.lane = a.lane ∧ y.id = a.id ∧ y.weight = a.weight ∧ y.n = n ∧
                        y.ready = true))))))

/-- POP.LEAVE's bundle ends, as one with EXIT: its members and reserve lanes of the population retire. They live no more, are of no population, leave
every path, stack entry and result, and the group's stores are released first; the registers and the other lanes stay (07 R181; 18 R372). -/
def Sys2Proof.Claims.LeavingLanesRetire : Prop :=
  (∀ (b : OpenBundle) (c : GCore) pop l, b.leave = some pop → b.redirect ≠ .exit → l < 32 →
    ((b.leaving c).getLsbD l = true ↔ b.lanes.getLsbD l = true ∧ c.live.getLsbD l = true ∧
      (c.popAt l = .reserve pop ∨ ∃ id parent gen, c.popAt l = .member pop id parent gen))) ∧
  ∀ (s : State) (b : OpenBundle) id g, b.gid = .user id → s.dev.group b.gid = some g → (∀ p ∈ g.core.pend, p.scr = []) →
    let m := b.leaving g.core
    (m = 0 → retireLeaving s.dev b = s.dev) ∧
    (m ≠ 0 → ∃ g', (retireLeaving s.dev b).group b.gid = some g' ∧ g'.core.live = g.core.live &&& ~~~m ∧ g'.hamper = [] ∧
      (∀ l, l < 32 → g'.core.popAt l = if m.getLsbD l then .none else g.core.popAt l) ∧
      (∀ n l, l < 32 → g'.core.vAt n l = g.core.vAt n l) ∧ (∀ n, g'.core.sAt n = g.core.sAt n) ∧
      (∀ k, (g.core.slot k).st ≠ .idle →
        let rest := (g.core.slot k).lanes &&& ~~~m
        (g'.core.slot k).lanes = rest ∧ (g'.core.slot k).st = if rest = 0 then .idle else (g.core.slot k).st) ∧
      g'.core.stack = g.core.stack.map (fun e => { e with lanes := e.lanes &&& ~~~m }) ∧
      ∀ p ∈ g'.core.pend, p.isRsmp = false → p.lanes &&& m = 0)

/-- A lane that retires leaves its population: LIVE or RESERVE falls by one, and a member's window pages are unmapped. A round that is still
open awaits it no more; if it has arrived it takes part with zero weight, and a killed one is marked. A round that has been evaluated stays
(18 R372, R375, R383). -/
def Sys2Proof.Claims.RoundsLoseLanes : Prop :=
  (∀ (r : Round) group lane killed,
    let r' := r.leave group lane killed
    (r.outcome ≠ none → r' = r) ∧
    (r.outcome = none →
      r' = { r with members := r'.members, reserves := r'.reserves, errdep := r.errdep || killed
                    arrived := r.arrived.map (fun a => if a.group = group ∧ a.lane = lane then { a with gone := true } else a) } ∧
      (∀ m, m ∈ r'.members ↔ m ∈ r.members ∧ ¬ (m.1 = group ∧ m.2.1 = lane)) ∧
      ∀ m, m ∈ r'.reserves ↔ m ∈ r.reserves ∧ m ≠ (group, lane))) ∧
  ∀ (s : State) id lane killed g team pop x, s.dev.group (.user id) = some g → g.kind = .user team →
    (s.dev.part (s.dev.partOf (.user id))).popul pop = some x → (∀ r ∈ x.rounds, r.2.outcome = none) →
    let d := leavePopulation s.dev id lane killed
    let left (h : PopHeld) : Prop :=
      ∃ x', (d.part (s.dev.partOf (.user id))).popul pop = some x' ∧
        x' = { x with held := h, rounds := x.rounds.map (fun r => (r.1, r.2.leave id lane killed)) }
    (g.core.popAt lane = .reserve pop → left { x.held with reserve := x.held.reserve - 1 }) ∧
    ∀ i parent gen, g.core.popAt lane = .member pop i parent gen →
      left { x.held with live := x.held.live - 1 } ∧
      ∀ t, s.dev.team team = some t → ∃ t', d.team team = some t' ∧
        ∀ q ∈ windowPages (windowOf x.desc) g.index lane, (t'.page q).state = .unmapped

/-- The members' copies decide the round: no copy for a member that has gone or has weight -infinity, N as the member with the lowest identifier
gives it, a clone for every copy but each member's first, in the order of the parents and with identifiers from NEXTID on, a shortfall when N
exceeds the lanes that may go on or the identifiers end, and vacancies in killed members' lanes and in reserve lanes, none of them gone
(18 R376, R377). -/
def Sys2Proof.Claims.RoundsAreJudged : Prop :=
  ∀ (d : Device) (r : Round) (h : PopHeld),
    let v := judgeRound d r h
    let members := r.arrived.filter (fun a => a.id.isSome)
    let room := (r.arrived.filter (fun a => !a.gone)).length
    v.degenerate = false →
      (v.copies.map (fun x => x.1)).Perm members ∧
      (v.copies.map (fun x => x.1)).Pairwise (fun a b => a.id.getD 0 ≤ b.id.getD 0) ∧
      (v.copies.map (fun x => x.2)).sum = v.n ∧
      (∀ x ∈ v.copies, x.1.gone = true ∨ x.1.weight = 0xFF800000 → x.2 = 0) ∧
      (∀ x t, v.copies = x :: t → v.n = x.1.n) ∧ (v.ndiff = true ↔ ∃ a ∈ members, a.n ≠ v.n) ∧
      v.clones.length = (v.copies.map (fun x => x.2 - 1)).sum ∧
      v.clones.map (fun c => c.from_) = v.copies.flatMap (fun x => List.replicate (x.2 - 1) x.1) ∧
      v.clones.map (fun c => c.id) = (List.range v.clones.length).map (h.nextId + ·) ∧
      (v.short = true ↔ room < v.n ∨ 2 ^ 48 - 1 < h.nextId + v.clones.length) ∧
      (v.short = true → v.placed = []) ∧
      (v.short = false → ∃ free, v.placed = placeClones d v.clones free ∧
        ∀ a, a ∈ free ↔ a ∈ r.arrived ∧ a.gone = false ∧ (a.id = none ∨ (a, 0) ∈ v.copies))

/-- Clones are placed in their order, each in the first vacancy of the first tier that is still free (18 R377). -/
def Sys2Proof.Claims.ClonesArePlaced : Prop :=
  ∀ (d : Device) (clones : List ClonePlan) (free : List Arrival), (free.map laneOfArrival).Nodup → clones.length ≤ free.length →
    let out := placeClones d clones free
    let taken (i : Nat) (a : Arrival) : Prop := ∃ x ∈ out.take i, laneOfArrival x.1 = laneOfArrival a
    out.map (fun x => x.2) = clones ∧
      ∀ i x, out[i]? = some x → x.1 ∈ free ∧ ¬ taken i x.1 ∧
        ∀ a ∈ free, ¬ taken i a → ¬ vacancyRank d x.2.from_ a < vacancyRank d x.2.from_ x.1

/-- What a lane takes from a round: nothing but its status in a round that is degenerate or short, and in a reserve lane that is not filled; a
survivor's status holds its copies; a member without copies is killed; a vacancy that a clone fills takes the clone's identifier, its parent's
and the next generation, with the parent's image and window (18 R376, R378, R379). -/
def Sys2Proof.Claims.LanesTakeOutcomes : Prop :=
  ∀ (v : Verdict) (a : Arrival) errdep loginc,
    let o := laneOutcome v (statusBase v errdep loginc) a
    let holds := StatusHolds o v errdep loginc
    laneOfArrival a = (o.group, o.lane) ∧
    (v.degenerate = true ∨ v.short = true → o.killed = false ∧ o.clone = none ∧ holds 0 false) ∧
    (v.degenerate = false → v.short = false →
      (∀ x ∈ v.placed, laneOfArrival x.1 = laneOfArrival a → (∀ y ∈ v.placed, laneOfArrival y.1 = laneOfArrival a → y = x) →
        o.killed = a.id.isSome ∧ holds 0 true ∧
        o.clone = some { id := x.2.id, parent := x.2.from_.id.getD 0, gen := (x.2.from_.gen + 1) % 2 ^ 32, image := x.2.from_.image
                         window := x.2.from_.window, place := x.2.from_.place }) ∧
      ((∀ x ∈ v.placed, laneOfArrival x.1 ≠ laneOfArrival a) →
        o.clone = none ∧ (a.id = none → o.killed = false ∧ holds 0 false) ∧
        ∀ c, a.id ≠ none → (∃ x ∈ v.copies, x.1.id = a.id) → (∀ x ∈ v.copies, x.1.id = a.id → x.2 = c) →
          o.killed = decide (c = 0) ∧ holds c false))

/-- The lineage log. A record holds an identifier, a parent and a generation; it is written to the log's element at its place, and no other byte
changes; one that is out of bounds, or whose address does not translate, is not written, and the answer says so; the records follow one another
(18 R380). -/
def Sys2Proof.Claims.LineageIsWritten : Prop :=
  (∀ id parent gen, let x := lineageRecord id parent gen
    x % 2 ^ 48 = id % 2 ^ 48 ∧ x / 2 ^ 48 % 2 ^ 48 = parent % 2 ^ 48 ∧ x / 2 ^ 96 = gen % 2 ^ 32) ∧
  ∀ (s : State) part (log : Rcd) (pos x : Nat) rest,
    let va := log.va (pos : Int)
    let lead := (s.dev.part part).lead
    let out := log.bad = true ∨ log.esize ≠ 4 ∨ log.write = false ∨ log.extent ≤ pos
    let one := writeLineage s.dev part log pos [x]
    writeLineage s.dev part log pos (x :: rest) =
      ((writeLineage one.1 part log (pos + 1) rest).1, one.2 || (writeLineage one.1 part log (pos + 1) rest).2) ∧
    (out → one = (s.dev, true)) ∧
    (¬ out →
      (∀ pa, heldXlate s.dev part lead va writeNeeds true = .local_ pa → s.dev.mem.planted = [] →
        one.2 = false ∧ one.1 = { s.dev with mem := one.1.mem } ∧
        ∀ a, readByte one.1.mem.hbm a = if pa ≤ a ∧ a < pa + 16 then (natBytes 16 x).getD (a - pa) 0 else readByte s.dev.mem.hbm a) ∧
      ∀ c, heldXlate s.dev part lead va writeNeeds true = .fault c →
        one.2 = true ∧ one.1.mem = s.dev.mem ∧
        Logged s { s with dev := one.1 } part (plainEntry c va part 0 lead none 0 false))

/-- RSMP_EVALUATE evaluates a population's open round when it is complete and its members' windows are held, and waits until then. Where no
group waits for the outcome, the round keeps it for every lane that has not gone, its lineage records are written when LOG = 1, the fields that
the hardware holds are as the manual says, and the results that it answers have their data (18 R375, R376, R378 to R380). -/
def Sys2Proof.Claims.RoundsAreEvaluated : Prop :=
  (∀ s part va x k r, va < 2 ^ 57 → (s.dev.part part).popul va = some x → x.current = some k → tget x.rounds k = some r →
    (r.complete = true → holdsOut s.dev part va k = false →
      Becomes (.rsmpEvaluate (2 ^ 57 * part + va)) s (evaluateRound s.dev part va k x r)) ∧
    (r.complete = false ∨ holdsOut s.dev part va k = true → exec (.rsmpEvaluate (2 ^ 57 * part + va)) s = .next s)) ∧
  ∀ (s : State) part va x k r, (s.dev.part part).popul va = some x → tget x.rounds k = some r → k ≠ x.nextRound →
    tget x.rounds x.nextRound = none → (∀ y ∈ s.dev.groups, y.2.waitsData = false) →
    let d := evaluateRound s.dev part va k x r
    let v := judgeRound s.dev r x.held
    let stays := v.degenerate || v.short
    let records := lineageRecord (2 ^ 48 - 1) x.held.round v.clones.length ::
      v.clones.map (fun c => lineageRecord c.id (c.from_.id.getD 0) (c.from_.gen + 1))
    let loginc := descLogs r.desc && !stays && (writeLineage s.dev part (descLog r.desc) x.held.logPos records).2
    let base := statusBase v r.errdep loginc
    (∃ x' r', (d.part part).popul va = some x' ∧ x'.current = none ∧ tget x'.rounds k = some r' ∧ r'.short = v.short ∧
      r'.outcome = some ((r.arrived.filter (fun a => !a.gone)).map (laneOutcome v base)) ∧
      x'.held = if stays then { x.held with lastStat := base } else
        { live := x.held.live - (r.arrived.filter (fun a => a.id.isSome && !a.gone)).length + v.n
          reserve := x.held.reserve - (v.placed.filter (fun p => p.1.id.isNone)).length
          round := (x.held.round + 1) % 2 ^ 64, nextId := x.held.nextId + v.clones.length, lastStat := base
          logPos := x.held.logPos + (if descLogs r.desc then 1 + v.clones.length else 0) }) ∧
    ∀ id g p, s.dev.group (.user id) = some g → (id, g) ∈ s.dev.groups → s.dev.partOf (.user id) = part →
      g.core.pend.find? (fun q => q.ofRound va k) = some p →
      ∃ g', d.group (.user id) = some g' ∧ ∀ q ∈ g'.core.pend, q.op = p.op → q.arrived = true

/-- A round's outcome lands in one lane of a group. A survivor's p14 becomes 0. A member that was killed and receives no clone lives no more and is of no
population, and at the first landing its window pages are unmapped. A vacancy becomes the clone: it lives, its v registers, p0 to p13 and its
requested level are the image's, p14 is 1, its identity is the clone's, DST takes its status, its results in flight are gone and its
accumulator rows are the image's; uniform registers, formats and the other lanes stay. The survivors' statuses land as results (18 R375, R378). -/
def Sys2Proof.Claims.OutcomesLand : Prop :=
  (∀ (s : State) id team k desc (r : Round) (p : Pending) (o : LaneOutcome) g, s.dev.group (.user id) = some g → o.lane < 32 →
    let d := landLane s.dev id team k desc r p o
    (o.clone = none → o.killed = false →
      (g.core.live.getLsbD o.lane = false → d = s.dev) ∧
      (g.core.live.getLsbD o.lane = true → ∃ c, d = s.dev.setGroup (.user id) { g with core := c } ∧ c = { g.core with p := c.p } ∧
        ∀ n l, n < 15 → l < 32 → (c.pAt n).getLsbD l = if n = 14 ∧ l = o.lane then false else (g.core.pAt n).getLsbD l)) ∧
    (o.clone = none → o.killed = true → ∃ g', d.group (.user id) = some g' ∧
      (g.core.live.getLsbD o.lane = true →
        (∀ l, l < 32 → (g'.core.live.getLsbD l = true ↔ l ≠ o.lane ∧ g.core.live.getLsbD l = true)) ∧
        (∀ l, l < 32 → g'.core.popAt l = if l = o.lane then .none else g.core.popAt l) ∧
        (∀ b, (g.core.slot b).st ≠ .idle → (g'.core.slot b).lanes.getLsbD o.lane = false) ∧
        (∀ n l, l < 32 → g'.core.vAt n l = g.core.vAt n l) ∧ ∀ q ∈ g'.core.pend, q.isRsmp = false → q.lanes.getLsbD o.lane = false) ∧
      (r.landed.contains (id, o.lane) = false → ∀ t, s.dev.team team = some t → ∃ t', d.team team = some t' ∧
        ∀ q ∈ windowPages (windowOf r.desc) g.index o.lane, (t'.page q).state = .unmapped)) ∧
    ∀ c, o.clone = some c → KeysOnce c.image.v → KeysOnce c.image.acc →
      ∃ g', d.group (.user id) = some g' ∧
        (∀ l, l < 32 → (g'.core.live.getLsbD l = true ↔ l = o.lane ∨ g.core.live.getLsbD l = true)) ∧
        (∀ l, l < 32 → g'.core.popAt l = if l = o.lane then .member desc c.id c.parent c.gen else g.core.popAt l) ∧
        (∀ l, l < 32 → g'.core.perfAt l = if l = o.lane then c.image.perf else g.core.perfAt l) ∧
        (∀ n l, n < 15 → l < 32 → (g'.core.pAt n).getLsbD l =
          if l = o.lane then n == 14 || tgetD c.image.p n false else (g.core.pAt n).getLsbD l) ∧
        (∀ n l, l < 32 → g'.core.vAt n l =
          if l ≠ o.lane then g.core.vAt n l
          else match p.dst with
            | .rsmp (.v m) _ _ => if m.toNat = n ∧ p.cut.contains (l, 0) = false then o.status else (tget c.image.v n).getD 0
            | _ => (tget c.image.v n).getD 0) ∧
        (∀ q ∈ g'.core.pend, q.uni = false → q.lanes.getLsbD o.lane = false) ∧
        g'.core.s = g.core.s ∧ g'.core.q = g.core.q ∧ g'.core.x = g.core.x ∧ g'.core.b = g.core.b ∧
        (∀ b, (g'.core.slot b).fmt = (g.core.slot b).fmt) ∧
        ∀ core, s.dev.coreOf (.user id) = some core → s.dev.teamOf (.user id) ≠ none → (∀ m ∈ (s.dev.core core).mq, m.group ≠ id) →
          ∀ n row col, row < 32 → col < 32 → g'.core.accAt n row col =
            if row = o.lane then (tget c.image.acc (32 * n + col)).getD 0 else g.core.accAt n row col) ∧
  ∀ (c : GCore) (p : Pending) (out : List LaneOutcome) n desc k o, p.dst = .rsmp (.v n) desc k → o ∈ out → o.lane < 32 → o.clone = none →
    o.killed = false → c.live.getLsbD o.lane = true → (∀ y ∈ out, y.lane = o.lane → y = o) → (∀ y ∈ out, y.lane < 32) →
    p.cut.contains (o.lane, 0) = false → (c.landStatus p out).vAt n.toNat o.lane = o.status

/-- Windows. A held page that is resident has one more reference on its frame and its COW set, one that is out or shared out one more on
its slot, which is read-only from then on; what was held is kept with the arrival. While another group pins a page of the windows nothing
is held. A clone's window takes the held pages: in the parent's bank, or where a page is in a slot, the same frame or slot; elsewhere a
resident page's one copy of the round in a slot that is shared (12 R267, R273; 18 R381). -/
def Sys2Proof.Claims.WindowsAreHeld : Prop :=
  (∀ (s : State) team t page place, s.dev.team team = some t → t.place = some place →
    let e := t.page page
    let d := (holdPage s.dev team page).1
    let w := SptEntry.ofBits (holdPage s.dev team page).2
    (e.state = .unmapped → d = s.dev ∧ w.state = .unmapped) ∧
    (e.state = .resident → (∃ t', d.team team = some t' ∧ t'.page page = { e with cow := true }) ∧
      ((d.core place.1).bank place.2).ref e.frame = ((s.dev.core place.1).bank place.2).ref e.frame + 1 ∧
      w.state = .resident ∧ w.frame = e.frame ∧ w.cow = true) ∧
    (e.state = .out → e.bvalid = true → (∃ t', d.team team = some t' ∧ (t'.page page).state = .sharedOut ∧ (t'.page page).bslot = e.bslot) ∧
      w.state = .sharedOut ∧ w.bslot = e.bslot ∧
      (e.bslot ≠ zeroSlot → tgetD d.mem.slotRefs e.bslot 0 = tgetD s.dev.mem.slotRefs e.bslot 0 + 2)) ∧
    (e.state = .sharedOut → d.team team = some t ∧ w = e ∧
      (e.bslot ≠ zeroSlot → tgetD d.mem.slotRefs e.bslot 0 = tgetD s.dev.mem.slotRefs e.bslot 0 + 1))) ∧
  (∀ (s : State) id g team t pop k x r, s.dev.group (.user id) = some g → s.dev.teamOf (.user id) = some (team, t) →
    g.holdWait = some (pop, k) → (s.dev.part (s.dev.partOf (.user id))).popul pop = some x → tget x.rounds k = some r → r.desc ≠ 0 →
    let pages (a : Arrival) : List Nat := windowPages (windowOf r.desc) g.index a.lane
    let pinnedOne := ∃ a ∈ r.arrived, a.group = id ∧ a.id ≠ none ∧ ∃ q ∈ pages a, pinnedBut s.dev team (some id) q = true
    let d := holdGroup s.dev id
    (pinnedOne → d = s.dev) ∧
    (¬ pinnedOne → d.group (.user id) = some { g with holdWait := none } ∧
      ∃ x' r', (d.part (s.dev.partOf (.user id))).popul pop = some x' ∧ tget x'.rounds k = some r' ∧
        r'.arrived.map (fun a => { a with window := [] }) = r.arrived.map (fun a => { a with window := [] }) ∧
        ∀ a ∈ r'.arrived, a.group = id → a.id ≠ none → a.window.length = (pages a).length)) ∧
  ∀ (s : State) part desc k team (o : CloneOf) page bits t place, s.dev.team team = some t → t.place = some place →
    let e := SptEntry.ofBits bits
    let x := cloneEntry s.dev part desc k place o bits
    (e.state ≠ .resident ∨ place = o.place →
      x = (e, s.dev) ∧ ∃ t', (setWindow s.dev part desc k team o [page] [bits]).team team = some t' ∧
        (t'.page page).state = e.state ∧ (t'.page page).frame = e.frame) ∧
    (e.state = .resident → place ≠ o.place →
      x.1.state = .sharedOut ∧ x.1.cow = false ∧ x.1.bvalid = true ∧ x.1.frame = 0 ∧
      ∀ y r, (s.dev.part part).popul desc = some y → tget y.rounds k = some r →
        let key := 1536 * (2 * o.place.1 + o.place.2) + e.frame
        (∀ slot, tget r.copies key = some slot → x.1.bslot = slot) ∧
        (tget r.copies key = none → x.1.bslot = s.dev.mem.nextSlot ∧
          (∀ i, i < 2048 → readByte x.2.mem.slots (2048 * s.dev.mem.nextSlot + i) =
            readByte ((s.dev.core o.place.1).bank o.place.2).bytes (2048 * e.frame + i)) ∧
          ∃ y' r', (x.2.part part).popul desc = some y' ∧ tget y'.rounds k = some r' ∧ tget r'.copies key = some s.dev.mem.nextSlot))

/-- The population instructions and the resampling round (07 R181; 12 R267, R273; 18 R365 to R383). Where it rests on the model's choices,
they are those of log entries 18, 39 and 40. -/
def Obligations.PopulationInstructions : Prop :=
  PopulationAddress ∧ PopInitActivates ∧ PopJoinJoins ∧ PopLeaveAndStatComplete ∧ LeavingLanesRetire ∧ RoundsLoseLanes ∧ RsmpArrives ∧
    RoundsAreJudged ∧ ClonesArePlaced ∧ LanesTakeOutcomes ∧ LineageIsWritten ∧ RoundsAreEvaluated ∧ OutcomesLand ∧ WindowsAreHeld

-- the binder and the picks

/-- LEAF_INSTALL waits while the die has no replica or a missing leaf has no place; then every missing leaf stands in its table, pinned for
the group, from the launch's image where the table did not hold it, and the group is released (02 R64, R65, R72). -/
def Sys2Proof.Claims.LeavesAreInstalled : Prop :=
  ∀ s id g t lid l core bank miss, Missing s id g t lid l core bank miss →
    let table (x : SlotClass × Nat) : DecTab := tableFor (s.dev.core core) lid bank g.quad x.1
    let ready := replicaAt s.dev l (dieOf core) = true ∧
      ∀ x ∈ miss, (entryPlace (table x) (l.grants.getD (clsNum x.1) 0) x.2).isSome = true
    (¬ ready → exec (.leafInstall id) s = .next s) ∧
    (ready →
      ∃ u, exec (.leafInstall id) s = .next u ∧ u = { s with dev := u.dev } ∧
        u.dev = { s.dev with groups := u.dev.groups, cores := u.dev.cores } ∧ u.dev.group (.user id) = some { g with park := .none } ∧
        (∀ k, k ≠ .user id → u.dev.group k = s.dev.group k) ∧ (∀ k, k ≠ core → u.dev.core k = s.dev.core k) ∧
        u.dev.core core = { s.dev.core core with tabs := (u.dev.core core).tabs } ∧
        ((miss.map (fun x => x.1)).Nodup → ∀ x ∈ miss,
          ∃ e, tableEntry (u.dev.core core) bank g.quad x.1 x.2 = some e ∧ e.pins.contains id = true ∧
            ((table x).entries.all (fun e => e.2.index != x.2) = true → e.leaf = filteredLeaf l x.1 x.2)))

/-- REPLICA_INSTALL gives a die that runs a team of a launch its replica, once; on another die it does nothing (02 R71, R72). -/
def Sys2Proof.Claims.ReplicasAreInstalled : Prop :=
  ∀ s launch die,
    (runsOn s.dev launch die = false → exec (.replicaInstall launch die) s = .next s) ∧
    ∀ l, s.dev.launch launch = some l → runsOn s.dev launch die = true →
      ∃ u, exec (.replicaInstall launch die) s = .next u ∧ u = { s with dev := u.dev } ∧
        u.dev = { s.dev with launches := u.dev.launches } ∧ (∀ k, k ≠ launch → u.dev.launch k = s.dev.launch k) ∧
        u.dev.launch launch = some (if l.done || l.replicas.contains die then l else { l with replicas := l.replicas ++ [die] })

/-- LEAF_INSTALL and REPLICA_INSTALL (02 R64, R65, R71, R72). Where it rests on the model's choices, they are those of log entry 8. -/
def Obligations.BinderInstalls : Prop :=
  LeavesAreInstalled ∧ ReplicasAreInstalled

/-- ISSUE_PICK: while a bundle picked in the last cycle has still to run it waits. Else the core's cycle passes. Above the energy budget
nothing is picked and the stall is counted; else the groups picked could issue, no two of them share a quadrant or a pair's register bank,
some group is picked when one could issue and no firmware bundle ran in the cycle, and each notes the cycle counter (09 R227 to R229, R233). -/
def Sys2Proof.Claims.CyclesPass : Prop :=
  ∀ s core,
    let c := s.dev.core core
    (stillPicked s.dev core ≠ [] ∨ 2560 ≤ core → exec (.issuePick core) s = .next s) ∧
    (stillPicked s.dev core = [] → core < 2560 →
      ∃ u picks, exec (.issuePick core) s = .next u ∧ u = { s with dev := u.dev } ∧
        u.dev = { s.dev with groups := u.dev.groups, cores := u.dev.cores } ∧ (∀ k, k ≠ core → u.dev.core k = s.dev.core k) ∧
        (∀ k, k ∉ picks.map Gid.user → u.dev.group k = s.dev.group k) ∧
        (c.budget < windowSum c c.now → picks = [] ∧ u.dev.core core = { c.tick with picked := [], stallCount := c.stallCount + 1 }) ∧
        (windowSum c c.now ≤ c.budget →
          u.dev.core core = { c.tick with picked := picks, ages := (u.dev.core core).ages } ∧
          (∀ id ∈ picks, eligible s.dev c.now id = true ∧ ∃ g, s.dev.group (.user id) = some g ∧
            u.dev.group (.user id) = some { g with issueCycle := c.cycle }) ∧
          (c.fwPicked = [] → c.fwPorts = [] →
            (∃ pair id, pair < 2 ∧ id ∈ c.age c.frontBank pair ∧ eligible s.dev c.now id = true) → picks ≠ []) ∧
          ((∀ pair id g, pair < 2 → id ∈ c.age c.frontBank pair → s.dev.group (.user id) = some g → g.quad / 2 = pair) →
            (picks.map (fun id => (s.dev.group (.user id)).map (fun g => g.quad))).Nodup ∧
            (picks.map (fun id => (s.dev.group (.user id)).map (fun g => (g.quad / 2, g.pos % 8)))).Nodup)))

/-- FIRMWARE_CREDIT: when the interval has passed the context gains a credit, up to BURST; before that nothing changes (09 R230, R231). -/
def Sys2Proof.Claims.CreditsAreGained : Prop :=
  ∀ s core quad,
    let q := (s.dev.core core).seq quad
    (q.creditAt + q.interval ≤ (s.dev.core core).now → core < 2560 → quad < 4 →
      ∃ u, exec (.firmwareCredit core quad) s = .next u ∧ u = { s with dev := u.dev } ∧ u.dev = { s.dev with cores := u.dev.cores } ∧
        (∀ k, k ≠ core → u.dev.core k = s.dev.core k) ∧
        u.dev.core core = { s.dev.core core with seqs := (u.dev.core core).seqs } ∧
        ∀ k, (u.dev.core core).seq k =
          if k = quad then { q with credits := min (q.credits + 1) q.burst, creditAt := q.creditAt + q.interval }
          else (s.dev.core core).seq k) ∧
    ((s.dev.core core).now < q.creditAt + q.interval ∨ 2560 ≤ core ∨ 4 ≤ quad → exec (.firmwareCredit core quad) s = .next s)

/-- ISSUE_PICK and FIRMWARE_CREDIT (09 R227 to R233). Where it rests on the model's choices, they are those of log entries 4, 30 and
38. -/
def Obligations.CyclesPickGroups : Prop :=
  CyclesPass ∧ CreditsAreGained

-- traps

/-- A group whose kept state lands nothing at its boundary: no result of it is due, none is an RSMP's, and a path of it is there. -/
abbrev Sys2Proof.Claims.AtRest (g : Group) : Prop :=
  (∀ p ∈ g.ck.pend, p.rem ≠ 0 ∧ p.isRsmp = false) ∧ g.ck.live ≠ 0 ∧ (g.ck.slotA.st ≠ .idle ∨ g.ck.slotB.st ≠ .idle)

/-- Taking a trap that a bundle of a user group raises, of a cause that is repaired: the group goes back to its last checkpoint and stops,
and its record holds the bundle's address, the failing address and the cause, code, lane, slot and access (20 R394 to R396, 01 R29). -/
def Sys2Proof.Claims.RepairedTrapsFillTheRecord : Prop :=
  ∀ d id x g, d.group (.user id) = some g → x.defer = false → causeKind x.cause (d.part (d.partOf (.user id))).debugger = .repair →
    x.cause < 256 → x.code < 256 → g.index < 32 → (∀ l, x.lane = some l → l < 32) → x.slot < 8 → x.addr < 2 ^ 64 → x.bpc.toNat < 2 ^ 57 →
    AtRest g → (∃ team t, d.teamOf (.user id) = some (team, t) ∧ id ∈ t.groups) → d.launchOf (.user id) ≠ none →
    ∃ g', (takeTrap d (.user id) x).group (.user id) = some g' ∧ g'.trapSet = true ∧ g'.stopped = true ∧ g'.halted = g.halted ∧
      g'.retired = g.retired ∧ g'.hamper = [] ∧ g'.spanLen = 0 ∧ g'.ck = g'.core ∧ (∀ r l, g'.core.vAt r l = g.ck.vAt r l) ∧
      (∀ r, g'.core.sAt r = g.ck.sAt r) ∧ g'.core.live = g.ck.live ∧
      natBits g'.trapRec.toNat 0 57 = x.bpc.toNat ∧ natBits g'.trapRec.toNat 128 64 = x.addr ∧
      natBits g'.trapRec.toNat 224 8 = x.cause ∧ natBits g'.trapRec.toNat 216 8 = x.code ∧
      natBits g'.trapRec.toNat 211 5 = g.index ∧ natBits g'.trapRec.toNat 199 3 = x.slot ∧
      g'.trapRec.getLsbD 192 = x.write ∧ g'.trapRec.getLsbD 204 = false ∧ g'.trapRec.getLsbD 205 = x.lane.isSome ∧
      ∀ l, x.lane = some l → natBits g'.trapRec.toNat 206 5 = l

/-- What another group of the team, not retired, learns of a kill: one that waits at a barrier of the team goes on with q6 = 1, and any
other one's next barrier instruction completes so (04 R128). A group outside the team learns nothing. -/
def Sys2Proof.Claims.afterKill (t : Team) (k : Gid) (y : Group) : Group :=
  if t.groups.any (fun i => k = .user i) && !y.retired && !y.halted then
    match y.waits with
    | .barrier _ _ => { y with waits := .none, core := y.core.setQ6 true, ck := y.ck.setQ6 true }
    | _ => { y with abandon := true }
  else y

/-- What the other kinds lead to: kind L ends the launch as faulted, HALT as halted with its code, kind D holds the team; the first cause
that a launch meets is its cause. Kind G halts the group alone: every other group is as before, but for what 04 R128 tells its team and for a
wait at the grid barrier that the kill ends; the launch goes on and is marked to complete with status 4 (20 R397; 25 R450; 04 R114, R125,
R128). -/
def Sys2Proof.Claims.TrapsLeadOn : Prop :=
  ∀ d id x g team t lid l, d.group (.user id) = some g → x.defer = false → AtRest g → d.teamOf (.user id) = some (team, t) →
    d.launchOf (.user id) = some (lid, l) → l.done = false →
    let kind := causeKind x.cause (d.part (d.partOf (.user id))).debugger
    let after := takeTrap d (.user id) x
    (kind = .ends → ∃ l', after.launch lid = some l' ∧ l'.done = true ∧ l'.status = 3 ∧
      l'.cause = if l.cause = 0 then x.cause else l.cause) ∧
    (kind = .halt → ∃ l', after.launch lid = some l' ∧ l'.done = true ∧ l'.status = 2 ∧ l'.code = x.code ∧ l'.cause = 0x10) ∧
    (kind = .debug → ∃ t', after.team team = some t' ∧ t'.heldBy = true ∧ after.launch lid = some l) ∧
    (kind = .group →
      (∃ g', after.group (.user id) = some g' ∧ g'.trapSet = true ∧ g'.halted = true ∧ g'.retired = true ∧ g'.hamper = []) ∧
      (∃ l', after.launch lid = some l' ∧ l'.done = false ∧ l'.status = (if l.status = 0 then 4 else l.status) ∧
        l'.cause = if l.cause = 0 then x.cause else l.cause) ∧
      (t.groups.Nodup → (d.groups.map (fun y => y.1)).Pairwise (· < ·) → ∀ k y, k ≠ .user id → d.group k = some y →
        after.group k = some (afterKill t k y) ∨
          (∃ ph, y.waits = .grid ph) ∧
            after.group k = some { afterKill t k y with
              waits := .none, core := (afterKill t k y).core.setQ6 false, ck := (afterKill t k y).ck.setQ6 false }))

/-- Taking a trap (20 R394 to R397; 01 R29; 04 R114; 25 R450). Where it rests on the model's choices, they are those of log entry 24. -/
def Obligations.TrapsFillTheRecord : Prop :=
  RepairedTrapsFillTheRecord ∧ TrapsLeadOn

/-- No group of a team waits for the team to run or for firmware's page path. -/
abbrev Sys2Proof.Claims.NoneWaits (s : State) (t : Team) : Prop :=
  ∀ x ∈ t.groups, ∀ y, s.dev.group (.user x) = some y → y.waitsFirmware = false

/-- PAGE_FAULT_REPAIR: a group without a record goes on when what it waits for can happen, and the pages its team has asked for are brought
in. A record of another cause, or whose turn it is
not, is left. The page of the record is repaired and the record is done with; a swapped-out team repairs it when it is placed again; while
every frame is pinned the group stays parked (12 R269; 20 R396, R401). -/
def Sys2Proof.Claims.PageFaultsAreRepaired : Prop :=
  ∀ s id g team t, s.dev.group (.user id) = some g → s.dev.teamOf (.user id) = some (team, t) →
    let i := Instr.pageFaultRepair id
    let mine := g.recordWaits = true ∧ (recordCause g.trapRec = 0x28 ∨ recordCause g.trapRec = 0x29) ∧
      recordsTurn s.dev id = true
    let fixed := repairPage s.dev team (spuOf s.dev team) (recordAddr g.trapRec / pageSize)
      (recordWrite g.trapRec || recordCause g.trapRec == 0x29)
    (g.trapSet = false → Becomes i s (servePageIns (landDue s.dev id) team)) ∧
    (g.trapSet = true → ¬ mine → exec i s = .next s) ∧
    (mine → t.place = none → Becomes i s (resumeFromTrap s.dev id)) ∧
    (mine → t.place ≠ none →
      (∀ d, fixed = some d → Becomes i s (resumeFromTrap d id) ∧
        (NoneWaits s t → ∃ u g', exec i s = .next u ∧ u.dev.group (.user id) = some g' ∧ g'.trapSet = false ∧ g'.core = g.core ∧
          g'.ck = g.ck)) ∧
      (fixed = none → ∃ u g', exec i s = .next u ∧ u.dev.mem = s.dev.mem ∧ u.dev.group (.user id) = some g' ∧ g' = g))

/-- SEGMENT_ABSENT_REPAIR: once the table holds the segment, the record of cause 0x2A is done with; before that, or for another record,
nothing happens. REPAIR_TIMEOUT: a repair that is declined ends the launch as faulted, once (20 R397, R398). -/
def Sys2Proof.Claims.SegmentsAndTimeouts : Prop :=
  ∀ s id g team t, s.dev.group (.user id) = some g → s.dev.teamOf (.user id) = some (team, t) →
    let mine (causes : List Nat) : Prop := g.recordWaits = true ∧ recordCause g.trapRec ∈ causes ∧ recordsTurn s.dev id = true
    let there := segAbsent (walkSegment s.dev (s.dev.partOf (.user id)) (recordAddr g.trapRec)) = false ∧ recordAddr g.trapRec < 2 ^ 57
    (¬ (mine [0x2A] ∧ there) → exec (.segmentAbsentRepair id) s = .next s) ∧
    (mine [0x2A] ∧ there → Becomes (.segmentAbsentRepair id) s (resumeFromTrap s.dev id) ∧
      (NoneWaits s t → ∃ u g', exec (.segmentAbsentRepair id) s = .next u ∧ u.dev.mem = s.dev.mem ∧
        u.dev.group (.user id) = some g' ∧ g'.trapSet = false ∧ g'.core = g.core ∧ g'.ck = g.ck)) ∧
    (¬ mine [0x28, 0x29, 0x2A] → exec (.repairTimeout id) s = .next s) ∧
    (mine [0x28, 0x29, 0x2A] → ∀ lid l, s.dev.launchOf (.user id) = some (lid, l) → l.done = false →
      ∃ u l', exec (.repairTimeout id) s = .next u ∧ u.dev.launch lid = some l' ∧ l'.done = true ∧ l'.status = 3 ∧
        l'.cause = if l.cause = 0 then recordCause g.trapRec else l.cause)

/-- Answers to traps (12 R269; 20 R396 to R398, R401). Where it rests on the model's choices, they are those of log entries 8, 24,
39 and 40. -/
def Obligations.RepairsAnswerTraps : Prop :=
  PageFaultsAreRepaired ∧ SegmentsAndTimeouts

/-- GCTL's commands on the group that GSEL selects, none selected: nothing. Stop holds the whole team, whose groups stop; resume ends the
hold and the record; past a trap of cause 0x01 or 0xE0 the group also notes the trapping bundle; handling as kind L ends the launch as
faulted (04 R119; 20 R397; 21 R409, R418). -/
def Sys2Proof.Claims.GroupCommands : Prop :=
  ∀ s core quad,
    let sel := selectedGroup s.dev core ((s.dev.core core).seq quad).gsel
    (sel = none ∨ ¬ (core < 2560 ∧ quad < 4) → ∀ i ∈ [Instr.gctlStop core quad, .gctlResume core quad, .gctlResumePast core quad, .gctlHandleKindL core quad],
      exec i s = .next s) ∧
    ∀ id g team t, core < 2560 → quad < 4 → sel = some (id, g) → g.kind = .user team → s.dev.group (.user id) = some g →
      s.dev.team team = some t → id ∈ t.groups →
      let past := g.trapSet = true ∧ (recordCause g.trapRec = 0x01 ∨ recordCause g.trapRec = 0xE0)
      (∃ u t', exec (.gctlStop core quad) s = .next u ∧ u.dev.mem = s.dev.mem ∧ u.dev.team team = some t' ∧
        t' = { t with heldBy := true } ∧ ∀ x ∈ t.groups, ∀ y, s.dev.group (.user x) = some y → ∃ y', u.dev.group (.user x) = some y' ∧
          y' = { y with stopped := true, park := y'.park }) ∧
      Becomes (.gctlResume core quad) s (resumeFromTrap (s.dev.setTeam team { t with heldBy := false }) id) ∧
      (NoneWaits s t → ∃ u g', exec (.gctlResume core quad) s = .next u ∧ u.dev.mem = s.dev.mem ∧
        u.dev.team team = some { t with heldBy := false } ∧ u.dev.group (.user id) = some g' ∧
        g' = { g with trapSet := false, stopped := g'.stopped }) ∧
      (¬ past → exec (.gctlResumePast core quad) s = .next s) ∧
      (past → NoneWaits s t →
        ∃ u g', exec (.gctlResumePast core quad) s = .next u ∧ u.dev.mem = s.dev.mem ∧ u.dev.group (.user id) = some g' ∧
          g' = { g with trapSet := false, stopped := g'.stopped, past := some (recordBpc g.trapRec) }) ∧
      (¬ (g.trapSet = true ∧ g.halted = false) → exec (.gctlHandleKindL core quad) s = .next s) ∧
      (g.trapSet = true → g.halted = false → ∀ lid l, s.dev.launchOf (.user id) = some (lid, l) → l.done = false →
        ∃ u l', exec (.gctlHandleKindL core quad) s = .next u ∧ u.dev.launch lid = some l' ∧ l'.done = true ∧ l'.status = 3)

/-- RDATA: a write reaches the element that RSEL names of a selected group that has stopped or trapped, in its state and in the state kept at
its checkpoint, and what was pending on it is cut; a lane that is not live, a format that is not allowed, or a group that is not there or
runs, takes no write (21 R418, R419, R421). -/
def Sys2Proof.Claims.ElementsAreWritten : Prop :=
  ∀ s core quad value,
    let q := (s.dev.core core).seq quad
    let sel := selectedGroup s.dev core q.gsel
    let i := Instr.rdataWrite core quad value
    (groupState sel < 2 ∨ ¬ (core < 2560 ∧ quad < 4) → exec i s = .next s) ∧
    ∀ id g, core < 2560 → quad < 4 → sel = some (id, g) → 2 ≤ groupState sel →
      let barred := (rselSpace q.rsel = 0 ∨ rselSpace q.rsel = 2) ∧ g.core.live.getLsbD (rselLane q.rsel) = false ∨
        rselSpace q.rsel = 6 ∧ fmtAllowed value = false
      let put (c : GCore) : GCore := writeElement (cutElement c q.rsel) q.rsel value
      (barred → exec i s = .next s) ∧
      (¬ barred → Becomes i s (s.dev.setGroup (.user id) { g with core := put g.core, ck := put g.ck }) ∧
        (rselSpace q.rsel = 0 → ∀ r l, r < 256 → l < 32 → (put g.core).vAt r l =
          if r = rselNum q.rsel ∧ l = rselLane q.rsel then value else g.core.vAt r l) ∧
        (rselSpace q.rsel = 1 → ∀ r, (put g.core).sAt r = if r = rselNum q.rsel % 64 then value else g.core.sAt r) ∧
        (rselSpace q.rsel = 2 → ∀ (r : BitVec 4) l, l < 32 → ((put g.core).pAt r.toNat).getLsbD l =
          if r = 15 then true else if r.toNat = rselNum q.rsel % 16 ∧ l = rselLane q.rsel then value.getLsbD 0
          else (g.core.pAt r.toNat).getLsbD l) ∧
        (rselSpace q.rsel = 3 → ∀ r : BitVec 3, (put g.core).qAt r.toNat =
          if r = 7 then true else if r.toNat = rselNum q.rsel % 8 then value.getLsbD 0 else g.core.qAt r.toNat) ∧
        (rselSpace q.rsel ∈ [4, 5, 6] → readElement (put g.core) q.rsel = value))

/-- GCTL's commands and RDATA (04 R119; 20 R397; 21 R409, R418, R419, R421). Where it rests on the model's choices, they are those of log
entry 24. -/
def Obligations.GroupControlCommands : Prop :=
  GroupCommands ∧ ElementsAreWritten


-- banks and places

/-- Nothing waits for its team or for firmware's page path. -/
abbrev Sys2Proof.Claims.NobodyWaits (s : State) : Prop := ∀ k y, s.dev.group k = some y → y.waitsFirmware = false

/-- The front bank's groups. -/
abbrev Sys2Proof.Claims.frontGroups (s : State) (core : Nat) : List (Nat × Group) := bankGroups s.dev core (s.dev.core core).frontBank

/-- BANK_FLIP: the banks change places, and the outgoing groups are descheduled and lose their pins; while the back bank drains the flip
waits. AUTO_BANK_FLIP is the same flip when no front-bank group could issue and a back-bank group could, and else nothing (02 R64; 12 R270;
21 R413). -/
def Sys2Proof.Claims.BanksFlip : Prop :=
  ∀ s core,
    let c := s.dev.core core
    let t := flipBank s.dev core
    (drainNow s.dev core = .idle → Becomes (.bankFlip core) s t) ∧
    (drainNow s.dev core ≠ .idle → Becomes (.bankFlip core) s (s.dev.setCore core { c with flipPend := true })) ∧
    (ableGroups s.dev core c.frontBank = [] → ableGroups s.dev core c.backBank ≠ [] →
      exec (.autoBankFlip core) s = exec (.bankFlip core) s) ∧
    (ableGroups s.dev core c.frontBank ≠ [] ∨ ableGroups s.dev core c.backBank = [] → exec (.autoBankFlip core) s = .next s) ∧
    (NobodyWaits s → t = { s.dev with groups := t.groups, cores := t.cores } ∧ (t.core core).front = !c.front ∧
      (t.core core).flipPend = false ∧ (t.core core).drain = .idle ∧
      (∀ x ∈ frontGroups s core, t.group (.user x.1) = some { x.2 with park := unparkQuire x.2.park } ∧
        (s.dev.coreOf (.user x.1) = some core → ∀ k tab, tget (t.core core).tabs k = some tab → ∀ e ∈ tab.entries, x.1 ∉ e.2.pins)) ∧
      ∀ k, (∀ x ∈ frontGroups s core, k ≠ .user x.1) → t.group k = s.dev.group k)

/-- BANK_DRAIN: an empty back bank stays as it is; of another each team that may leave is swapped out, the drain ends when none is left, and
a flip that waited is then made; else it goes on or waits for save frames (20 R401, R404; 21 R414). -/
def Sys2Proof.Claims.BanksDrain : Prop :=
  ∀ s core,
    let c := s.dev.core core
    (bankTeams s.dev core c.backBank = [] → exec (.bankDrain core) s = .next s) ∧
    (bankTeams s.dev core c.backBank ≠ [] →
      ∃ u, exec (.bankDrain core) s = .next u ∧ u = { s with dev := u.dev } ∧
        (NobodyWaits s →
          (bankTeams u.dev core c.backBank = [] → (u.dev.core core).drain = .idle ∧ (u.dev.core core).flipPend = false ∧
            (u.dev.core core).front = (c.front != c.flipPend)) ∧
          (bankTeams u.dev core c.backBank ≠ [] → ((u.dev.core core).drain = .draining ∨ (u.dev.core core).drain = .waiting) ∧
            (u.dev.core core).flipPend = c.flipPend ∧ (u.dev.core core).front = c.front) ∧
          ∀ id t, s.dev.team id = some t → t.place = some (core, c.backBank) →
            ∃ t', u.dev.team id = some t' ∧ t'.groups = t.groups ∧
              (t'.place = none ∧ t'.saved = true ∧ t'.starved = false ∨ t'.place = t.place ∧ t'.saved = t.saved)))

/-- BANK_FILL: of the contexts that have saved teams on the die and are not resident in front, the lowest gets an empty back bank, and the
first of its teams that the bank can take is placed there; with no such context, or with teams in the bank, nothing happens (21 R414). -/
def Sys2Proof.Claims.BanksFill : Prop :=
  ∀ s core,
    let c := s.dev.core core
    let hasSome (k : Nat) : Prop := savedTeams s.dev (dieOf core) k ≠ [] ∧
      ¬ (bankTeams s.dev core c.frontBank ≠ [] ∧
        tget (s.dev.part (s.dev.partOfDie (dieOf core))).bankCtx (2 * core + c.frontBank) = some k)
    ((∀ k, k < 5 → ¬ hasSome k) ∨ bankTeams s.dev core c.backBank ≠ [] → exec (.bankFill core) s = .next s) ∧
    ∀ k, k < 5 → hasSome k → (∀ j, j < k → ¬ hasSome j) → Becomes (.bankFill core) s (fillBack s.dev core k) ∧
      (bankTeams s.dev core c.backBank = [] → NobodyWaits s → ∀ before team rest, savedTeams s.dev (dieOf core) k = before ++ team :: rest →
        (∀ x ∈ before, canTake s.dev x core c.backBank = false) → canTake s.dev team core c.backBank = true →
        ∃ t', (fillBack s.dev core k).team team = some t' ∧ t'.place = some (core, c.backBank) ∧ t'.saved = false)

/-- Bank flips, drains and fills of a core (02 R64; 12 R270; 20 R401, R404; 21 R413, R414). Where it rests on the model's choices, they are
those of log entry 21. -/
def Obligations.BanksFlipDrainAndFill : Prop :=
  BanksFlip ∧ BanksDrain ∧ BanksFill

/-- TEAM_MIGRATE: a placed team that may leave goes to a bank that can take it, with its groups' registers and the rest of their state, and
each keeps its quadrant; else nothing happens (07 R180; 12 R274). -/
def Sys2Proof.Claims.TeamsMigrate : Prop :=
  ∀ s team core bank,
    let moves (t : Team) : Prop := t.place.isSome = true ∧ t.retired = false ∧ t.starved = false ∧ t.place ≠ some (core, bank) ∧ bank < 2 ∧
      mayDepart s.dev team = true ∧ canTake s.dev team core bank = true
    let d := placeTeam (departTeam s.dev team) team core bank
    ((∀ t, s.dev.team team = some t → ¬ moves t) → exec (.teamMigrate team core bank) s = .next s) ∧
    ∀ t, s.dev.team team = some t → moves t → Becomes (.teamMigrate team core bank) s d ∧
      (NobodyWaits s → t.groups ≠ [] → d.launches = s.dev.launches ∧ d.fw = s.dev.fw ∧
        (∃ t', d.team team = some t' ∧ t'.place = some (core, bank) ∧ t'.saved = false ∧ t'.groups = t.groups ∧ t'.rings = t.rings ∧
          t'.bars = t.bars) ∧
        (∀ id ∈ t.groups, ∀ g, s.dev.group (.user id) = some g →
          ∃ g', d.group (.user id) = some g' ∧
            g' = { g with pos := g'.pos, park := unparkQuire g.park, lastIssue := g.lastIssue.map (fun _ => (s.dev.core core).now - 1) }) ∧
        ∀ k, (∀ id ∈ t.groups, k ≠ .user id) → d.group k = s.dev.group k)

/-- TEAM_SWAP_OUT: a stopped team that may leave gathers its save frames from the list; with all of them it leaves its core, saved, with its
groups' state; with too few it keeps its place and is starved. SAVE_FRAME_PUSH puts a frame of the partition's memory at the list's head,
its first 8 bytes naming the old head, and leaves everything else; another value does nothing (20 R401 to R404). -/
def Sys2Proof.Claims.TeamsAreSaved : Prop :=
  (∀ s team,
    let goes (t : Team) (l : Launch) : Prop := s.dev.launch t.launch = some l ∧ t.place.isSome = true ∧ teamStopped s.dev t = true ∧
      mayDepart s.dev team = true
    ((∀ t l, s.dev.team team = some t → ¬ goes t l) → exec (.teamSwapOut team) s = .next s) ∧
    ∀ t l, s.dev.team team = some t → goes t l →
      let got := gatherFrames s.dev l.part team (framesNeeded l.spine - t.frames.length)
      ∃ u, exec (.teamSwapOut team) s = .next u ∧ u = { s with dev := u.dev } ∧
        (got.2 = true → NobodyWaits s →
          (∃ t', u.dev.team team = some t' ∧ t'.place = none ∧ t'.saved = true ∧ t'.starved = false ∧ t'.groups = t.groups ∧
            t'.rings = t.rings ∧ t'.bars = t.bars ∧ t'.frames.length = max t.frames.length (framesNeeded l.spine)) ∧
          (∀ id ∈ t.groups, ∀ g, s.dev.group (.user id) = some g →
            ∃ g', u.dev.group (.user id) = some g' ∧ g' = { g with park := unparkQuire g.park, stopped := g'.stopped } ∧
              (t.starved = false → g'.stopped = g.stopped)) ∧
          ∀ k, (∀ id ∈ t.groups, k ≠ .user id) → u.dev.group k = s.dev.group k) ∧
        (got.2 = false → u.dev.groups = s.dev.groups ∧ u.dev.cores = s.dev.cores ∧
          ∃ t', u.dev.team team = some t' ∧ t' = { t with starved := true, frames := t'.frames })) ∧
  ∀ s part (value : DWord),
    let p := s.dev.part part
    let good := Up s ∧ value.toNat < 2 ^ 40 ∧ value ≠ 0 ∧ s.dev.partOfDie (homeDie (value.toNat * 4096)) = part
    (¬ good → exec (.saveFramePush part value) s = .next s) ∧
    (good →
      ∃ u, exec (.saveFramePush part value) s = .next u ∧ u = { s with dev := u.dev } ∧
        u.dev = { s.dev with mem := u.dev.mem, parts := u.dev.parts } ∧
        BytesStored s u (value.toNat * 4096) (natBytes 8 p.saveHead) ∧
        u.dev.part part = { p with saveHead := value.toNat, saveCount := p.saveCount + 1, offList := (u.dev.part part).offList } ∧
        ∀ k, k ≠ part → u.dev.part k = s.dev.part k)

/-- TEAM_RETIRE: a team that is finished gives up its place and frames; what its rings and barriers hold stays. Its launch's counter falls,
and at 0 the launch completes, with status 1 unless a trap has set another, and its record at the address that LAUNCH gave (07 R196, R197;
19 R390; 25 R450). -/
def Sys2Proof.Claims.TeamsRetire : Prop :=
  ∀ s team,
    let ends (t : Team) (l : Launch) : Prop := s.dev.launch t.launch = some l ∧ t.retired = false ∧ l.done = false ∧
      teamFinished s.dev team t = true
    ((∀ t l, s.dev.team team = some t → ¬ ends t l) → exec (.teamRetire team) s = .next s) ∧
    ∀ t l, s.dev.team team = some t → ends t l →
      let last : Launch := { l with status := if l.status = 0 then 1 else l.status }
      ∃ u t' l', exec (.teamRetire team) s = .next u ∧ u = { s with dev := u.dev } ∧ u.dev.team team = some t' ∧ t'.retired = true ∧
        t'.place = none ∧ t'.frames = [] ∧ t'.groups = t.groups ∧ t'.rings = t.rings ∧ t'.bars = t.bars ∧
        u.dev.launch t.launch = some l' ∧ l'.counter = l.counter - 1 ∧ (1 < l.counter → l' = { l with counter := l.counter - 1 }) ∧
        (l.counter ≤ 1 → l'.done = true ∧ l'.status = last.status ∧ l'.cause = l.cause ∧ l'.code = l.code) ∧
        (l.counter ≤ 1 → t.frames = [] → l.pops = [] → Sound s l.part → ∀ pa, Writable s l.part l.completion 8 pa →
          (∀ a, readByte u.dev.mem.hbm a =
            if pa ≤ a ∧ a < pa + 8 then (completionRecord last).getD (a - pa) 0 else readByte s.dev.mem.hbm a) ∧
          (((s.dev.part l.part).stream l.stream).wait = .launch t.launch →
            (u.dev.part l.part).stream l.stream = ((s.dev.part l.part).stream l.stream).packetEnd))

/-- A team's migration, swap-out and retirement (07 R180, R196, R197; 12 R274; 19 R390; 20 R401 to R404; 25 R450). Where it rests on the
model's choices, they are those of log entries 12, 21, 39 and 40. -/
def Obligations.TeamsMoveAndRetire : Prop :=
  TeamsMigrate ∧ TeamsAreSaved ∧ TeamsRetire

/-- GLOBAL_DISPATCH_BATCH: with no saved team to place and nothing queued, or no die with room for the queue's head, nothing happens; else
a batch of the queue's teams, at most as many as the chosen die has room for, leaves it, and its first team is placed on that die. A saved
team that is runnable again goes back to the die it sat on. SEED_PLACE: the seed team that its stream waits to place is seated on the lead
die with its registers set, the launch's counter is 1, and the stream waits for the launch; else nothing happens (07 R194 to R196;
09 R222 to R225; 20 R401). -/
def Sys2Proof.Claims.TeamsArePlaced : Prop :=
  (∀ s part,
    let back := s.dev.teams.filter (fun t => savedRunnable s.dev part t.2)
    (back = [] → (s.dev.part part).gq = [] → exec (.globalDispatchBatch part) s = .next s) ∧
    (∀ id t, back = [(id, t)] → (s.dev.part part).gq = [] →
      Becomes (.globalDispatchBatch part) s (dispatchTeam s.dev t.home id) ∧
      ∀ core bank, NobodyWaits s → choosePlace s.dev id t.home = some (core, bank) →
        ∃ t', (dispatchTeam s.dev t.home id).team id = some t' ∧ t'.place = some (core, bank)) ∧
    ∀ id rest t l, back = [] → (s.dev.part part).gq = id :: rest → s.dev.team id = some t → s.dev.launch t.launch = some l →
      let best := bestDie ((eligibleDies s.dev l t).map (fun k => (k, dieRoom s.dev id k l)))
      (best = none → exec (.globalDispatchBatch part) s = .next s) ∧
      ∀ die n, best = some (die, n) →
        ∃ u, exec (.globalDispatchBatch part) s = .next u ∧ u = { s with dev := u.dev } ∧
          (NobodyWaits s → ∃ k t' core bank, 1 ≤ k ∧ k ≤ n ∧ (u.dev.part part).gq = (s.dev.part part).gq.drop k ∧
            u.dev.team id = some t' ∧ t'.place = some (core, bank) ∧ dieOf core = die)) ∧
  ∀ s launch,
    let goes (l : Launch) (id : Nat) (t : Team) (core bank : Nat) : Prop := s.dev.launch launch = some l ∧
      seedOf s.dev launch = some (id, t) ∧ ((s.dev.part l.part).stream l.stream).wait = .seed launch ∧ l.done = false ∧
      contextRuns (s.dev.part l.part) l = true ∧ choosePlace s.dev id (s.dev.part l.part).lead = some (core, bank)
    ((∀ l id t core bank, ¬ goes l id t core bank) → exec (.seedPlace launch) s = .next s) ∧
    ∀ l id t core bank, goes l id t core bank →
      ∃ u, exec (.seedPlace launch) s = .next u ∧ u = { s with dev := u.dev } ∧
        (NobodyWaits s → ∃ t', u.dev.team id = some t' ∧ t'.place = some (core, bank) ∧
          u.dev.launch launch = some { l with counter := 1 } ∧ ((u.dev.part l.part).stream l.stream).wait = .launch launch ∧
          (s.dev.team id = some t → t.groups = [] → t'.groups = [s.dev.nextGroup] ∧
            ∃ g, u.dev.group (.user s.dev.nextGroup) = some g ∧ g.core = startRegs l t ∧ g.index = 0 ∧ g.stopped = false))

/-- GRID_RELEASE_WINDOW: of the cores on which groups wait for a completed phase at most the quota, and 16 of one die, are admitted; the
groups that wait there are released with q6 = 0, and so is every group that waits off a core; nothing is left to do when no core waits
(04 R124; 08 R213; 09 R234). -/
def Sys2Proof.Claims.GridsRelease : Prop :=
  ∀ s launch quota,
    ((∀ l, s.dev.launch launch = some l → l.releasing = []) ∨ quota < 16 ∨ 256 < quota →
      exec (.gridReleaseWindow launch quota) s = .next s) ∧
    ∀ l, s.dev.launch launch = some l → l.releasing ≠ [] → 16 ≤ quota → quota ≤ 256 →
      let from_ := l.slew.getD ((s.dev.slewDie + 1) % 16, quota)
      let waiting := gridCores s.dev launch l.grid.phase
      let cores := admitCores waiting from_.1 from_.2 16
      let left := waiting.filter (fun c => !cores.contains c)
      ∃ u, exec (.gridReleaseWindow launch quota) s = .next u ∧ u = { s with dev := u.dev } ∧
        u.dev = { s.dev with groups := u.dev.groups, cores := u.dev.cores, launches := u.dev.launches, slewDie := u.dev.slewDie } ∧
        cores.length ≤ from_.2 ∧ (∀ c ∈ cores, c ∈ waiting) ∧ (∀ die, (cores.filter (fun c => dieOf c == die)).length ≤ 16) ∧
        (l.slew = none → (∃ c ∈ waiting, c < 2560) → cores ≠ []) ∧
        u.dev.launch launch = some { l with releasing := left, slew := if left = [] then none else some (slewStop from_.1 cores, from_.2) } ∧
        (∀ k, k ≠ launch → u.dev.launch k = s.dev.launch k) ∧
        (∀ id g, s.dev.group (.user id) = some g → waitsGrid s.dev launch l.grid.phase (id, g) = true →
          (s.dev.coreOf (.user id) = none ∨ ∃ c ∈ cores, s.dev.coreOf (.user id) = some c) → u.dev.group (.user id) = some (g.barrierDone false)) ∧
        (∀ k, (∀ x ∈ s.dev.groups, k = .user x.1 → waitsGrid s.dev launch l.grid.phase x = false) → u.dev.group k = s.dev.group k) ∧
        ∀ c, c ∉ cores → u.dev.core c = s.dev.core c

/-- The dispatchers and the slew limiter (04 R124; 07 R194 to R196; 09 R222 to R225, R234; 20 R401). Where it rests on the model's choices,
they are those of log entries 1, 8 and 21. -/
def Obligations.DispatchersPlaceTeams : Prop :=
  TeamsArePlaced ∧ GridsRelease

-- power

/-- A die after the power manager has taken its target from the requests, the cap and the current. -/
abbrev Sys2Proof.Claims.aimed (s : State) (die : Nat) : Die := (s.dev.die die).aim (dieGrant s.dev die)

/-- The step makes a die's registers x, leaves the other dies, and may set the budgets of the die's cores to values between 16 and 3840. -/
def Sys2Proof.Claims.DieBecomes (i : Instr) (s : State) (die : Nat) (x : Die) : Prop :=
  ∃ u, exec i s = .next u ∧ u = { s with dev := u.dev } ∧
    u.dev = { s.dev with dies := u.dev.dies, cores := u.dev.cores, drawn := u.dev.drawn } ∧ u.dev.die die = x ∧
    (∀ k, k ≠ die → u.dev.die k = s.dev.die k) ∧
    ∀ c, u.dev.core c = { s.dev.core c with budget := (u.dev.core c).budget } ∧
      (dieOf c ≠ die → u.dev.core c = s.dev.core c) ∧
      (u.dev.core c ≠ s.dev.core c → 16 ≤ (u.dev.core c).budget ∧ (u.dev.core c).budget ≤ 3840)

/-- The level follows the target: a current above the limit lowers the target by one level, one below it raises the target toward the
grant; a rise starts one level at a time when the slew limiter admits it; a change that is done sets the level and, when the target has
fallen meanwhile, starts the fall (09 R233; 24 R438). -/
def Sys2Proof.Claims.LevelsFollow : Prop :=
  ∀ s die,
    let x := aimed s die
    let grant := dieGrant s.dev die
    let raised := if x.target < grant then x.target + 1 else x.target
    DieBecomes (.currentLimitExceeded die) s die ({ x with target := x.target - 1, limit := true } : Die).move ∧
    DieBecomes (.currentBelowLimit die) s die ({ x with target := raised, limit := x.limit && decide (raised < grant) } : Die).move ∧
    DieBecomes (.slewInterval die) s die
      (if x.changing = none ∧ x.level < x.target then { x with changing := some (x.level + 1) } else x) ∧
    DieBecomes (.levelChangeDone die) s die
      (match x.changing with | some n => ({ x with level := n, changing := none } : Die).move | none => x)

/-- The cap takes a value with no reserved bit, and every die of the partition aims anew; the heat map takes the code of each zone's
temperature, 4 degrees a step from 40 up, 0 to 15 (24 R439, R441). -/
def Sys2Proof.Claims.CapsAndHeat : Prop :=
  (∀ s part (value : Word),
    (16 ≤ value.toNat ∨ ¬ Up s → exec (.partitionCapWrite part value) s = .next s) ∧
    (value.toNat < 16 → Up s →
      ∃ u, exec (.partitionCapWrite part value) s = .next u ∧ u = { s with dev := u.dev } ∧
        u.dev = { s.dev with dies := u.dev.dies, parts := u.dev.parts } ∧
        u.dev.part part = { s.dev.part part with cap := value.toNat } ∧ (∀ k, k ≠ part → u.dev.part k = s.dev.part k) ∧
        ∀ k, u.dev.die k = if k ∈ (s.dev.part part).dieList then (s.dev.die k).aim (dieGrant u.dev k) else s.dev.die k)) ∧
  ∀ s temps,
    ∃ u, exec (.heatMapUpdate temps) s = .next u ∧ u = { s with dev := u.dev } ∧ u.dev = { s.dev with dies := u.dev.dies } ∧
      (∀ k, u.dev.die k = { s.dev.die k with heat := (u.dev.die k).heat }) ∧ (∀ k, 16 ≤ k → u.dev.die k = s.dev.die k) ∧
      ∀ k z, k < 16 → z < 16 →
        ((u.dev.die k).heat.getD z 0 : Int) = max 0 (min 15 (Int.fdiv (temps.getD (16 * k + z) 0 - 40) 4))

/-- A die of no partition, or of a suspended one when no team sits on its cores, is gated: its staging bytes and replicas are lost, its
memory stays, and a partition that is to be gated with all its dies is gated with the last; another die is not gated. Ungating ends it
(24 R440; 25 R458). -/
def Sys2Proof.Claims.DiesAreGated : Prop :=
  ∀ s die,
    let p := s.dev.partOfDie die
    let may := p = 0 ∨ (s.dev.part p).susp = true ∧ dieDrained s.dev die = true
    (¬ may → exec (.dieGate die) s = .next s) ∧
    (may →
      ∃ u, exec (.dieGate die) s = .next u ∧ u = { s with dev := u.dev } ∧
        u.dev = { s.dev with dies := u.dev.dies, mem := u.dev.mem, parts := u.dev.parts } ∧
        u.dev.die die = { s.dev.die die with gated := true } ∧ (∀ k, k ≠ die → u.dev.die k = s.dev.die k) ∧
        u.dev.mem = { s.dev.mem with
          staging := u.dev.mem.staging, stagingForm := u.dev.mem.stagingForm, stagingPoison := u.dev.mem.stagingPoison } ∧
        (∀ a, readByte u.dev.mem.staging a = if a / 2 ^ 28 = die then 0 else readByte s.dev.mem.staging a) ∧
        (∀ l, replicaAt u.dev l die = false) ∧
        (∀ k, k ≠ p ∨ p = 0 → u.dev.part k = s.dev.part k) ∧
        (p ≠ 0 → u.dev.part p = { s.dev.part p with
          state := if (s.dev.part p).state = 2 ∧ ∀ i ∈ (s.dev.part p).dieList, (u.dev.die i).gated = true then 3
            else (s.dev.part p).state })) ∧
    ∃ u, exec (.dieUngate die) s = .next u ∧ u = { s with dev := u.dev } ∧ u.dev = { s.dev with dies := u.dev.dies } ∧
      u.dev.die die = { s.dev.die die with gated := false } ∧ ∀ k, k ≠ die → u.dev.die k = s.dev.die k

/-- Voltage and frequency levels, the cap, the heat map and gating (09 R233; 24 R437 to R441). Where it rests on the model's choices, they
are those of log entries 4 and 28. -/
def Obligations.PowerEvents : Prop :=
  LevelsFollow ∧ CapsAndHeat ∧ DiesAreGated

-- segments

/-- A write of the segment invalidate register empties the caches of the partition's dies of the segment named, or of all, and PEND is
set; an invalidation in progress of something else grows to all. While a request translated before is out it stays; then PEND clears. With
none in progress nothing happens (11 R252, R253). -/
def Sys2Proof.Claims.SegmentsInvalidate : Prop :=
  (∀ s part (value : DWord),
    let which := if value.getLsbD 0 then none else some (natBits value.toNat 21 36)
    (Up s → (s.dev.part part).state = 4 → PartBecomes (.segmentInvalidate part value) s part (s.dev.part part).refuse) ∧
    (MayWrite s part → ∃ u, exec (.segmentInvalidate part value) s = .next u ∧ u = { s with dev := u.dev } ∧
      u.dev = { s.dev with dies := u.dev.dies, parts := u.dev.parts } ∧
      u.dev.part part = { s.dev.part part with
        inval := if (s.dev.part part).inval = none ∨ (s.dev.part part).inval = some which then some which else some none } ∧
      (∀ k, k ≠ part → u.dev.part k = s.dev.part k) ∧
      ∀ k, u.dev.die k = if k ∈ (s.dev.part part).dieList then
          { s.dev.die k with segCache := match which with | some seg => tdel (s.dev.die k).segCache seg | none => [] }
        else s.dev.die k)) ∧
  (∀ s part, exec (.segmentInvalidateAll part) s = exec (.segmentInvalidate part 1) s) ∧
  ∀ s part,
    ((s.dev.part part).inval = none → exec (.invalidationDone part) s = .next s) ∧
    ∀ which, (s.dev.part part).inval = some which →
      (requestsOut s.dev part which = true → exec (.invalidationDone part) s = .next s) ∧
      (requestsOut s.dev part which = false →
        ∃ u, exec (.invalidationDone part) s = .next u ∧ u = { s with dev := u.dev } ∧ u.dev.mem = s.dev.mem ∧
          u.dev.part part = { s.dev.part part with inval := none } ∧ (∀ k, k ≠ part → u.dev.part k = s.dev.part k) ∧
          ∀ k g, s.dev.group k = some g → ∃ g', u.dev.group k = some g' ∧
            g' = { g with hamper := g'.hamper, waiting := g'.waiting, core := g'.core, ck := g'.ck } ∧
            g'.core = { g.core with tiles := g'.core.tiles } ∧ g'.ck = { g.ck with tiles := g'.ck.tiles })

/-- SEGMENT_MIGRATE of a segment in local memory of the partition: the first step marks its entry and empties the caches; while a copy
request or a line request uses the old place it waits; then the segment's bytes stand at the new place and its entry names it. A segment
that is absent, not local or another partition's, a place outside memory, and a segment that is marked but not moving are left (11 R254). -/
def Sys2Proof.Claims.SegmentsMigrate : Prop :=
  ∀ s part seg (target : DWord),
    let i := Instr.segmentMigrate part seg target
    let e := walkSegment s.dev part (seg * segSize)
    let base := target.toNat / segSize * segSize
    let first := (s.dev.part part).segBase + 8 * (seg * segSize / 2 ^ 39 % 2 ^ 18)
    let good := segAbsent e = false ∧ segLoc e = 0 ∧ segWorld e = part ∧ seg * segSize < 2 ^ 57 ∧ base < 2 ^ 40
    let mover := (s.dev.part part).moving.find? (fun x => x.1 == seg)
    (¬ good → exec i s = .next s) ∧
    (good → segState e = 1 →
      (∀ a, segEntryAddr s.dev part (seg * segSize) = some a → first + 8 ≤ a ∨ a + 16 ≤ first) →
      ∃ u, exec i s = .next u ∧ u = { s with dev := u.dev } ∧
        u.dev = { s.dev with mem := u.dev.mem, dies := u.dev.dies, parts := u.dev.parts } ∧
        u.dev.part part = { s.dev.part part with moving := (s.dev.part part).moving.filter (fun x => x.1 != seg) ++ [(seg, base)] } ∧
        walkSegment u.dev part (seg * segSize) = e + 1 ∧
        ∀ k ∈ (s.dev.part part).dieList, (u.dev.die k).segCache = tdel (s.dev.die k).segCache seg) ∧
    (good → segState e ≠ 1 → mover = none → exec i s = .next s) ∧
    ∀ dst, good → segState e ≠ 1 → mover = some (seg, dst) →
      let out := busyCount s.dev part seg ≠ 0 ∨ requestsOut s.dev part (some seg) = true
      (out → exec i s = .next s) ∧
      (¬ out →
        ∃ u, exec i s = .next u ∧ u = { s with dev := u.dev } ∧
          ((∀ x ∈ partGroups s.dev part, x.2.waiting = []) → s.dev.mem.wf = true → s.dev.mem.planted = [] →
            (u.dev.part part).moving = (s.dev.part part).moving.filter (fun x => x.1 != seg) ∧
            (dst % segSize = 0 → dst < 2 ^ 40 → ∀ a, segEntryAddr s.dev part (seg * segSize) = some a →
            (first + 8 ≤ a ∨ a + 16 ≤ first) → (a + 16 ≤ dst ∨ dst + segSize ≤ a) → (first + 8 ≤ dst ∨ dst + segSize ≤ first) →
            (∀ j, j < segSize → readByte u.dev.mem.hbm (dst + j) = readByte s.dev.mem.hbm (segBase e + j)) ∧
            segState (walkSegment u.dev part (seg * segSize)) = 1 ∧ segBase (walkSegment u.dev part (seg * segSize)) = dst)))

/-- The segment invalidate register and migration (11 R252 to R254). Where it rests on the model's choices, they are those of log entry
19. -/
def Obligations.SegmentEvents : Prop :=
  SegmentsInvalidate ∧ SegmentsMigrate

-- command packets

/-- While a stream may not run, none of its packets does anything. A switch in progress goes on under CTXSW, and ends when no core is
left. -/
def Sys2Proof.Claims.PacketsWait : Prop :=
  ∀ s st, cpMayRun s.dev st = false →
    (∀ dw, exec (.cpNop st dw) s = .next s) ∧ exec (.fetchFence st) s = .next s ∧ (∀ a d, exec (.write st a d) s = .next s) ∧
    (∀ a t, exec (.timestamp st a t) s = .next s) ∧ (∀ a v n irq, exec (.signal st a v n irq) s = .next s) ∧
    (∀ a n, exec (.ib st a n) s = .next s) ∧ (∀ m n, exec (.pred st m n) s = .next s) ∧ (∀ n r, exec (.cpLoop st n r) s = .next s) ∧
    (∀ m, exec (.wait st m) s = .next s) ∧ (∀ ws, exec (.copy st ws) s = .next s) ∧ (∀ a, exec (.popDesc st a) s = .next s) ∧
    (∀ k, exec (.launch st k) s = .next s) ∧
    ∀ target,
      ((∀ k left, (s.dev.stream st).wait ≠ .switch k left) → exec (.ctxsw st target) s = .next s) ∧
      ∀ k left, (s.dev.stream st).wait = .switch k left → Becomes (.ctxsw st target) s (continueSwitch s.dev st k left) ∧
        (left = [] → (s.dev.part st.part).suspDue = none → ∃ t, exec (.ctxsw st target) s = .next t ∧ StreamBecomes s t st (s.dev.stream st).packetEnd)

/-- NOP and FETCH.FENCE pass; WRITE, TIMESTAMP and SIGNAL store their bytes and pass, and a SIGNAL with IRQ leaves a
masked vector pending and sends the message of another (25 R448, R454, R456; 26 R463). -/
def Sys2Proof.Claims.StorePacketsComplete : Prop :=
  ∀ s st, PacketRuns s st →
    (∀ dw : BitVec 16, ∃ t, exec (.cpNop st dw) s = .next t ∧ StreamBecomes s t st (passed s st dw.toNat)) ∧
    (∃ t, exec (.fetchFence st) s = .next t ∧
      StreamBecomes s t st
        ({ s.dev.stream st with len := 4, wait := .none, levels := (s.dev.stream st).lvls.map (fun l => { l with window := [] }) } : StreamSt).packetEnd) ∧
    (Sound s st.part →
      (∀ addr data, PacketStores (.write st addr data) s st (3 + data.length) addr.toNat (wordBytes data)
        (fun d => (d.part st.part).pba = (s.dev.part st.part).pba ∧ d.msgs = s.dev.msgs)) ∧
      (∀ addr time, PacketStores (.timestamp st addr time) s st 5 addr.toNat
        (natBytes 8 time.toNat ++ natBytes 8 (s.dev.core (160 * (s.dev.part st.part).lead)).cycle.toNat)
        (fun d => (d.part st.part).pba = (s.dev.part st.part).pba ∧ d.msgs = s.dev.msgs)) ∧
      ∀ addr value (v : BitVec 11) irq, PacketStores (.signal st addr value v irq) s st 6 addr.toNat (natBytes 8 value.toNat)
        (fun d =>
          let p := s.dev.part st.part
          let masked := (p.msixWord v.toNat 3).getLsbD 0
          (∀ k, tget (d.part st.part).pba k = if irq = true ∧ k = v.toNat ∧ masked = true then some true else tget p.pba k) ∧
          d.msgs = if irq = true ∧ masked = false then
              s.dev.msgs ++ [{ part := st.part, addr := p.msixWord v.toNat 1 ++ p.msixWord v.toNat 0, data := p.msixWord v.toNat 2 }]
            else s.dev.msgs))

/-- IB enters a buffer, and LOOP begins its first pass once its range can be read; what stops each of them, and what LOOP waits for
(25 R449, R451, R453). -/
def Sys2Proof.Claims.LevelPacketsComplete : Prop :=
  ∀ s st, PacketRuns s st →
    let x := { s.dev.stream st with wait := .none }
    (∀ addr size,
      (x.lvls.length < 3 →
        ∃ t, exec (.ib st addr size) s = .next t ∧
          StreamBecomes s t st
            { x with len := 0
                     levels := x.lvls ++ [{ start := addr.toNat, stop := some (4 * size.toNat), pos := 0, window := [], loop := none, skip := 0 }] }) ∧
      (3 ≤ x.lvls.length → ∃ t, exec (.ib st addr size) s = .next t ∧ t.dev.mem = s.dev.mem ∧ Stopped t st 3 0)) ∧
    ∀ passes range : Word,
      let start := x.top.pos + 12
      let stop := start + 4 * range.toNat
      let size := measure s.dev st.part x false stop 126 start
      let i := Instr.cpLoop st passes range
      (x.top.loop ≠ none → ∃ t, exec i s = .next t ∧ t.dev.mem = s.dev.mem ∧ Stopped t st 4 0) ∧
      (x.top.loop = none → x.avail < stop - x.top.pos →
        (x.top.stop = none → ∃ t, exec i s = .next t ∧ StreamBecomes s t st { x with len := 0 }) ∧
        (x.top.stop ≠ none → ∃ t, exec i s = .next t ∧ t.dev.mem = s.dev.mem ∧ Stopped t st 4 0)) ∧
      (x.top.loop = none → stop - x.top.pos ≤ x.avail →
        (size = .ok true → ∃ t, exec i s = .next t ∧
          StreamBecomes s t st { x.setTop { x.top with pos := start, loop := some { start, stop, passes := passes.toNat } } with len := 0 }) ∧
        (size = .ok false → ∃ t, exec i s = .next t ∧ t.dev.mem = s.dev.mem ∧ Stopped t st 4 0) ∧
        ∀ c, size = .error c → ∃ t, exec i s = .next t ∧ t.dev.mem = s.dev.mem ∧ Stopped t st 7 c)

/-- PRED skips packets where its test fails, WAIT waits until its test holds, and what cannot be read stops both (25 R449, R452, R454). -/
def Sys2Proof.Claims.TestPacketsComplete : Prop :=
  ∀ s st m, Sound s st.part →
    let x := s.dev.stream st
    let s1 : State := { s with dev := cpTouch s.dev st.part m.addr.toNat 4 }
    let word := cpRead s1.dev st.part m.addr.toNat 4
    let stops (i : Instr) : Prop := ∀ c, word = .error c → ∃ t, exec i s = .next t ∧ t.dev.mem = s.dev.mem ∧ Stopped t st 7 c
    let goes (i : Instr) (y : List Byte → Prop) (z : StreamSt) : Prop :=
      ∀ b, word = .ok b → y b → ∃ t, exec i s = .next t ∧ StreamBecomes s1 t st z
    (PacketRuns s st →
      stops (.wait st m) ∧ goes (.wait st m) (testTrue m) (passed s st 6) ∧
      goes (.wait st m) (fun b => ¬ testTrue m b) { x with len := 24, wait := .test m } ∧
      ∀ skip, stops (.pred st m skip) ∧ goes (.pred st m skip) (testTrue m) (passed s st 6) ∧
        goes (.pred st m skip) (fun b => ¬ testTrue m b)
          ({ x.setTop { x.top with skip := skip.toNat } with len := 24 } : StreamSt).packetEnd) ∧
    (x.wait = .test m → waitRuns s.dev st = true →
      stops (.waitTestHolds st) ∧ goes (.waitTestHolds st) (testTrue m) x.packetEnd ∧
      goes (.waitTestHolds st) (fun b => ¬ testTrue m b) x) ∧
    ((∀ k, x.wait ≠ .test k) ∨ waitRuns s.dev st = false → exec (.waitTestHolds st) s = .next s)

/-- The packets that store bytes and those that steer the stream (25 R448 to R454). Where it rests on the model's choices, they are those
of log entries 15 and 16. -/
def Obligations.PacketsComplete : Prop :=
  PacketsWait ∧ StorePacketsComplete ∧ LevelPacketsComplete ∧ TestPacketsComplete

/-- The launch that a LAUNCH packet makes of a spine and its leaves: the capacities it is granted, its placement, the dies that get replicas
and, for a resident grid, the cores it keeps places on (02 R61, R71; 07 R198; 24 R442; 25 R450). -/
def Sys2Proof.Claims.LaunchMade (s : State) (st : Stream) (k : LaunchPacket) (sp : Spine) (leaves : Tbl Nat) (l : Launch) : Prop :=
  let p := s.dev.part st.part
  l.part = st.part ∧ l.stream = st.idx ∧ l.spine = sp ∧ l.leaves = leaves ∧ l.counter = 0 ∧ l.done = false ∧ l.status = 0 ∧ l.cause = 0 ∧
    l.completion = k.completion.toNat ∧ l.rgrid = k.rgrid ∧ l.declared = k.declared.toNat ∧ l.pops = (s.dev.stream st).pops ∧
    l.placement = choosePlacement s.dev p sp.places ∧ l.replicas = replicaDies p sp l.placement ∧
    l.reserved = (if k.rgrid then (gridReserve s.dev st.part st.idx sp l.placement k.declared.toNat).getD [] else []) ∧
    ∀ i, i < 5 → l.grants.getD i 0 = min (sp.caps.getD i 0) (min ([256, 512, 512, 512, 256].getD i 0) (sp.counts.getD i 0))

/-- LAUNCH. A launch that is not refused gets its seed team, waiting for a place, with the arguments in its first s registers, takes the
populations activated for it, and the stream waits; an image that cannot be read stops the stream. A refused one leaves its reason in the
completion record and the stream goes on; a spine that cannot be read is reason 6 (02 R61, R71; 07 R194, R198; 18 R370; 24 R442; 25 R449,
R450). Where it rests on the model's choices, they are those of log entries 15, 21 and 31. -/
def Obligations.LaunchCompletes : Prop :=
  ∀ s st k, PacketRuns s st → Sound s st.part →
    let x := { s.dev.stream st with wait := .none }
    let s1 : State := { s with dev := cpTouch s.dev st.part k.spine.toNat 256 }
    let n := 7 + k.args.length
    let refused (r : Nat) : Prop :=
      (x.pops = [] → ∀ pa, Writable { s with dev := cpTouch s1.dev st.part k.completion.toNat 8 } st.part k.completion.toNat 8 pa →
        ∃ t, exec (.launch st k) s = .next t ∧
          (∀ a, readByte t.dev.mem.hbm a = if pa ≤ a ∧ a < pa + 8 then (natBytes 8 (5 + 2 ^ 8 * r + 2 ^ 32 * 0xFFFFFFFF)).getD (a - pa) 0
            else readByte s.dev.mem.hbm a) ∧
          t.dev.launches = s.dev.launches ∧ t.dev.teams = s.dev.teams ∧
          t.dev.stream st = ({ x with len := 4 * n, writes := 0, value := 0 } : StreamSt).packetEnd) ∧
      ∃ t, exec (.launch st k) s = .next t ∧ t.dev.nextLaunch = s.dev.nextLaunch ∧ (t.dev.stream st).pops = [] ∧
        ∀ va ∈ x.pops, (t.dev.part st.part).popul va = none
    (∀ c, cpRead s1.dev st.part k.spine.toNat 256 = .error c → refused 6) ∧
    ∀ b, cpRead s1.dev st.part k.spine.toNat 256 = .ok b →
      let sp := spineOf b
      let d2 := cpTouch s1.dev st.part k.spine.toNat (imageLen sp.counts)
      let image := readImage d2 st.part k.spine.toNat sp.counts 256 imageClasses
      (∀ r, refusal s.dev st k b sp = some r → refused r) ∧
      (refusal s.dev st k b sp = none →
        (∀ c, image = .error c → ∃ t, exec (.launch st k) s = .next t ∧ t.dev.mem = s.dev.mem ∧ Stopped t st 7 c ∧
          t.dev.launches = s.dev.launches ∧ t.dev.teams = s.dev.teams) ∧
        ∀ leaves, image = .ok leaves →
          ∃ t l tm, exec (.launch st k) s = .next t ∧ t.dev.mem = s.dev.mem ∧ t.dev.groups = s.dev.groups ∧ t.dev.cores = s.dev.cores ∧
            t.dev.launch s.dev.nextLaunch = some l ∧ LaunchMade s st k sp leaves l ∧
            (∀ i, i ≠ s.dev.nextLaunch → t.dev.launch i = s.dev.launch i) ∧
            t.dev.team s.dev.nextTeam = some tm ∧ tm.launch = s.dev.nextLaunch ∧ tm.seed = true ∧ tm.place = none ∧ tm.index = 0 ∧
            tm.entry = sp.entry ∧ tm.inits = k.args.zipIdx.map (fun x => (x.2, x.1)) ∧ tm.groups = [] ∧ tm.retired = false ∧
            (∀ i, i ≠ s.dev.nextTeam → t.dev.team i = s.dev.team i) ∧
            (∀ va, (t.dev.part st.part).popul va = ((s.dev.part st.part).popul va).map (fun y =>
              if va ∈ x.pops then { y with launch := some s.dev.nextLaunch } else y)) ∧
            t.dev.stream st = { x with len := 4 * n, writes := 0, value := 0, pops := [], wait := .seed s.dev.nextLaunch })

/-- COPY: a sound record becomes a request of the lead die's core 0, for which the stream waits; one that touches a migrating segment waits
to start; another stops the stream with cause 0x67 (11 R254; 16 R327; 25 R449, R454). -/
def Sys2Proof.Claims.CopyPacketsComplete : Prop :=
  ∀ s st (ws : List Word), PacketRuns s st →
    let x := { s.dev.stream st with wait := .none }
    let lead := (s.dev.part st.part).lead
    let r := copyRecOf (wordBytes ws)
    let valid := packetCopyValid r (copyReserved (wordBytes ws))
    (valid = false → ∃ t, exec (.copy st ws) s = .next t ∧ t.dev.mem = s.dev.mem ∧ Stopped t st 8 0x67) ∧
    (valid = true → touchesMoving s.dev st.part lead r = true →
      ∃ t, exec (.copy st ws) s = .next t ∧ StreamBecomes s t st { x with len := 0, wait := .segment }) ∧
    (valid = true → touchesMoving s.dev st.part lead r = false →
      ∃ t q, exec (.copy st ws) s = .next t ∧ t.dev.mem = s.dev.mem ∧ t.dev.groups = s.dev.groups ∧
        t.dev.core (160 * lead) = { s.dev.core (160 * lead) with reqs := (s.dev.core (160 * lead)).reqs ++ [q] } ∧
        (∀ c, c ≠ 160 * lead → t.dev.core c = s.dev.core c) ∧ q.rcd = r ∧ q.stream = some st ∧ q.kick = none ∧
        q.id = s.dev.nextReq ∧ q.n = 0 ∧ t.dev.stream st = { x with len := 68, wait := .copy s.dev.nextReq })

/-- POP.DESC makes a population live for the next LAUNCH; a descriptor in a migrating segment is waited for; what stops it is a misplaced
address, a descriptor that cannot be read or written, which the log tells when its rights or its segment's world forbid it, one that is not valid, and a seventeenth population (11 R254; 18 R370; 25 R449,
R454). -/
def Sys2Proof.Claims.PopDescsComplete : Prop :=
  ∀ s st (addr : DWord), PacketRuns s st → Sound s st.part →
    let x := { s.dev.stream st with wait := .none }
    let va := addr.toNat
    let placed := va < 2 ^ 57 ∧ va % 128 = 0
    let stops (c : Nat) : Prop := ∃ t, exec (.popDesc st addr) s = .next t ∧ t.dev.mem = s.dev.mem ∧ Stopped t st 9 c
    let s1 : State := { s with dev := cpTouch s.dev st.part va 128 }
    (¬ placed → stops 0x80) ∧
    (placed → descWaits s.dev st.part va = true →
      ∃ t, exec (.popDesc st addr) s = .next t ∧ StreamBecomes s t st { x with len := 0 }) ∧
    (placed → descWaits s.dev st.part va = false →
      (∀ c, descCause s1.dev st.part va = some c → stops c ∧
        (c ∈ [0x26, 0x2B] → ∃ t, exec (.popDesc st addr) s = .next t ∧
          Logged s1 t st.part (plainEntry c va st.part 2 (s.dev.part st.part).lead none 0 false))) ∧
      (descCause s1.dev st.part va = none →
        (∀ c, activateCause s1.dev st.part va 1 = some c → stops c) ∧
        (activateCause s1.dev st.part va 1 = none →
          ∃ t p, exec (.popDesc st addr) s = .next t ∧ (t.dev.part st.part).popul va = some p ∧ p.launch = none ∧ p.held.live = 0 ∧
            p.held.reserve = 0 ∧ p.current = none ∧ (∀ k, k ≠ va → (t.dev.part st.part).popul k = (s.dev.part st.part).popul k) ∧
            t.dev.groups = s.dev.groups ∧ t.dev.launches = s.dev.launches ∧
            t.dev.stream st = ({ x with len := 12, pops := x.pops ++ [va] } : StreamSt).packetEnd)))

/-- CTXSW: to the active context it passes; to another the target is active at once, and the stream waits until every core has switched and
the target issues there; a suspend that waited for it then takes effect (25 R445, R457, R458). -/
def Sys2Proof.Claims.SwitchesComplete : Prop :=
  ∀ s st (target : BitVec 2), PacketRuns s st →
    ((s.dev.part st.part).active = target.toNat →
      ∃ t, exec (.ctxsw st target) s = .next t ∧ StreamBecomes s t st (passed s st 2)) ∧
    ((s.dev.part st.part).active ≠ target.toNat →
      ∃ t, exec (.ctxsw st target) s = .next t ∧ t = { s with dev := t.dev } ∧
        (NobodyWaits s → (t.dev.part st.part).active = target.toNat ∧ t.dev.launches = s.dev.launches ∧
          (t.dev.stream st = passed s st 2 ∨
            ∃ left, left ≠ [] ∧ t.dev.stream st = { s.dev.stream st with len := 8, wait := .switch target.toNat left }))) ∧
    ∀ n left,
      let d := left.foldl (fun d x => switchCore d n x) s.dev
      (switchLeft d n left ≠ [] →
        continueSwitch s.dev st n left = d.setStream st { d.stream st with wait := .switch n (switchLeft d n left) }) ∧
      (switchLeft d n left = [] → (d.part st.part).suspDue = none → continueSwitch s.dev st n left = endPacket d st) ∧
      (∀ x, switchLeft d n left = [] → (d.part st.part).suspDue = some x →
        continueSwitch s.dev st n left = suspendPart (endPacket d st) st.part x)

/-- COPY, POP.DESC and CTXSW (11 R254; 18 R370; 25 R445, R449, R454, R457). Where it rests on the model's choices, they are those of log
entries 16, 17 and 18. -/
def Obligations.EnginePacketsComplete : Prop :=
  CopyPacketsComplete ∧ PopDescsComplete ∧ SwitchesComplete


-- the host's registers and partitions

/-- What the host writes to a stream's registers: NOTIFY moves the write pointer, the ring's base and size are taken while the stream is
idle and set both offsets to 0; a locked partition takes a write of base or size as an error; while a turnover runs a write is dropped with
an Unsupported Request completion, and a module held in reset takes none (24 R444; 26 R463 to R465, R469). Where it rests on the model's choices, they are those of log entries 22 and 37. -/
def Obligations.StreamRegistersTakeWrites : Prop :=
  ∀ s st value,
    let x := s.dev.stream st
    let n := natBits value.toNat 0 5
    let function := 1 ≤ st.part ∧ st.part ≤ 16 ∧ st.idx ≤ 4
    (∀ i ∈ [Instr.notify st value, .ringBaseWrite st value, .ringSizeWrite st value],
      (¬ Up s ∨ ¬ function → exec i s = .next s) ∧
      (Up s → function → (s.dev.part st.part).state = 4 → PartBecomes i s st.part (s.dev.part st.part).refuse)) ∧
    (StreamThere s st →
      (value.toNat % 4 = 0 → value.toNat < 2 ^ x.log2 →
        ∃ t, exec (.notify st value) s = .next t ∧ StreamBecomes s t st { x with wptr := value.toNat }) ∧
      (value.toNat % 4 ≠ 0 ∨ 2 ^ x.log2 ≤ value.toNat → exec (.notify st value) s = .next s) ∧
      (Locked s st.part → LockedOut (.ringBaseWrite st value) s st.part ∧ LockedOut (.ringSizeWrite st value) s st.part) ∧
      (¬ Locked s st.part →
        (x.idle = true →
          (∃ t, exec (.ringBaseWrite st value) s = .next t ∧
            StreamBecomes s t st { x with base := natBits value.toNat 12 45 * 2 ^ 12, wptr := 0, levels := [] }) ∧
          (12 ≤ n → n ≤ 24 → ∃ t, exec (.ringSizeWrite st value) s = .next t ∧
            StreamBecomes s t st { x with log2 := n, wptr := 0, levels := [] })) ∧
        (x.idle = false → exec (.ringBaseWrite st value) s = .next s ∧ exec (.ringSizeWrite st value) s = .next s) ∧
        (n < 12 ∨ 24 < n → exec (.ringSizeWrite st value) s = .next s)))

/-- Writes of the hub's registers that have no instruction of their own: the L2 split of a die, the injector's seed, a word of the MSI-X
table, the export table's base, the partition control register; a pending vector that is unmasked leaves as a message; what is read-only,
reserved, locked or out of range takes no value, and while a turnover runs a write is dropped (11 R256; 22 R430; 26 R461 to R463, R465, R469;
27 R476; 00 R6). -/
def Sys2Proof.Claims.RegistersTakeWrites : Prop :=
  ∀ (s : State) part, Up s →
    let p := s.dev.part part
    let function := 1 ≤ part ∧ part ≤ 16
    let dropped (i : Instr) (k : Nat) : Prop := PartBecomes i s k (s.dev.part k).refuse
    (∀ die (value : DWord),
      let i := Instr.registerWrite (.l2Split die) value
      let r := natBits value.toNat 8 5
      let w := natBits value.toNat 0 5
      let owner := s.dev.partOfDie die
      let state := (s.dev.part owner).state
      let good := 1 ≤ r ∧ r ≤ 8 ∧ r ≤ w ∧ w ≤ 24 ∧ launchOnDie s.dev die = false
      (16 ≤ die → exec i s = .next s) ∧ (die < 16 → owner ≠ 0 → state = 4 → dropped i owner) ∧
      (die < 16 → owner ≠ 0 → state ≠ 4 → Locked s owner → LockedOut i s owner) ∧
      (die < 16 → owner = 0 ∨ state ≠ 4 ∧ ¬ Locked s owner →
        (¬ good → exec i s = .next s) ∧
        (good →
          ∃ t, exec i s = .next t ∧ t = { s with dev := t.dev } ∧ t.dev = { s.dev with dies := t.dev.dies } ∧
            t.dev.die die = { s.dev.die die with rways := r, sways := w } ∧ ∀ k, k ≠ die → t.dev.die k = s.dev.die k))) ∧
    (∀ value,
      (p.test = true → PartBecomes (.registerWrite (.injectorSeed part) value) s part { p with inj := { p.inj with seed := value } }) ∧
      (p.test = false → exec (.registerWrite (.injectorSeed part) value) s = .next s)) ∧
    (∀ entry word (value : DWord),
      let i := Instr.registerWrite (.msix part entry word) value
      let there := function ∧ entry < 2048 ∧ word < 4
      let q : Part := { p with msix := tput p.msix (4 * entry + word) (value.setWidth 32) }
      let leaves := word = 3 ∧ value.getLsbD 0 = false ∧ tgetD p.pba entry false = true
      (¬ there → exec i s = .next s) ∧ (there → p.state = 4 → dropped i part) ∧
      (there → p.state ≠ 4 → Locked s part → LockedOut i s part) ∧
      (there → p.state ≠ 4 → ¬ Locked s part →
        (¬ leaves → PartBecomes i s part q) ∧
        (leaves →
          ∃ t, exec i s = .next t ∧ t = { s with dev := t.dev } ∧ t.dev = { s.dev with parts := t.dev.parts, msgs := t.dev.msgs } ∧
            t.dev.part part = { q with pba := tdel p.pba entry } ∧ (∀ k, k ≠ part → t.dev.part k = s.dev.part k) ∧
            t.dev.msgs = s.dev.msgs ++ [{ part, addr := q.msixWord entry 1 ++ q.msixWord entry 0, data := q.msixWord entry 2 }]))) ∧
    (∀ value : DWord,
      let i := Instr.registerWrite (.exportTable part) value
      (¬ function → exec i s = .next s) ∧ (function → p.state = 4 → dropped i part) ∧
      (function → p.state ≠ 4 → Locked s part → LockedOut i s part) ∧
      (function → p.state ≠ 4 → ¬ Locked s part → PartBecomes i s part { p with exportBase := natBits value.toNat 5 52 * 32 })) ∧
    (∀ value : DWord,
      let i := Instr.registerWrite (.partControl part) value
      let cmd := value.toNat % 16
      let taken := function ∧ natBits value.toNat 9 32 = 0 ∧ cmd ≠ 1
      let fields := value &&& 0xFFFF0E0000000000
      (¬ taken → exec i s = .next s) ∧ (taken → cmd = 0 ∨ 6 < cmd → PartBecomes i s part { p with ctl := fields }) ∧
      (taken → 2 ≤ cmd → cmd ≤ 6 → commandRefused s.dev part cmd = true → PartBecomes i s part { p with res := true }) ∧
      (taken → 2 ≤ cmd → cmd ≤ 6 → commandRefused s.dev part cmd = false →
        ∃ health, Becomes i s (command (({ s.dev with drawn := s.dev.drawn + 1 } : Device).setPart part { p with ctl := fields }) part cmd health))) ∧
    (∀ offset value, exec (.registerWrite (.readOnly part offset) value) s = .next s) ∧
    ∀ value : Word,
      (p.state = 4 → dropped (.errorLogClear part value) part) ∧
      (p.state ≠ 4 → PartBecomes (.errorLogClear part value) s part
        { p with lost := p.lost &&& ~~~value, log := if value = BitVec.allOnes 32 then [] else p.log })

/-- What a read of a function's registers gives: a stream's base, size and write pointer, 0 at a reserved offset, the log's count and LOST
field; PEND of the segment invalidate register, whose other fields are write-only; the export table's base and the cap; the physical
function's copy of a confidential log holds no address (00 R6; 11 R252; 20 R394; 24 R439; 26 R463, R466; 27 R476). -/
def Sys2Proof.Claims.RegistersRead : Prop :=
  ∀ (s : State) part,
    let d := s.dev
    let p := d.part part
    (∀ k, k < 5 →
      readBar d part (0x40 * k) = BitVec.ofNat 64 (p.stream k).base ∧ readBar d part (0x40 * k + 8) = BitVec.ofNat 64 (p.stream k).log2 ∧
      readBar d part (0x40 * k + 16) = BitVec.ofNat 64 (p.stream k).wptr ∧
      readBar d part (0x808 + 8 * k) = BitVec.ofNat 64 ((p.stream k).writes * 2 ^ 32 + (p.stream k).value.toNat) ∧
      ∀ j, 0x20 ≤ j → j < 0x40 → readBar d part (0x40 * k + j) = 0) ∧
    (∀ off, 0x140 ≤ off ∧ off < 0x800 ∨ 0x830 ≤ off ∧ off < 0x4000 ∨ 0x10100 ≤ off → readBar d part off = 0) ∧
    (p.log.length ≤ 255 → natBits (readBar d part 0x800).toNat 0 32 = p.lost.toNat ∧ natBits (readBar d part 0x800).toNat 32 8 = p.log.length) ∧
    readInvalidate d part = (if p.inval = none then 0 else 2) ∧ readFramePush d part = 0 ∧
    readExport d part = BitVec.ofNat 64 p.exportBase ∧ readCap d part = BitVec.ofNat 32 p.cap ∧
    (p.conf = true → ∀ e ∈ p.log.map LogEntry.noAddr, e.addr = 0 ∧ ∀ r, e.trec = some r → natBits r.toNat 128 64 = 0) ∧
    ∀ off, logCopyWord p off = logWord (if p.conf then p.log.map LogEntry.noAddr else p.log) off

/-- Keys, measurements, debuggers and accesses over PCIe. A write over PCIe stores its bytes, and the lines it writes carry its function's
world; one that is refused stores nothing and is logged (04 R118; 11 R259, R260; 22 R428; 26 R466, R467). -/
def Sys2Proof.Claims.HostServicesComplete : Prop :=
  ∀ (s : State) part, Up s →
    let p := s.dev.part part
    (∀ slot key,
      (Locked s part → slot < 16 → PartBecomes (.keySlotProvision part slot key) s part { p with keys := tput p.keys slot key }) ∧
      (¬ Locked s part ∨ 16 ≤ slot → exec (.keySlotProvision part slot key) s = .next s)) ∧
    (16 < part → exec (.getMeasurements part) s = .next s) ∧
    (part ≤ 16 →
      ∃ t a0 a1 a5 a6, exec (.getMeasurements part) s = .next t ∧ t = { s with dev := t.dev } ∧
        t.dev = { s.dev with parts := t.dev.parts, drawn := t.dev.drawn } ∧ (∀ k, k ≠ part → t.dev.part k = s.dev.part k) ∧
        t.dev.part part = { p with meas := { p.meas with answer := (t.dev.part part).meas.answer } } ∧
        (t.dev.part part).meas.answer =
          [a0, a1,
            [BitVec.ofNat 64 (p.dies.toNat * 2 ^ 48 + p.state * 2 ^ 44 + p.test.toNat * 2 ^ 43 + p.conf.toNat * 2 ^ 42 + p.prot.toNat * 2 ^ 41)],
            p.meas.locked.getD [0, 0, 0, 0, 0, 0], [BitVec.ofNat 64 p.meas.turnovers, if p.meas.health then 1 else 0], a5, a6] ∧
        a0.length = 6 ∧ a1.length = 6 ∧ a5.length = 8 ∧ a6.length = 414) ∧
    (∀ addr data, p.state = 4 → PartBecomes (.hostIngressAccess part true addr data) s part p.refuse) ∧
    (∀ addr data, Sound s part → p.state ≠ 4 →
      ((∀ i, i < data.length → ingressCause s.dev part (addr + i) = none) →
        (∃ t, exec (.hostIngressAccess part true addr data) s = .next t ∧ t = { s with dev := t.dev } ∧
          t.dev = { s.dev with mem := t.dev.mem } ∧ t.dev.mem = { s.dev.mem with hbm := t.dev.mem.hbm, tags := t.dev.mem.tags } ∧
          (∀ a, readByte t.dev.mem.hbm a =
            if addr ≤ a ∧ a < addr + data.length then data.getD (a - addr) 0 else readByte s.dev.mem.hbm a) ∧
          ∀ line, tagOf t.dev line =
            if ∃ i, i < data.length ∧ lineOf (addr + i) = line then { tagOf s.dev line with world := part } else tagOf s.dev line) ∧
        exec (.hostIngressAccess part false addr data) s = .next s) ∧
      (∀ i c write, i < data.length → ingressCause s.dev part (addr + i) = some c →
        (∀ k, k < i → ingressCause s.dev part (addr + k) = none) →
        ∃ t, exec (.hostIngressAccess part write addr data) s = .next t ∧ t = { s with dev := t.dev } ∧ t.dev.mem = s.dev.mem ∧
          Logged s t part (plainEntry c (addr + i) part 6 (homeDie (addr + i) % 16) none 0 true))) ∧
    (p.conf = true → exec (.debuggerAttach part true) s = .next s) ∧
    (p.conf = false → PartBecomes (.debuggerAttach part true) s part { p with debugger := true }) ∧
    PartBecomes (.debuggerAttach part false) s part { p with debugger := false }

/-- The hub's other registers, keys, measurements, debuggers and accesses over PCIe (00 R6; 04 R118; 11 R252, R256, R259, R260; 22 R428,
R430; 26 R461, R463, R466, R467; 27 R476). Where it rests on the model's choices, they are those of log entries 6, 22, 29, 36
and 37. -/
def Obligations.HostReachesTheModule : Prop :=
  RegistersTakeWrites ∧ RegistersRead ∧ HostServicesComplete

/-- A command that is refused only sets RES. -/
abbrev Sys2Proof.Claims.Refused (i : Instr) (s : State) (part : Nat) : Prop := PartBecomes i s part { s.dev.part part with res := true }

/-- PARTITION_CREATE: before bring-up ends, or with a reserved bit, nothing; refused when the partition exists, when no die is named, when a
die is absent or taken, and for a confidential test partition; else the partition has its dies, which are ungated (24 R440, R444; 26 R461). -/
def Sys2Proof.Claims.PartitionsAreCreated : Prop :=
  ∀ (s : State) part (value segBase : DWord),
    let p := s.dev.part part
    let i := Instr.partitionCreate part value segBase
    let known := 1 ≤ part ∧ part ≤ 16 ∧ natBits value.toNat 9 32 = 0 ∧ Up s
    let dies : BitVec 16 := BitVec.ofNat 16 (value.toNat / 2 ^ 48)
    let taken := ∃ i, i < 16 ∧ dies.getLsbD i = true ∧ ((s.dev.die i).absent = true ∨ s.dev.partOfDie i ≠ 0)
    let conf := value.toNat.testBit 42
    let test := value.toNat.testBit 43
    let bad := p.state ≠ 0 ∨ dies = 0 ∨ taken ∨ (conf = true ∧ test = true)
    (¬ known → exec i s = .next s) ∧ (known → bad → Refused i s part) ∧
    (known → ¬ bad →
      ∃ t, exec i s = .next t ∧ t = { s with dev := t.dev } ∧ t.dev = { s.dev with parts := t.dev.parts, dies := t.dev.dies } ∧
        t.dev.part part =
          { p with dies, state := 1, test, conf, prot := value.toNat.testBit 41, ctl := value &&& 0xFFFF0E0000000000
                   segBase := segBase.toNat / 2 ^ 21 * 2 ^ 21, susp := false, tdi := .unlocked, debugger := p.debugger && !conf, res := false } ∧
        (∀ k, k ≠ part → t.dev.part k = s.dev.part k) ∧
        ∀ k, t.dev.die k = if k < 16 ∧ dies.getLsbD k = true then { s.dev.die k with gated := false } else s.dev.die k)

/-- PARTITION_SUSPEND, PARTITION_RESUME and RESET_FIRMWARE_CONTEXTS: each acts in the states that allow it and is refused in the others; a
suspend that meets a CTXSW under way is accepted and takes effect when that has finished. Suspended, the partition's groups are stopped; resumed, its dies are ungated; its firmware
contexts are as at reset and no fault of theirs holds a core (24 R440; 25 R458; 26 R462). -/
def Sys2Proof.Claims.PartitionsStopAndGo : Prop :=
  ∀ (s : State) part,
    let p := s.dev.part part
    let suspend := Instr.partitionSuspend part
    let resume := Instr.partitionResume part
    let reset := Instr.resetFirmwareContexts part
    (part = 0 ∨ 16 < part ∨ ¬ Up s → ∀ i ∈ [suspend, resume, reset], exec i s = .next s) ∧
    (1 ≤ part → part ≤ 16 → Up s →
      (p.state ≠ 1 → Refused suspend s part) ∧ (p.state = 1 → switching p = true → PartBecomes suspend s part { p with suspDue := some 2, res := false }) ∧
      (p.state = 1 → switching p = false →
        ∃ t, exec suspend s = .next t ∧ t = { s with dev := t.dev } ∧ t.dev.mem = s.dev.mem ∧
          t.dev.part part = { p with susp := true, state := 2, suspDue := none, res := false } ∧ (∀ k, k ≠ part → t.dev.part k = s.dev.part k) ∧
          ∀ x ∈ partTeams s.dev part, s.dev.team x.1 = some x.2 → ∀ id ∈ x.2.groups, ∀ g, s.dev.group (.user id) = some g →
            ∃ g', t.dev.group (.user id) = some g' ∧ g' = { g with stopped := true, park := unparkQuire g.park }) ∧
      (p.state ≠ 2 → p.state ≠ 3 → Refused resume s part) ∧
      (p.state = 2 ∨ p.state = 3 →
        ∃ t, exec resume s = .next t ∧ t = { s with dev := t.dev } ∧
          (NobodyWaits s → t.dev.mem = s.dev.mem ∧ t.dev.part part = { p with susp := false, state := 1, res := false } ∧
            (∀ k, t.dev.die k = if k ∈ p.dieList then { s.dev.die k with gated := false } else s.dev.die k) ∧
            ∀ k g, s.dev.group k = some g → ∃ g', t.dev.group k = some g' ∧ g' = { g with stopped := g'.stopped })) ∧
      (p.state ≠ 2 → Refused reset s part) ∧
      (p.state = 2 →
        ∃ t, exec reset s = .next t ∧ t = { s with dev := t.dev } ∧ t.dev.mem = s.dev.mem ∧ t.dev.groups = s.dev.groups ∧
          t.dev.part part = { p with res := false } ∧
          ∀ key,
            (p.dies.getLsbD (dieOf (key / 4)) = true →
              t.dev.group (.fw key) = some (Group.firmware (key / 4) (key % 4)) ∧
              t.dev.core (key / 4) = { s.dev.core (key / 4) with fwFault := false }) ∧
            (p.dies.getLsbD (dieOf (key / 4)) = false →
              t.dev.group (.fw key) = s.dev.group (.fw key) ∧ t.dev.core (key / 4) = s.dev.core (key / 4))))

/-- PARTITION_DESTROY and PARTITION_TURNOVER: refused for a partition that is free or in turnover; else the turnover begins with STATE 4,
and the scheduler offers the step that ends it. Then the partition's memory and registers are scrubbed; its dies are freed by the first, and
by the second when a die fails its health test; a die that fails is absent (26 R462, R469). -/
def Sys2Proof.Claims.PartitionsTurnOver : Prop :=
  (∀ (s : State) part health,
    let p := s.dev.part part
    let destroy := Instr.partitionDestroy part health
    let renew := Instr.partitionTurnover part health
    (part = 0 ∨ 16 < part ∨ ¬ Up s → exec destroy s = .next s ∧ exec renew s = .next s) ∧
    (1 ≤ part → part ≤ 16 → Up s →
      (p.state = 0 ∨ p.state = 4 → Refused destroy s part ∧ Refused renew s part) ∧
      (p.state ≠ 0 → p.state ≠ 4 →
        (∃ t, exec destroy s = .next t ∧ Quiesced s t part true health ∧ (t.dev.part part).res = false) ∧
        ∃ t, exec renew s = .next t ∧ Quiesced s t part false health ∧ (t.dev.part part).res = false))) ∧
  ∀ (s : State) part frees health,
    let p := s.dev.part part
    let turn := Turn.turnover part
    let fails (k : Nat) : Prop := k ∈ p.dieList ∧ k ∈ health
    (p.turn = none → runTurn turn s = .next s) ∧
    (p.turn = some (frees, health) →
      turn ∈ turnsOf s.dev s.tick ∧
      ∃ t, runTurn turn s = .next t ∧ t = { s with dev := t.dev } ∧ Scrubbed s t part ∧
        (∀ k, (t.dev.die k).absent = ((s.dev.die k).absent || decide (k ∈ p.dieList ∧ k ∈ health))) ∧
        ((t.dev.part part).meas.health = true ↔ ∀ k, ¬ fails k) ∧
        (frees = false → (∀ k, ¬ fails k) → (t.dev.part part).state = 2 ∧ (t.dev.part part).dies = p.dies) ∧
        (frees = true ∨ (∃ k, fails k) → (t.dev.part part).state = 0 ∧ (t.dev.part part).dies = 0))

/-- The hypervisor's commands on a partition (24 R440, R444; 25 R458; 26 R461, R462, R469). Where it rests on the model's choices, they are
those of log entry 29. -/
def Obligations.PartitionCommandsComplete : Prop :=
  PartitionsAreCreated ∧ PartitionsStopAndGo ∧ PartitionsTurnOver

/-- The TDISP lock and the reset of the module: LOCK captures the configuration, START lets the streams run, STOP returns through a
turnover, each only in the states that allow it (26 R465, R467, R469); a module held in reset shows the host no function; MODULE_RESET leaves a trained module without a partition, and one whose
PCIe link does not train in reset (24 R444). Where it rests on the model's choices, they are those of log entries 22, 29 and 37. -/
def Obligations.LockAndResetComplete : Prop :=
  (∀ (s : State) part,
    let p := s.dev.part part
    let there := Up s ∧ p.state ≠ 0 ∧ p.state ≠ 4
    (p.tdi = .unlocked → there → PartBecomes (.lockInterfaceRequest part) s part
      { p with tdi := .locked, meas := { p.meas with locked := some ((List.range 6).map (Config.configHash (lockedConfig s.dev part))) } }) ∧
    (p.tdi ≠ .unlocked ∨ ¬ there → exec (.lockInterfaceRequest part) s = .next s) ∧
    (p.tdi = .locked → Up s → PartBecomes (.startInterfaceRequest part) s part { p with tdi := .run }) ∧
    (p.tdi ≠ .locked ∨ ¬ Up s → exec (.startInterfaceRequest part) s = .next s) ∧
    (∀ health, p.tdi = .unlocked ∨ ¬ there → exec (.stopInterface part health) s = .next s) ∧
    (∀ health, p.tdi ≠ .unlocked → there → ∃ t, exec (.stopInterface part health) s = .next t ∧ Quiesced s t part false health)) ∧
  (∀ (s : State) part, ¬ Up s →
    (∀ v, exec (.registerWrite (.partControl part) v) s = .next s ∧ exec (.segmentInvalidate part v) s = .next s ∧
      exec (.saveFramePush part v) s = .next s ∧ exec (.injectorControlWrite part v) s = .next s) ∧
    (∀ v, exec (.partitionCapWrite part v) s = .next s ∧ exec (.errorLogClear part v) s = .next s) ∧
    (∀ w a x, exec (.hostIngressAccess part w a x) s = .next s) ∧ (∀ b, exec (.debuggerAttach part b) s = .next s) ∧
    (∀ k x, exec (.keySlotProvision part k x) s = .next s) ∧ exec (.getMeasurements part) s = .next s) ∧
  (∀ (s : State) training,
    (training.pcieOk = false →
      ∃ t, exec (.moduleReset training) s = .next t ∧ t.opn = s.opn ∧
        t.dev = { Device.reset with mem := { Device.reset.mem with host := s.dev.mem.host }, drawn := s.dev.drawn }) ∧
    (training.pcieOk = true →
      ∃ t, exec (.moduleReset training) s = .next t ∧ t.opn = s.opn ∧
        t.dev = { Device.reset with
          bringUp := 4, mem := { Device.reset.mem with host := s.dev.mem.host }, dies := t.dev.dies, ports := t.dev.ports
          pfLog := t.dev.pfLog, drawn := t.dev.drawn } ∧
        (∀ i, t.dev.die i = { Die.reset with absent := decide (i < 16) && (training.uciFail.getLsbD i || training.hbmFail.getLsbD i) }) ∧
        ∀ i, i < 12 → (t.dev.port i).up = (training.portPartner.getD i none).isSome))

-- errors

/-- An uncorrectable error in a copy that memory can give again drops that copy and nothing else (22 R425). -/
def Sys2Proof.Claims.CopiesAreDropped : Prop :=
  ∀ (s : State) core,
    let only (t : State) : Prop := t = { s with dev := t.dev } ∧ t.dev = { s.dev with cores := t.dev.cores } ∧
      ∀ k, k ≠ core → t.dev.core k = s.dev.core k
    (∀ line, ∃ t, exec (.uncorrectableError (.l1Line core line)) s = .next t ∧ only t ∧
      t.dev.core core = { s.dev.core core with l1 := (t.dev.core core).l1 } ∧
      ∀ k, tget (t.dev.core core).l1 k = if k = line then none else tget (s.dev.core core).l1 k) ∧
    (∀ bank quad cls index, ∃ t, exec (.uncorrectableError (.decodeEntry core bank quad cls index)) s = .next t ∧ only t ∧
      t.dev.core core = { s.dev.core core with tabs := (t.dev.core core).tabs } ∧
      ∀ k, tableEntry (t.dev.core core) bank quad cls k = if k = index then none else tableEntry (s.dev.core core) bank quad cls k) ∧
    (∀ team page, ∃ t, exec (.uncorrectableError (.stbEntry core team page)) s = .next t ∧ only t ∧
      t.dev.core core = { s.dev.core core with stb := (t.dev.core core).stb } ∧
      ∀ k, tget (t.dev.core core).stb k = if k = 8192 * team + page then none else tget (s.dev.core core).stb k) ∧
    ∀ persists,
      ((s.dev.part (s.dev.partOfDie (dieOf core))).prot = true →
        ∃ t, exec (.uncorrectableError (.residue core persists)) s = .next t ∧ only t ∧
          t.dev.core core = { s.dev.core core with residue := some persists }) ∧
      ((s.dev.part (s.dev.partOfDie (dieOf core))).prot = false → exec (.uncorrectableError (.residue core persists)) s = .next s)

/-- An uncorrectable error in a group's state halts the group with cause 0xC1, and one in a protected group's signature with 0xC0; neither
strikes a group that has retired or halted (22 R425, R427). -/
def Sys2Proof.Claims.GroupsAreHalted : Prop :=
  ∀ (s : State) id,
    let state := Instr.uncorrectableError (.groupState id)
    let sign := Instr.uncorrectableError (.signature id)
    (s.dev.group (.user id) = none → exec state s = .next s ∧ exec sign s = .next s) ∧
    ∀ g, s.dev.group (.user id) = some g →
      (g.retired = true ∨ g.halted = true → exec state s = .next s ∧ exec sign s = .next s) ∧
      ((s.dev.part (s.dev.partOf (.user id))).prot = false → exec sign s = .next s) ∧
      ∀ team tm lid l, s.dev.teamOf (.user id) = some (team, tm) → s.dev.launchOf (.user id) = some (lid, l) →
        g.retired = false → g.halted = false → g.index < 32 →
        (g.trapSet = false →
          ∃ t g', exec state s = .next t ∧ t = { s with dev := t.dev } ∧ t.dev.group (.user id) = some g' ∧ g'.halted = true ∧
            g'.retired = true ∧ g'.hamper = [] ∧ natBits g'.trapRec.toNat 224 8 = 0xC1) ∧
        ((s.dev.part (s.dev.partOf (.user id))).prot = true → AtRest g →
          ∃ t g', exec sign s = .next t ∧ t = { s with dev := t.dev } ∧ t.dev.group (.user id) = some g' ∧ g'.halted = true ∧
            g'.retired = true ∧ g'.hamper = [] ∧ natBits g'.trapRec.toNat 224 8 = 0xC0)

/-- An uncorrectable error in a scratchpad word poisons it; one in a line, found in HBM or on its way out of the L2, poisons the line with
its cause and the log of the line's owner tells of it; symbol errors are kept with their line until it is read (11 R261; 22 R425, R426,
R429). -/
def Sys2Proof.Claims.DataArePoisoned : Prop :=
  (∀ (s : State) team addr,
    let i := Instr.uncorrectableError (.scratchWord team addr)
    let hit (tm : Team) (p : Nat × Nat) (fb : Nat) : Prop :=
      s.dev.team team = some tm ∧ tm.place = some p ∧ scratchTranslate tm addr false false = .ok fb
    ((∀ tm p fb, ¬ hit tm p fb) → exec i s = .next s) ∧
    ∀ tm p fb, hit tm p fb →
      ∃ t, exec i s = .next t ∧ t = { s with dev := t.dev } ∧ t.dev = { s.dev with cores := t.dev.cores } ∧
        scratchPoisoned t.dev tm addr = true ∧ ∀ k, k ≠ p.1 → t.dev.core k = s.dev.core k) ∧
  (∀ (s : State) line,
    let struck (i : Instr) (cause : Nat) : Prop :=
      ∃ t, exec i s = .next t ∧ t = { s with dev := t.dev } ∧ t.dev.mem = { s.dev.mem with tags := t.dev.mem.tags } ∧
        (∀ k, tagOf t.dev k = if k = line then { tagOf s.dev k with poison := true, cause } else tagOf s.dev k) ∧
        t.dev.groups = s.dev.groups ∧ t.dev.cores = s.dev.cores ∧
        Logged s t (tagOf s.dev line).world
          (plainEntry cause (64 * line) (tagOf s.dev line).world 3 (homeDie (64 * line)) none 0 true)
    (line < 2 ^ 34 → struck (.l2EvictUncorrectable line) 0xC4 ∧
      ∀ pa, lineOf pa = line → struck (.uncorrectableError (.line pa)) 0xC1) ∧
    (2 ^ 34 ≤ line → exec (.l2EvictUncorrectable line) s = .next s)) ∧
  (∀ (s : State) pa, 2 ^ 40 ≤ pa →
    exec (.uncorrectableError (.line pa)) s = .next s ∧ ∀ errs, exec (.uncorrectableError (.symbols pa errs)) s = .next s) ∧
  ∀ (s : State) pa errs, pa < 2 ^ 40 →
    ∃ t, exec (.uncorrectableError (.symbols pa errs)) s = .next t ∧ t = { s with dev := t.dev } ∧
      t.dev = { s.dev with mem := t.dev.mem } ∧ t.dev.mem = { s.dev.mem with planted := t.dev.mem.planted } ∧
      ∀ k, tgetD t.dev.mem.planted k [] =
        if k = lineOf pa then tgetD s.dev.mem.planted k [] ++ errs.filter (fun e => decide (e.1 < 75)) else tgetD s.dev.mem.planted k []

/-- The injector's control register: in a test partition a write with no reserved bit is taken, and enabling starts the count of candidate
events at 0; else nothing (22 R430). -/
def Sys2Proof.Claims.InjectorsAreSet : Prop :=
  ∀ (s : State) part (value : DWord),
    let p := s.dev.part part
    let good := Up s ∧ p.test = true ∧ natBits value.toNat 8 16 = 0 ∧ natBits value.toNat 5 2 = 0
    (good → PartBecomes (.injectorControlWrite part value) s part
      { p with inj := { p.inj with rate := natBits value.toNat 48 16, double := value.getLsbD 7, en := value.getLsbD 4
                                   targets := value.setWidth 4, n := if value.getLsbD 4 then 0 else p.inj.n } }) ∧
    (¬ good → exec (.injectorControlWrite part value) s = .next s)

/-- An uncorrectable error does what its place calls for: a copy is dropped, a group is halted, a word or a line is poisoned; the injector's
control register (11 R261; 22 R425 to R427, R429, R430). Where it rests on the model's choices, they are those of log entries 22 and 26. -/
def Obligations.ErrorsStrikeTheirPlace : Prop :=
  CopiesAreDropped ∧ GroupsAreHalted ∧ DataArePoisoned ∧ InjectorsAreSet

-- the Fremas links

/-- The step makes a port p and changes no other part of the device. -/
def Sys2Proof.Claims.PortBecomes (i : Instr) (s : State) (port : Nat) (p : Port) : Prop :=
  ∃ t, exec i s = .next t ∧ t = { s with dev := t.dev } ∧ t.dev = { s.dev with ports := t.dev.ports, drawn := t.dev.drawn } ∧
    t.dev.port port = p ∧ ∀ k, k ≠ port → t.dev.port k = s.dev.port k

/-- Flits that arrive. One that the partner made with the same key and the expected counter is accepted, acknowledged and its packet
delivered as a step to come; a marker besides changes the key slot and drops the old one; one that is old is dropped, and any other is asked
for again; a port that is down takes none (27 R470, R472, R473). -/
def Sys2Proof.Claims.FlitsArrive : Prop :=
  ∀ (s : State) port,
    let p := s.dev.port port
    (∀ flit, p.up = false → exec (.flitReceive port flit) s = .next s ∧ PortBecomes (.keyMarkerReceive port flit) s port p) ∧
    (p.up = true →
      (∀ payload : List Byte, (keyOf p.rxKeys p.rxSlot).valid = true → p.rxSlot < 2 → p.rxCtr < 2 ^ 32 → payload.length = 224 →
        (∃ t, exec (.flitReceive port (makeFlit (keyOf p.rxKeys p.rxSlot) p.rxSlot p.rxCtr false payload)) s = .next t ∧ t.opn = s.opn ∧
          t.agenda = s.agenda ++ ((packetEvent port payload).map Turn.event).toList ∧ t.dev = { s.dev with ports := t.dev.ports } ∧
          t.dev.port port = { p with rxCtr := p.rxCtr + 1, wantReplay := none, acked := some (p.rxSlot, p.rxCtr) } ∧
          ∀ k, k ≠ port → t.dev.port k = s.dev.port k) ∧
        ∃ keys,
          PortBecomes (.keyMarkerReceive port (makeFlit (keyOf p.rxKeys p.rxSlot) p.rxSlot p.rxCtr true payload)) s port
            { p with rxKeys := keys, rxSlot := 1 - p.rxSlot, rxCtr := 0, wantReplay := none, acked := some (p.rxSlot, p.rxCtr) } ∧
          ∀ k, keyOf keys k = if k = p.rxSlot then { keyOf p.rxKeys k with valid := false } else keyOf p.rxKeys k) ∧
      ∀ flit,
        (p.judge flit 1 = .asked → PortBecomes (.flitReceive port flit) s port { p with wantReplay := some p.rxCtr }) ∧
        (p.judge flit 1 = .ignored → PortBecomes (.flitReceive port flit) s port p) ∧
        (p.judge flit 2 = .asked → PortBecomes (.keyMarkerReceive port flit) s port { p with wantReplay := some p.rxCtr }) ∧
        (p.judge flit 2 = .ignored → PortBecomes (.keyMarkerReceive port flit) s port p))

/-- Flits that leave. A marker goes out when one is due and may, and the sender goes on with the other slot from counter 0; an
acknowledgement empties the replay buffer up to its flit and drops the slots whose markers it covers; keys go into invalid slots only. What
waited to be sent then goes out as far as it can (27 R471, R472). -/
def Sys2Proof.Claims.FlitsLeave : Prop :=
  ∀ (s : State) port,
    let p := s.dev.port port
    (p.maySend = true → p.markDue = true →
      ∃ f, PortBecomes (.keyMarkerSend port) s port
          (({ p with txSlot := 1 - p.txSlot, txCtr := 0, replay := p.replay ++ [f] } : Port).pump p.queue.length) ∧
        f.marker = true ∧ f.slot = p.txSlot ∧ f.ctr = p.txCtr ∧ f.bytes.take 16 = flitHeader p.txSlot p.txCtr true) ∧
    (p.maySend = false ∨ p.markDue = false → exec (.keyMarkerSend port) s = .next s) ∧
    (∀ slot counter,
      (∀ i, p.replay.findIdx? (fun f => f.slot == slot && f.ctr == counter) = some i →
        ∃ keys, PortBecomes (.flitAcknowledge port slot counter) s port
            (({ p with replay := p.replay.drop (i + 1), txKeys := keys, naks := 0 } : Port).pump p.queue.length) ∧
          ∀ k, keyOf keys k =
            { keyOf p.txKeys k with
              valid := (keyOf p.txKeys k).valid && (p.replay.take (i + 1)).all (fun f => !f.marker || f.slot != k) }) ∧
      (p.replay.findIdx? (fun f => f.slot == slot && f.ctr == counter) = none → PortBecomes (.flitAcknowledge port slot counter) s port p)) ∧
    ∀ slot key salt,
      let put (keys : Tbl LinkKey) (k : Nat) : LinkKey :=
        if k = slot ∧ (keyOf keys slot).valid = false then { valid := true, key, salt } else keyOf keys k
      (12 ≤ port ∨ 2 ≤ slot ∨ ¬ Up s → ∀ b, exec (.linkKeyProvision port b slot key salt) s = .next s) ∧
      (port < 12 → slot < 2 → Up s →
        (∃ keys, PortBecomes (.linkKeyProvision port true slot key salt) s port (({ p with txKeys := keys } : Port).pump p.queue.length) ∧
          ∀ k, keyOf keys k = put p.txKeys k) ∧
        ∃ keys, PortBecomes (.linkKeyProvision port false slot key salt) s port { p with rxKeys := keys } ∧
          ∀ k, keyOf keys k = put p.rxKeys k)

/-- A replay request is counted and the flits from its counter on go out again, and the eighth in a row for one counter fails the port, which the physical function's log tells and whose
requests fault; a port that is down or has failed takes none. A port that is down or has failed is trained when it is asked for after
bring-up: it comes up with its partner, or goes down (24 R444; 27 R473, R475). -/
def Sys2Proof.Claims.PortsFailAndTrain : Prop :=
  ∀ (s : State) port,
    let p := s.dev.port port
    (∀ counter,
      let n := if p.nakAt = counter then p.naks + 1 else 1
      let q : Port := { p with naks := n, nakAt := counter }
      let again := p.replay.dropWhile (fun f => f.ctr != counter)
      (p.up = false ∨ p.failed = true → exec (.replayRequest port counter) s = .next s) ∧
      (p.up = true → p.failed = false →
        (n < 8 → PortBecomes (.replayRequest port counter) s port { q with resent := again }) ∧
        (8 ≤ n → Becomes (.replayRequest port counter) s (failPort (s.dev.setPort port q) port) ∧
          (reqsOn s.dev port = [] → ∃ t c, exec (.replayRequest port counter) s = .next t ∧
            t.dev.port port = { q with failed := true } ∧ t.dev.mem = s.dev.mem ∧ c ∈ listedCauses ∧
            Logged s t 0 (plainEntry c port 0 5 0 none 0 false))))) ∧
    let asks := port < 12 ∧ 4 ≤ s.dev.bringUp ∧ (p.up = false ∨ p.failed = true)
    (asks → (∀ n, PortBecomes (.linkTrainingRequest port (some n)) s port { p with up := true, failed := false, partner := n, naks := 0 }) ∧
      ∃ t c, exec (.linkTrainingRequest port none) s = .next t ∧ t.dev.port port = { p with up := false } ∧ t.dev.mem = s.dev.mem ∧
        c ∈ listedCauses ∧ Logged s t 0 (plainEntry c port 0 5 0 none 0 false)) ∧
    (¬ asks → ∀ x, exec (.linkTrainingRequest port x) s = .next s)

/-- Flits, keys, replay and training (24 R444; 27 R470 to R473, R475). AES-256-GCM is presumed (log entry 20). Where it rests on the model's
choices, they are those of log entries 20, 23 and 37. -/
def Obligations.LinkFlitsComplete : Prop :=
  FlitsArrive ∧ FlitsLeave ∧ PortsFailAndTrain

/-- What a target answers: a write that the export table lets pass stores the bytes where the packet names them, and the lines written are no
longer sealed; a read gives them; a refused packet changes no memory, is answered with status 1 and logged (27 R474, R476). -/
def Sys2Proof.Claims.TargetsAnswer : Prop :=
  ∀ s port b, Sound s (packetOf b).world →
    let p := packetOf b
    let d := touchRegion s.dev b
    let owner := if 1 ≤ p.world ∧ p.world ≤ 16 then p.world else 0
    let last (places : List (Bool × Nat)) (here : Bool × Nat) : Option Byte :=
      (((places.zip p.data).filter (fun x => x.1 == here)).getLast?).map (fun x => x.2)
    let refused (i : Instr) (op : Nat) : Prop :=
      ∃ t c, exec i s = .next t ∧ t = { s with dev := t.dev } ∧ t.dev.mem = s.dev.mem ∧ c ∈ listedCauses ∧
        Logged s t owner (plainEntry c (packetAddr p) owner 5 0 none 0 false) ∧
        Answered s t port ({ p with op, status := 1, data := [] } : Packet).bytes
    (packetPlaces d b true = none → refused (.remoteWrite port b) 4) ∧
    (packetPlaces d b false = none → refused (.readRequest port b) 3) ∧
    (∀ places, packetPlaces d b true = some places →
      ∃ t, exec (.remoteWrite port b) s = .next t ∧ t = { s with dev := t.dev } ∧ t.dev.parts = s.dev.parts ∧
        (∀ a, readByte t.dev.mem.hbm a = (last places (true, a)).getD (readByte s.dev.mem.hbm a)) ∧
        (∀ a, readByte t.dev.mem.host a = (last places (false, a)).getD (readByte s.dev.mem.host a)) ∧
        (∀ line, tagOf t.dev line =
          if ∃ x ∈ places.zip p.data, x.1.1 = true ∧ lineOf x.1.2 = line then { tagOf s.dev line with form := false }
          else tagOf s.dev line) ∧
        Answered s t port ({ p with op := 4, status := 0, data := [] } : Packet).bytes) ∧
    ∀ places, packetPlaces d b false = some places →
      ∃ t, exec (.readRequest port b) s = .next t ∧ t = { s with dev := t.dev } ∧ t.dev.mem = s.dev.mem ∧ t.dev.parts = s.dev.parts ∧
        Answered s t port
          ({ p with op := 3, status := 0
                    data := places.map (fun x => if x.1 then readByte s.dev.mem.hbm x.2 else readByte s.dev.mem.host x.2) } : Packet).bytes

/-- What an initiator does with an answer: the data read join its piece, the piece written is counted; an answer of another status faults the
request with 0x69; a completion whose object's page is to be brought in comes again; an answer that no request waits for is dropped
(16 R331, R332; 27 R474, R476). -/
def Sys2Proof.Claims.InitiatorsTakeAnswers : Prop :=
  ∀ (s : State) port b,
    let p := packetOf b
    let read := Instr.readData port b
    let done := Instr.writeCompletion port b
    (waitingReq s.dev port p.tag = none → exec read s = .next s ∧ exec done s = .next s) ∧
    ∀ core r, waitingReq s.dev port p.tag = some (core, r) →
      let reads := r.rcd.skind = 1 ∧ r.buf.length < r.rcd.pieceLen r.n
      let writes := r.rcd.dkind = 1 ∧ r.rcd.pieceLen r.n ≤ r.buf.length
      (¬ reads → exec read s = .next s) ∧ (¬ writes → exec done s = .next s) ∧
      (reads → p.status ≠ 0 → Becomes read s (settleAll (copyFault s.dev core r 0x69 (r.rcd.src (r.n + r.buf.length)).toNat) core)) ∧
      (writes → p.status ≠ 0 → Becomes done s (settleAll (copyFault s.dev core r 0x69 (r.rcd.dst r.n).toNat) core)) ∧
      (reads → p.status = 0 → reqOf s.dev core r.id = some r →
        ∃ t r', exec read s = .next t ∧ t = { s with dev := t.dev } ∧ t.dev = { s.dev with cores := t.dev.cores } ∧
          (∀ k, k ≠ core → t.dev.core k = s.dev.core k) ∧ reqOf t.dev core r.id = some r' ∧ r'.buf = r.buf ++ p.data ∧
          r'.peerTag = none ∧ r'.n = r.n) ∧
      (writes → p.status = 0 →
        (pieceDone s.dev core r = none → exec done s = .next { s with agenda := s.agenda ++ [.event done] }) ∧
        (∀ d, pieceDone s.dev core r = some d → Becomes done s (settleAll d core)) ∧
        (reqOf s.dev core r.id = some r → r.rcd.count = false → r.n + r.buf.length < r.rcd.total →
          (s.dev.core core).mq = [] → (∀ x ∈ coreGids s.dev core, ∀ y, s.dev.group x = some y → y.core.tiles = []) →
          ∃ t r', exec done s = .next t ∧ t.dev.mem = s.dev.mem ∧ reqOf t.dev core r.id = some r' ∧
            r'.n = r.n + r.buf.length ∧ r'.buf = [] ∧ r'.peerTag = none))

/-- Transactions on a link (16 R331, R332; 27 R474, R476). Where it rests on the model's choices, they are those of log entries 17, 22, 23
and 37. -/
def Obligations.LinkTransactionsComplete : Prop :=
  TargetsAnswer ∧ InitiatorsTakeAnswers
end

