-- ==== Sys2Proof/Laws/Flow.lean ====
section
/-!
SUPPORT. What the operations at a bundle's end can do, for the statements about landings, paths, barrier objects and rounds to cite.
-/
namespace Sys2Proof.Machine

-- the end of a bundle (01 R14, R24)

/-- Counting a bundle changes the remaining counts alone. -/
theorem GCore.countBundle_frame (c : GCore) (path : LaneMask) :
    c.countBundle path = { c with pend := (c.countBundle path).pend } ∧ (c.countBundle path).pend.length = c.pend.length := by
  simp [GCore.countBundle]

theorem GCore.redirect_next (c : GCore) (b : OpenBundle) (h : b.redirect = .next) :
    c.redirect b = c.setSlot b.slotB { c.slot b.slotB with pc := b.npc } := by simp [GCore.redirect, h]

theorem GCore.redirect_jump (c : GCore) (b : OpenBundle) (pc : DWord) (h : b.redirect = .jump pc) :
    c.redirect b = c.setSlot b.slotB { c.slot b.slotB with pc } := by simp [GCore.redirect, h]

theorem GCore.redirect_split (c : GCore) (b : OpenBundle) (t : DWord) (m : LaneMask) (h : b.redirect = .split t m) :
    c.redirect b = c.split b.slotB t b.npc m := by simp [GCore.redirect, h]

-- a boundary (01 R25, R26)

/-- While a result that is due holds the boundary up, nothing changes. -/
theorem settle_held (d : Device) (gid : Gid) (g : Group) (hg : d.group gid = some g)
    (h : g.asksFirmware = true ∨ (byOp ((freeRsmp d gid g.core).pend.filter Pending.due)).any (holdsUp d gid) = true) : settle d gid = d := by
  rcases h with h | h <;> simp [settle, hg, h]

theorem boundary_eq (d : Device) (gid : Gid) : boundary d gid = afterBoundary (settle d gid) gid := rfl

/-- A group that a deferred cause does not await, that lives and that is not deadlocked goes on. -/
theorem afterBoundary_goes_on (d : Device) (id : Nat) (g : Group) (hg : d.group (.user id) = some g) (hd : g.deferred = none)
    (hl : g.core.live ≠ 0) (h : g.core.deadlocked = false) : afterBoundary d (.user id) = d := by
  simp only [afterBoundary, hg, hd, h, if_neg hl]
  simp

-- the paths (07 R189 to R192)

theorem GCore.popInto_busy (c : GCore) (b : Bool) (h : (c.slot b).st ≠ .idle) : c.popInto b = c := by simp [GCore.popInto, h]

theorem popEntry_append (live : LaneMask) (above : List StackEntry) (e : StackEntry) (below : List StackEntry)
    (dead : ∀ x ∈ above, x.lanes &&& live = 0) (he : e.lanes &&& live ≠ 0) :
    popEntry live (above ++ e :: below) = some ({ e with lanes := e.lanes &&& live }, below) := by
  induction above with
  | nil => simp only [List.nil_append, popEntry, if_neg he]
  | cons x t ih =>
    have hx := dead x List.mem_cons_self
    have ht := ih (fun y hy => dead y (List.mem_cons_of_mem _ hy))
    simpa [popEntry, hx] using ht

theorem popEntry_dead (live : LaneMask) (st : List StackEntry) (dead : ∀ x ∈ st, x.lanes &&& live = 0) : popEntry live st = none := by
  induction st with
  | nil => rfl
  | cons x t ih => simpa [popEntry, dead x List.mem_cons_self] using ih (fun y hy => dead y (List.mem_cons_of_mem _ hy))

theorem swapEntry_append (live : LaneMask) (new : StackEntry) (above : List StackEntry) (e : StackEntry) (below : List StackEntry)
    (skip : ∀ x ∈ above, x.w = true ∨ x.lanes &&& live = 0) (hw : e.w = false) (he : e.lanes &&& live ≠ 0) :
    swapEntry live new (above ++ e :: below) = some ({ e with lanes := e.lanes &&& live }, above ++ new :: below) := by
  induction above with
  | nil =>
    have h0 : (e.lanes &&& live == 0) = false := beq_eq_false_iff_ne.mpr he
    simp only [List.nil_append, swapEntry, hw, h0, Bool.or_false, Bool.false_eq_true, if_false]
  | cons x t ih =>
    have ht := ih (fun y hy => skip y (List.mem_cons_of_mem _ hy))
    rcases skip x List.mem_cons_self with hx | hx <;> simp [swapEntry, hx, ht]

theorem GCore.releases_none (c : GCore) (ha : c.releasable false = false) (hb : c.releasable true = false) : c.releases = c := by
  simp [GCore.releases, ha, hb]

theorem GCore.withdraw_issuing (c : GCore) (h : c.someIssuing = true) : c.withdraw = c := by simp [GCore.withdraw, h]

theorem GCore.afterLanding_outside (c : GCore) (h : c.handler = none) : c.afterLanding = c.rejoin := by simp [GCore.afterLanding, h]

theorem GCore.afterLanding_inside (c : GCore) (h : c.handler.isSome = true) (busy : c.slotA.st ≠ .idle ∨ c.slotB.st ≠ .idle) :
    c.afterLanding = c := by
  rcases busy with b | b <;> simp [GCore.afterLanding, h, b]

-- rings (16 R324)

theorem commitPushes_nil (team : Nat) (d : Device) : commitPushes team d [] = (d, []) := rfl

theorem advanceHead_stops (n : Nat) (r : Ring) (h : r.popDone.contains r.head = false) : advanceHead n r = r := by
  cases n <;> simp_all [advanceHead]

/-- HEAD never goes back. -/
theorem advanceHead_le (n : Nat) : ∀ r : Ring, r.head ≤ (advanceHead n r).head := by
  induction n with
  | zero => exact fun r => Nat.le_refl _
  | succ n ih =>
    intro r
    simp only [advanceHead]
    split
    · exact Nat.le_trans (Nat.le_succ _) (ih { r with head := r.head + 1, popDone := r.popDone.filter (fun x => x != r.head) })
    · exact Nat.le_refl _

/-- HEAD passes over positions whose pops are committed, and no other. -/
theorem advanceHead_committed (n : Nat) : ∀ (r : Ring) (x : Nat), r.head ≤ x → x < (advanceHead n r).head → x ∈ r.popDone := by
  induction n with
  | zero => intro r x h1 h2; simp [advanceHead] at h2; omega
  | succ n ih =>
    intro r x h1 h2
    simp only [advanceHead] at h2
    split at h2
    case isTrue h =>
      by_cases hx : x = r.head
      · subst hx; simpa using h
      · have := ih { r with head := r.head + 1, popDone := r.popDone.filter (fun y => y != r.head) } x
          (by show r.head + 1 ≤ x; omega) h2
        exact (List.mem_filter.mp this).1
    case isFalse => omega

-- rounds (18 R377, R383)

theorem Round.leave_evaluated (r : Round) (group lane : Nat) (killed : Bool) (h : r.outcome.isSome = true) :
    r.leave group lane killed = r := by simp [Round.leave, h]

theorem bestVacancy_mem (d : Device) (p : Arrival) : ∀ l v, bestVacancy d p l = some v → v ∈ l := by
  intro l
  induction l with
  | nil => simp [bestVacancy]
  | cons x t ih =>
    intro v h
    simp only [bestVacancy] at h
    split at h
    next b hb =>
      split at h
      · have : b = v := by simpa using h
        exact List.mem_cons_of_mem _ (ih v (this ▸ hb))
      · have : x = v := by simpa using h
        simp [this]
    next =>
      have : x = v := by simpa using h
      simp [this]

/-- A clone that is placed has a vacancy of those given. -/
theorem placeClones_mem (d : Device) : ∀ (clones : List ClonePlan) (free : List Arrival),
    ∀ x ∈ placeClones d clones free, x.1 ∈ free ∧ x.2 ∈ clones := by
  intro clones
  induction clones with
  | nil => simp [placeClones]
  | cons k t ih =>
    intro free x hx
    simp only [placeClones] at hx
    split at hx
    next v hv =>
      rcases List.mem_cons.mp hx with h | h
      · subst h; exact ⟨bestVacancy_mem d _ _ _ hv, List.mem_cons_self⟩
      · have := ih _ x h
        exact ⟨(List.mem_filter.mp this.1).1, List.mem_cons_of_mem _ this.2⟩
    next => simp at hx

end Sys2Proof.Machine
end

