-- ==== Sys2Proof/Laws/PerInstr.lean ====
section
/-!
SUPPORT. A law of every instruction: a slot operation's encoding has as many 32-bit words as its slot class's leaf (02 R32, R33).
-/
namespace Sys2Proof.Laws

/-- A number cut into words has that many. -/
theorem natWords_length (n w : Nat) : (Sys2Proof.natWords n w).length = n := by
  induction n generalizing w with
  | zero => rfl
  | succ n ih => simp [Sys2Proof.natWords, ih]

end Sys2Proof.Laws

namespace Sys2Proof.Laws.LeafWords

/-- A slot operation's encoding is as long as its class's leaf. -/
def Statement (i : Instr) : Prop := ∀ k, i.slotClass = some k → (encode i).length = k.leafBytes / 4

/-- The law for any instruction. -/
theorem every (i : Instr) : Statement i := by
  intro k h
  have hl : ∃ w, encodeLeaf i = some w := by
    unfold Instr.slotClass at h
    unfold encodeLeaf
    split at h <;> simp_all
  obtain ⟨w, hw⟩ := hl
  simp only [encode, h, hw]
  exact Sys2Proof.Laws.natWords_length _ _

theorem bundle (who : Issuer) : Statement (.bundle who) := every _
theorem leafInstall (group : Nat) : Statement (.leafInstall group) := every _
theorem replicaInstall (launch die : Nat) : Statement (.replicaInstall launch die) := every _
theorem resultDataArrival (group op : Nat) : Statement (.resultDataArrival group op) := every _
theorem issuePick (core : Nat) : Statement (.issuePick core) := every _
theorem firmwareCredit (core quad : Nat) : Statement (.firmwareCredit core quad) := every _
theorem nop (o : COp) : Statement (.nop o) := every _
theorem bra (o : COp) : Statement (.bra o) := every _
theorem brd (o : COp) : Statement (.brd o) := every _
theorem bri (o : COp) : Statement (.bri o) := every _
theorem join (o : COp) : Statement (.join o) := every _
theorem call (o : COp) : Statement (.call o) := every _
theorem ret (o : COp) : Statement (.ret o) := every _
theorem loop (o : COp) : Statement (.loop o) := every _
theorem lend (o : COp) : Statement (.lend o) := every _
theorem exit (o : COp) : Statement (.exit o) := every _
theorem halt (o : COp) : Statement (.halt o) := every _
theorem yield (o : COp) : Statement (.yield o) := every _
theorem setfmt (o : COp) : Statement (.setfmt o) := every _
theorem getfmt (o : COp) : Statement (.getfmt o) := every _
theorem perfSet (o : COp) : Statement (.perfSet o) := every _
theorem trap (o : COp) : Statement (.trap o) := every _
theorem sysRoundTrip (o : COp) : Statement (.sysRoundTrip o) := every _
theorem sysProgress (o : COp) : Statement (.sysProgress o) := every _
theorem sysPageIn (o : COp) : Statement (.sysPageIn o) := every _
theorem sysGroupCount (o : COp) : Statement (.sysGroupCount o) := every _
theorem sysAnswer (group : Nat) : Statement (.sysAnswer group) := every _
theorem bkpt (o : COp) : Statement (.bkpt o) := every _
theorem iret (o : COp) : Statement (.iret o) := every _
theorem waitb (o : COp) : Statement (.waitb o) := every _
theorem barArrive (o : COp) : Statement (.barArrive o) := every _
theorem barWait (o : COp) : Statement (.barWait o) := every _
theorem barTeam (o : COp) : Statement (.barTeam o) := every _
theorem barGrid (o : COp) : Statement (.barGrid o) := every _
theorem gridReleaseWindow (launch quota : Nat) : Statement (.gridReleaseWindow launch quota) := every _
theorem qand (o : COp) : Statement (.qand o) := every _
theorem qor (o : COp) : Statement (.qor o) := every _
theorem qxor (o : COp) : Statement (.qxor o) := every _
theorem qnot (o : COp) : Statement (.qnot o) := every _
theorem qmov (o : COp) : Statement (.qmov o) := every _
theorem xmov (o : COp) : Statement (.xmov o) := every _
theorem xli (o : COp) : Statement (.xli o) := every _
theorem mov (o : VOp) : Statement (.mov o) := every _
theorem iadd (o : VOp) : Statement (.iadd o) := every _
theorem isub (o : VOp) : Statement (.isub o) := every _
theorem iaddc (o : VOp) : Statement (.iaddc o) := every _
theorem isubb (o : VOp) : Statement (.isubb o) := every _
theorem imul (o : VOp) : Statement (.imul o) := every _
theorem imulh (o : VOp) : Statement (.imulh o) := every _
theorem imad (o : VOp) : Statement (.imad o) := every _
theorem imadw (o : VOp) : Statement (.imadw o) := every _
theorem imin (o : VOp) : Statement (.imin o) := every _
theorem imax (o : VOp) : Statement (.imax o) := every _
theorem iabs (o : VOp) : Statement (.iabs o) := every _
theorem ineg (o : VOp) : Statement (.ineg o) := every _
theorem icmp (o : VOp) : Statement (.icmp o) := every _
theorem sel (o : VOp) : Statement (.sel o) := every _
theorem bitAnd (o : VOp) : Statement (.bitAnd o) := every _
theorem bitOr (o : VOp) : Statement (.bitOr o) := every _
theorem bitXor (o : VOp) : Statement (.bitXor o) := every _
theorem andn (o : VOp) : Statement (.andn o) := every _
theorem orn (o : VOp) : Statement (.orn o) := every _
theorem bitNot (o : VOp) : Statement (.bitNot o) := every _
theorem bmix (o : VOp) : Statement (.bmix o) := every _
theorem idp4 (o : VOp) : Statement (.idp4 o) := every _
theorem shl (o : VOp) : Statement (.shl o) := every _
theorem shr (o : VOp) : Statement (.shr o) := every _
theorem sar (o : VOp) : Statement (.sar o) := every _
theorem shf (o : VOp) : Statement (.shf o) := every _
theorem rot (o : VOp) : Statement (.rot o) := every _
theorem popc (o : VOp) : Statement (.popc o) := every _
theorem clz (o : VOp) : Statement (.clz o) := every _
theorem ctz (o : VOp) : Statement (.ctz o) := every _
theorem brev (o : VOp) : Statement (.brev o) := every _
theorem bfx (o : VOp) : Statement (.bfx o) := every _
theorem bfi (o : VOp) : Statement (.bfi o) := every _
theorem bperm (o : VOp) : Statement (.bperm o) := every _
theorem readl (o : VOp) : Statement (.readl o) := every _
theorem rdsys (o : VOp) : Statement (.rdsys o) := every _
theorem wrsys (o : VOp) : Statement (.wrsys o) := every _
theorem rand (o : VOp) : Statement (.rand o) := every _
theorem fadd (o : VOp) : Statement (.fadd o) := every _
theorem fsub (o : VOp) : Statement (.fsub o) := every _
theorem fmul (o : VOp) : Statement (.fmul o) := every _
theorem ffma (o : VOp) : Statement (.ffma o) := every _
theorem fmin (o : VOp) : Statement (.fmin o) := every _
theorem fmax (o : VOp) : Statement (.fmax o) := every _
theorem fcmp (o : VOp) : Statement (.fcmp o) := every _
theorem frnd (o : VOp) : Statement (.frnd o) := every _
theorem fclass (o : VOp) : Statement (.fclass o) := every _
theorem fscale (o : VOp) : Statement (.fscale o) := every _
theorem pkadd (o : VOp) : Statement (.pkadd o) := every _
theorem pkmul (o : VOp) : Statement (.pkmul o) := every _
theorem pkfma (o : VOp) : Statement (.pkfma o) := every _
theorem pkmin (o : VOp) : Statement (.pkmin o) := every _
theorem pkmax (o : VOp) : Statement (.pkmax o) := every _
theorem pkcmp (o : VOp) : Statement (.pkcmp o) := every _
theorem frcp (o : VOp) : Statement (.frcp o) := every _
theorem frsq (o : VOp) : Statement (.frsq o) := every _
theorem fsqrt (o : VOp) : Statement (.fsqrt o) := every _
theorem fex2 (o : VOp) : Statement (.fex2 o) := every _
theorem flg2 (o : VOp) : Statement (.flg2 o) := every _
theorem fsin (o : VOp) : Statement (.fsin o) := every _
theorem fcos (o : VOp) : Statement (.fcos o) := every _
theorem cvt (o : VOp) : Statement (.cvt o) := every _
theorem cvtMx (o : VOp) : Statement (.cvtMx o) := every _
theorem scaleMx (o : VOp) : Statement (.scaleMx o) := every _
theorem lgmul (o : VOp) : Statement (.lgmul o) := every _
theorem lgadd (o : VOp) : Statement (.lgadd o) := every _
theorem xlGet (o : VOp) : Statement (.xlGet o) := every _
theorem xlUp (o : VOp) : Statement (.xlUp o) := every _
theorem xlDn (o : VOp) : Statement (.xlDn o) := every _
theorem xlBfly (o : VOp) : Statement (.xlBfly o) := every _
theorem ballot (o : VOp) : Statement (.ballot o) := every _
theorem voteAny (o : VOp) : Statement (.voteAny o) := every _
theorem voteAll (o : VOp) : Statement (.voteAll o) := every _
theorem voteEq (o : VOp) : Statement (.voteEq o) := every _
theorem lfold (o : VOp) : Statement (.lfold o) := every _
theorem pand (o : VOp) : Statement (.pand o) := every _
theorem por (o : VOp) : Statement (.por o) := every _
theorem pxor (o : VOp) : Statement (.pxor o) := every _
theorem pnot (o : VOp) : Statement (.pnot o) := every _
theorem pmov (o : VOp) : Statement (.pmov o) := every _
theorem p2v (o : VOp) : Statement (.p2v o) := every _
theorem v2p (o : VOp) : Statement (.v2p o) := every _
theorem ldG (o : MOp) : Statement (.ldG o) := every _
theorem stG (o : MOp) : Statement (.stG o) := every _
theorem ldS (o : MOp) : Statement (.ldS o) := every _
theorem stS (o : MOp) : Statement (.stS o) := every _
theorem fence (o : MOp) : Statement (.fence o) := every _
theorem pref (o : MOp) : Statement (.pref o) := every _
theorem l1inv (o : MOp) : Statement (.l1inv o) := every _
theorem l1invAll (o : MOp) : Statement (.l1invAll o) := every _
theorem l1invRec (o : MOp) : Statement (.l1invRec o) := every _
theorem tld (o : MOp) : Statement (.tld o) := every _
theorem tst (o : MOp) : Statement (.tst o) := every _
theorem recLd (o : MOp) : Statement (.recLd o) := every _
theorem recMk (o : MOp) : Statement (.recMk o) := every _
theorem spgOut (o : MOp) : Statement (.spgOut o) := every _
theorem spgIn (o : MOp) : Statement (.spgIn o) := every _
theorem atomGAdd (o : MOp) : Statement (.atomGAdd o) := every _
theorem atomGMin (o : MOp) : Statement (.atomGMin o) := every _
theorem atomGMax (o : MOp) : Statement (.atomGMax o) := every _
theorem atomGAnd (o : MOp) : Statement (.atomGAnd o) := every _
theorem atomGOr (o : MOp) : Statement (.atomGOr o) := every _
theorem atomGXor (o : MOp) : Statement (.atomGXor o) := every _
theorem atomGXchg (o : MOp) : Statement (.atomGXchg o) := every _
theorem atomGCas (o : MOp) : Statement (.atomGCas o) := every _
theorem atomGInc (o : MOp) : Statement (.atomGInc o) := every _
theorem atomGDec (o : MOp) : Statement (.atomGDec o) := every _
theorem atomGFadd (o : MOp) : Statement (.atomGFadd o) := every _
theorem atomSAdd (o : MOp) : Statement (.atomSAdd o) := every _
theorem atomSMin (o : MOp) : Statement (.atomSMin o) := every _
theorem atomSMax (o : MOp) : Statement (.atomSMax o) := every _
theorem atomSAnd (o : MOp) : Statement (.atomSAnd o) := every _
theorem atomSOr (o : MOp) : Statement (.atomSOr o) := every _
theorem atomSXor (o : MOp) : Statement (.atomSXor o) := every _
theorem atomSXchg (o : MOp) : Statement (.atomSXchg o) := every _
theorem atomSCas (o : MOp) : Statement (.atomSCas o) := every _
theorem atomSInc (o : MOp) : Statement (.atomSInc o) := every _
theorem atomSDec (o : MOp) : Statement (.atomSDec o) := every _
theorem atomSFadd (o : MOp) : Statement (.atomSFadd o) := every _
theorem issueChecksDone (group : Nat) : Statement (.issueChecksDone group) := every _
theorem loadResponse (group op line : Nat) : Statement (.loadResponse group op line) := every _
theorem storeAtHomeSlice (group line : Nat) : Statement (.storeAtHomeSlice group line) := every _
theorem mma (o : EOp) : Statement (.mma o) := every _
theorem mmaSp (o : EOp) : Statement (.mmaSp o) := every _
theorem matrixKstep (core : Nat) : Statement (.matrixKstep core) := every _
theorem accZero (o : EOp) : Statement (.accZero o) := every _
theorem accRd (o : EOp) : Statement (.accRd o) := every _
theorem accWr (o : EOp) : Statement (.accWr o) := every _
theorem ringCfg (o : EOp) : Statement (.ringCfg o) := every _
theorem sqCfg (o : EOp) : Statement (.sqCfg o) := every _
theorem ringCfgTakeEffect (core : Nat) : Statement (.ringCfgTakeEffect core) := every _
theorem ringRst (o : EOp) : Statement (.ringRst o) := every _
theorem ringRstTakeEffect (core : Nat) : Statement (.ringRstTakeEffect core) := every _
theorem ringStat (o : EOp) : Statement (.ringStat o) := every _
theorem copyKick (o : EOp) : Statement (.copyKick o) := every _
theorem copyRecordFetch (core : Nat) : Statement (.copyRecordFetch core) := every _
theorem copyOwnershipGrant (core req : Nat) : Statement (.copyOwnershipGrant core req) := every _
theorem copyLineWrite (core req : Nat) : Statement (.copyLineWrite core req) := every _
theorem uintArm (o : EOp) : Statement (.uintArm o) := every _
theorem uintEntry (group : Nat) : Statement (.uintEntry group) := every _
theorem sealTile (o : EOp) : Statement (.sealTile o) := every _
theorem openTile (o : EOp) : Statement (.openTile o) := every _
theorem cipherOperation (core : Nat) : Statement (.cipherOperation core) := every _
theorem spawn (o : EOp) : Statement (.spawn o) := every _
theorem popInit (o : EOp) : Statement (.popInit o) := every _
theorem popJoin (o : EOp) : Statement (.popJoin o) := every _
theorem popLeave (o : EOp) : Statement (.popLeave o) := every _
theorem rsmp (o : EOp) : Statement (.rsmp o) := every _
theorem rsmpEvaluate (pop : Nat) : Statement (.rsmpEvaluate pop) := every _
theorem popStat (o : EOp) : Statement (.popStat o) := every _
theorem pageFaultRepair (group : Nat) : Statement (.pageFaultRepair group) := every _
theorem segmentAbsentRepair (group : Nat) : Statement (.segmentAbsentRepair group) := every _
theorem repairTimeout (group : Nat) : Statement (.repairTimeout group) := every _
theorem autoBankFlip (core : Nat) : Statement (.autoBankFlip core) := every _
theorem teamMigrate (team core bank : Nat) : Statement (.teamMigrate team core bank) := every _
theorem teamSwapOut (team : Nat) : Statement (.teamSwapOut team) := every _
theorem saveFramePush (part : Nat) (value : DWord) : Statement (.saveFramePush part value) := every _
theorem gctlStop (core quad : Nat) : Statement (.gctlStop core quad) := every _
theorem gctlResume (core quad : Nat) : Statement (.gctlResume core quad) := every _
theorem gctlResumePast (core quad : Nat) : Statement (.gctlResumePast core quad) := every _
theorem gctlHandleKindL (core quad : Nat) : Statement (.gctlHandleKindL core quad) := every _
theorem rdataWrite (core quad : Nat) (value : Word) : Statement (.rdataWrite core quad value) := every _
theorem bankFlip (core : Nat) : Statement (.bankFlip core) := every _
theorem bankDrain (core : Nat) : Statement (.bankDrain core) := every _
theorem bankFill (core : Nat) : Statement (.bankFill core) := every _
theorem segmentInvalidate (part : Nat) (value : DWord) : Statement (.segmentInvalidate part value) := every _
theorem segmentInvalidateAll (part : Nat) : Statement (.segmentInvalidateAll part) := every _
theorem invalidationDone (part : Nat) : Statement (.invalidationDone part) := every _
theorem segmentMigrate (part seg : Nat) (target : DWord) : Statement (.segmentMigrate part seg target) := every _
theorem teamRetire (team : Nat) : Statement (.teamRetire team) := every _
theorem globalDispatchBatch (part : Nat) : Statement (.globalDispatchBatch part) := every _
theorem seedPlace (launch : Nat) : Statement (.seedPlace launch) := every _
theorem cpNop (at_ : Stream) (dw : BitVec 16) : Statement (.cpNop at_ dw) := every _
theorem launch (at_ : Stream) (k : LaunchPacket) : Statement (.launch at_ k) := every _
theorem ib (at_ : Stream) (addr : DWord) (size : Word) : Statement (.ib at_ addr size) := every _
theorem pred (at_ : Stream) (t : MemTest) (skip : Byte) : Statement (.pred at_ t skip) := every _
theorem cpLoop (at_ : Stream) (passes range : Word) : Statement (.cpLoop at_ passes range) := every _
theorem wait (at_ : Stream) (t : MemTest) : Statement (.wait at_ t) := every _
theorem waitTestHolds (at_ : Stream) : Statement (.waitTestHolds at_) := every _
theorem write (at_ : Stream) (addr : DWord) (data : List Word) : Statement (.write at_ addr data) := every _
theorem signal (at_ : Stream) (addr value : DWord) (vector : BitVec 11) (irq : Bool) : Statement (.signal at_ addr value vector irq) := every _
theorem copy (at_ : Stream) (record : List Word) : Statement (.copy at_ record) := every _
theorem popDesc (at_ : Stream) (addr : DWord) : Statement (.popDesc at_ addr) := every _
theorem ctxsw (at_ : Stream) (target : BitVec 2) : Statement (.ctxsw at_ target) := every _
theorem timestamp (at_ : Stream) (addr hostTime : DWord) : Statement (.timestamp at_ addr hostTime) := every _
theorem fetchFence (at_ : Stream) : Statement (.fetchFence at_) := every _
theorem slewInterval (die : Nat) : Statement (.slewInterval die) := every _
theorem levelChangeDone (die : Nat) : Statement (.levelChangeDone die) := every _
theorem moduleReset (training : Training) : Statement (.moduleReset training) := every _
theorem keyMarkerSend (port : Nat) : Statement (.keyMarkerSend port) := every _
theorem flitReceive (port : Nat) (flit : List Byte) : Statement (.flitReceive port flit) := every _
theorem keyMarkerReceive (port : Nat) (flit : List Byte) : Statement (.keyMarkerReceive port flit) := every _
theorem flitAcknowledge (port slot counter : Nat) : Statement (.flitAcknowledge port slot counter) := every _
theorem replayRequest (port counter : Nat) : Statement (.replayRequest port counter) := every _
theorem remoteWrite (port : Nat) (packet : List Byte) : Statement (.remoteWrite port packet) := every _
theorem readRequest (port : Nat) (packet : List Byte) : Statement (.readRequest port packet) := every _
theorem readData (port : Nat) (packet : List Byte) : Statement (.readData port packet) := every _
theorem writeCompletion (port : Nat) (packet : List Byte) : Statement (.writeCompletion port packet) := every _
theorem copySourceLineRead (core req : Nat) : Statement (.copySourceLineRead core req) := every _
theorem uncorrectableError (place : ErrPlace) : Statement (.uncorrectableError place) := every _
theorem l2EvictUncorrectable (line : Nat) : Statement (.l2EvictUncorrectable line) := every _
theorem injectorControlWrite (part : Nat) (value : DWord) : Statement (.injectorControlWrite part value) := every _
theorem notify (at_ : Stream) (value : DWord) : Statement (.notify at_ value) := every _
theorem ringBaseWrite (at_ : Stream) (value : DWord) : Statement (.ringBaseWrite at_ value) := every _
theorem ringSizeWrite (at_ : Stream) (value : DWord) : Statement (.ringSizeWrite at_ value) := every _
theorem errorLogClear (part : Nat) (value : Word) : Statement (.errorLogClear part value) := every _
theorem partitionCreate (part : Nat) (value : DWord) (segBase : DWord) : Statement (.partitionCreate part value segBase) := every _
theorem partitionDestroy (part : Nat) (health : List Nat) : Statement (.partitionDestroy part health) := every _
theorem partitionSuspend (part : Nat) : Statement (.partitionSuspend part) := every _
theorem partitionResume (part : Nat) : Statement (.partitionResume part) := every _
theorem partitionTurnover (part : Nat) (health : List Nat) : Statement (.partitionTurnover part health) := every _
theorem resetFirmwareContexts (part : Nat) : Statement (.resetFirmwareContexts part) := every _
theorem lockInterfaceRequest (part : Nat) : Statement (.lockInterfaceRequest part) := every _
theorem startInterfaceRequest (part : Nat) : Statement (.startInterfaceRequest part) := every _
theorem stopInterface (part : Nat) (health : List Nat) : Statement (.stopInterface part health) := every _
theorem registerWrite (reg : HubReg) (value : DWord) : Statement (.registerWrite reg value) := every _
theorem partitionCapWrite (part : Nat) (value : Word) : Statement (.partitionCapWrite part value) := every _
theorem keySlotProvision (part slot : Nat) (key : BitVec 256) : Statement (.keySlotProvision part slot key) := every _
theorem getMeasurements (part : Nat) : Statement (.getMeasurements part) := every _
theorem currentLimitExceeded (die : Nat) : Statement (.currentLimitExceeded die) := every _
theorem currentBelowLimit (die : Nat) : Statement (.currentBelowLimit die) := every _
theorem heatMapUpdate (temps : List Int) : Statement (.heatMapUpdate temps) := every _
theorem dieGate (die : Nat) : Statement (.dieGate die) := every _
theorem dieUngate (die : Nat) : Statement (.dieUngate die) := every _
theorem linkTrainingRequest (port : Nat) (partner : Option Nat) : Statement (.linkTrainingRequest port partner) := every _
theorem linkKeyProvision (port : Nat) (sending : Bool) (slot : Nat) (key : BitVec 256) (salt : Word) : Statement (.linkKeyProvision port sending slot key salt) := every _
theorem hostIngressAccess (part : Nat) (write : Bool) (addr : Nat) (data : List Byte) : Statement (.hostIngressAccess part write addr data) := every _
theorem debuggerAttach (part : Nat) (attach : Bool) : Statement (.debuggerAttach part attach) := every _

end Sys2Proof.Laws.LeafWords
end

