-- ==== Sys2Proof/Laws/Rounding.lean ====
section
/-!
SUPPORT. Laws of the roundings of chapter 03: `roundFloat` and `roundUnits` give the values that Machine/Rounding.lean speaks of, and the
float functions with them.
-/
namespace Sys2Proof.Machine

/-- What half units a magnitude reaches and is fit together. -/
structure Magnitude.Sound (v : Magnitude) : Prop where
  down : ∀ {h k}, h ≤ k → v.reaches k → v.reaches h
  exact : ∀ {h}, v.exactly h → v.reaches h
  tight : ∀ {h k}, v.exactly h → h < k → ¬ v.reaches k

theorem magUnits_small (frac mag : Nat) (h : mag < 2 ^ frac) : magUnits frac mag = mag := by
  simp [magUnits, Nat.div_eq_of_lt h]

/-- The magnitude with significand q at exponent step t. -/
theorem magUnits_normal (frac t q : Nat) (h1 : q ≤ 2 ^ (frac + 1)) (h2 : t = 0 ∨ 2 ^ frac ≤ q) :
    magUnits frac (t * 2 ^ frac + q) = q * 2 ^ t := by
  have hp : 0 < 2 ^ frac := Nat.two_pow_pos frac
  have h2p : 2 ^ (frac + 1) = 2 * 2 ^ frac := by rw [Nat.pow_succ]; omega
  by_cases hq : q < 2 ^ frac
  · obtain rfl : t = 0 := by omega
    simp [magUnits_small _ _ hq]
  · by_cases hq2 : q = 2 ^ (frac + 1)
    · have e : t * 2 ^ frac + q = (t + 2) * 2 ^ frac := by rw [hq2, h2p, Nat.add_mul]
      have hd : (t + 2) * 2 ^ frac / 2 ^ frac = t + 2 := Nat.mul_div_cancel _ hp
      have hm : (t + 2) * 2 ^ frac % 2 ^ frac = 0 := Nat.mul_mod_left _ _
      rw [e, magUnits, hd, hm, if_neg (by omega), hq2, h2p]
      show (2 ^ frac + 0) * 2 ^ (t + 1) = _
      rw [Nat.pow_succ, Nat.add_zero, Nat.mul_comm 2 (2 ^ frac), Nat.mul_assoc, Nat.mul_comm 2 (2 ^ t)]
    · have hr : q - 2 ^ frac < 2 ^ frac := by omega
      have e : t * 2 ^ frac + q = (q - 2 ^ frac) + 2 ^ frac * (t + 1) := by rw [Nat.mul_add, Nat.mul_comm t]; omega
      have hd : ((q - 2 ^ frac) + 2 ^ frac * (t + 1)) / 2 ^ frac = t + 1 := by
        rw [Nat.add_mul_div_left _ _ hp, Nat.div_eq_of_lt hr]; omega
      have hm : ((q - 2 ^ frac) + 2 ^ frac * (t + 1)) % 2 ^ frac = q - 2 ^ frac := by
        rw [Nat.add_mul_mod_self_left, Nat.mod_eq_of_lt hr]
      rw [e, magUnits, hd, hm, if_neg (by omega)]
      congr 1; omega

theorem magUnits_lt_succ (frac mag : Nat) : magUnits frac mag < magUnits frac (mag + 1) := by
  have hp : 0 < 2 ^ frac := Nat.two_pow_pos frac
  have h2p : 2 ^ (frac + 1) = 2 * 2 ^ frac := by rw [Nat.pow_succ]; omega
  by_cases h : mag < 2 ^ frac
  · have e1 := magUnits_normal frac 0 mag (by omega) (.inl rfl)
    have e2 := magUnits_normal frac 0 (mag + 1) (by omega) (.inl rfl)
    simp at e1 e2; omega
  · have hdm := Nat.div_add_mod mag (2 ^ frac)
    have hlt := Nat.mod_lt mag hp
    have hd1 : 1 ≤ mag / 2 ^ frac := Nat.div_pos (by omega) hp
    obtain ⟨t, ht⟩ : ∃ t, mag / 2 ^ frac = t + 1 := ⟨mag / 2 ^ frac - 1, by omega⟩
    rw [ht, Nat.mul_add, Nat.mul_comm _ t, Nat.mul_one] at hdm
    have e1 := magUnits_normal frac t (2 ^ frac + mag % 2 ^ frac) (by omega) (.inr (by omega))
    have e2 := magUnits_normal frac t (2 ^ frac + mag % 2 ^ frac + 1) (by omega) (.inr (by omega))
    have a1 : t * 2 ^ frac + (2 ^ frac + mag % 2 ^ frac) = mag := by omega
    have a2 : t * 2 ^ frac + (2 ^ frac + mag % 2 ^ frac + 1) = mag + 1 := by omega
    rw [a1] at e1; rw [a2] at e2; rw [e1, e2]
    exact Nat.mul_lt_mul_of_pos_right (by omega) (Nat.two_pow_pos t)

theorem magUnits_mono (frac : Nat) {a b : Nat} (h : a ≤ b) : magUnits frac a ≤ magUnits frac b := by
  induction h with
  | refl => exact Nat.le_refl _
  | step _ ih => exact Nat.le_trans ih (Nat.le_of_lt (magUnits_lt_succ _ _))

theorem magUnits_le_iff (frac : Nat) {a b : Nat} : magUnits frac a ≤ magUnits frac b ↔ a ≤ b := by
  constructor
  · intro h
    by_cases hab : a ≤ b
    · exact hab
    · have := magUnits_mono frac (show b + 1 ≤ a by omega)
      have := magUnits_lt_succ frac b; omega
  · exact magUnits_mono frac

theorem magUnits_lt_iff (frac : Nat) {a b : Nat} : magUnits frac a < magUnits frac b ↔ a < b := by
  have := magUnits_le_iff frac (a := b) (b := a); omega

/-- The rounding of a magnitude that lies at a code or above it and below the next. -/
theorem isRounded_between (f : FloatFmt) (rm : Rm) (sat neg : Bool) (v : Magnitude) (hv : v.Sound) (m0 mag r : Nat)
    (h0 : v.reaches (2 * magUnits f.frac m0)) (h2 : ¬ v.reaches (2 * magUnits f.frac (m0 + 1)))
    (hmag : match aimOf rm neg with
      | .inward => mag = m0
      | .outward => (v.exactly (2 * magUnits f.frac m0) ∧ mag = m0) ∨ (¬ v.exactly (2 * magUnits f.frac m0) ∧ mag = m0 + 1)
      | .nearest =>
        (mag = m0 + 1 ∧ v.reaches (magUnits f.frac m0 + magUnits f.frac (m0 + 1)) ∧
          (v.exactly (magUnits f.frac m0 + magUnits f.frac (m0 + 1)) → m0 % 2 = 1)) ∨
        (mag = m0 ∧ (v.reaches (magUnits f.frac m0 + magUnits f.frac (m0 + 1)) →
          v.exactly (magUnits f.frac m0 + magUnits f.frac (m0 + 1)) ∧ m0 % 2 = 0)))
    (hr : r = if mag ≤ f.maxMag then f.withSign neg mag else if aimOf rm neg = .inward then f.withSign neg f.maxMag else f.infCode neg sat) :
    IsRounded f rm sat neg v r := by
  have hs := magUnits_lt_succ f.frac m0
  have mono : ∀ {a b}, a ≤ b → magUnits f.frac a ≤ magUnits f.frac b := fun h => magUnits_mono _ h
  have stm : ∀ {a b}, a < b → magUnits f.frac a < magUnits f.frac b := fun h => (magUnits_lt_iff _).2 h
  -- reaching twice a code
  have below : ∀ {c}, v.reaches (2 * magUnits f.frac c) → c ≤ m0 := by
    intro c h
    by_cases hc : c ≤ m0
    · exact hc
    · exact absurd (hv.down (by have := mono (show m0 + 1 ≤ c by omega); omega) h) h2
  have above : ∀ {c}, c ≤ m0 → v.reaches (2 * magUnits f.frac c) := fun h => hv.down (by have := mono h; omega) h0
  have notExact : ∀ {h}, h < 2 * magUnits f.frac m0 → ¬ v.exactly h := fun hlt he => hv.tight he hlt h0
  have hsm := magUnits_lt_succ f.frac f.maxMag
  cases ha : aimOf rm neg with
  | inward =>
    rw [ha] at hmag
    simp only [] at hmag; subst hmag
    simp only [ha, if_true] at hr
    rw [IsRounded, ha]
    refine ⟨fun h => h.elim, fun _ => ?_⟩
    by_cases hle : mag ≤ f.maxMag
    · refine ⟨mag, hle, by simp [hr, hle], h0, fun c _ h => mono (below h)⟩
    · refine ⟨f.maxMag, Nat.le_refl _, by simp [hr, hle], above (by omega), fun c hc _ => mono hc⟩
  | outward =>
    rw [ha] at hmag
    simp only [ha, if_false, reduceCtorEq] at hr
    have key : Overflows f .outward v ↔ f.maxMag < mag := by
      simp only [Overflows]
      constructor
      · rintro ⟨h1, h3⟩
        have := below h1
        rcases hmag with ⟨he, rfl⟩ | ⟨_, rfl⟩
        · by_cases hh : f.maxMag = mag
          · rw [hh] at h3; exact absurd he h3
          · omega
        · omega
      · intro hlt
        rcases hmag with ⟨he, rfl⟩ | ⟨hn, rfl⟩
        · exact ⟨above (by omega), notExact (by have := stm hlt; omega)⟩
        · refine ⟨above (by omega), ?_⟩
          by_cases hh : f.maxMag = m0
          · rw [hh]; exact hn
          · exact notExact (by have := stm (show f.maxMag < m0 by omega); omega)
    rw [IsRounded, ha, key]
    refine ⟨fun h => by simp [hr, show ¬ mag ≤ f.maxMag by omega], fun h => ⟨mag, by omega, by simp [hr, show mag ≤ f.maxMag by omega], ?_⟩⟩
    rcases hmag with ⟨he, rfl⟩ | ⟨hn, rfl⟩
    · refine ⟨fun _ => he, fun c _ hc => ?_⟩
      by_cases hcm : mag ≤ c
      · exact mono hcm
      · exact absurd (hc (above (by omega))) (notExact (by have := stm (show c < mag by omega); omega))
    · refine ⟨fun h => absurd h h2, fun c _ hc => ?_⟩
      by_cases hcm : m0 + 1 ≤ c
      · exact mono hcm
      · have hx := hc (above (by omega))
        by_cases hh : c = m0
        · rw [hh] at hx; exact absurd hx hn
        · exact absurd hx (notExact (by have := stm (show c < m0 by omega); omega))
  | nearest =>
    rw [ha] at hmag
    simp only [ha, if_false, reduceCtorEq] at hr
    -- where the midpoint of two neighbours below or above lies
    have reachMid : ∀ {c}, c < m0 → v.reaches (magUnits f.frac c + magUnits f.frac (c + 1)) := by
      intro c hc
      exact hv.down (by have := mono (show c ≤ m0 by omega); have := mono (show c + 1 ≤ m0 by omega); omega) h0
    have noMid : ∀ {c}, m0 < c → ¬ v.reaches (magUnits f.frac c + magUnits f.frac (c + 1)) := by
      intro c hc h
      exact h2 (hv.down (by have := mono (show m0 + 1 ≤ c by omega); have := mono (show m0 + 1 ≤ c + 1 by omega); omega) h)
    have key : Overflows f .nearest v ↔ f.maxMag < mag := by
      simp only [Overflows]
      constructor
      · rintro ⟨h1, h3⟩
        have hle : f.maxMag ≤ m0 := by
          by_cases hh : f.maxMag ≤ m0
          · exact hh
          · exact absurd h1 (noMid (by omega))
        rcases hmag with ⟨rfl, _, _⟩ | ⟨rfl, hb⟩
        · omega
        · by_cases hh : f.maxMag = mag
          · rw [hh] at h1 h3
            have := hb h1
            have := h3 this.1
            omega
          · omega
      · intro hlt
        rcases hmag with ⟨rfl, h1, h3⟩ | ⟨rfl, hb⟩
        · by_cases hh : f.maxMag = m0
          · rw [hh]; exact ⟨h1, h3⟩
          · refine ⟨reachMid (by omega), fun h => absurd h (notExact ?_)⟩
            have := stm (show f.maxMag < m0 by omega); have := mono (show f.maxMag + 1 ≤ m0 by omega); omega
        · refine ⟨reachMid (by omega), fun h => absurd h (notExact ?_)⟩
          have := stm (show f.maxMag < mag by omega); have := mono (show f.maxMag + 1 ≤ mag by omega); omega
    rw [IsRounded, ha, key]
    refine ⟨fun h => by simp [hr, show ¬ mag ≤ f.maxMag by omega], fun h => ⟨mag, by omega, by simp [hr, show mag ≤ f.maxMag by omega], ?_⟩⟩
    intro c _
    have ltc : ∀ {a b}, magUnits f.frac a < magUnits f.frac b → a < b := fun h => (magUnits_lt_iff _).1 h
    rcases hmag with ⟨rfl, h1, h3⟩ | ⟨rfl, hb⟩
    · constructor
      · intro hc
        have hc' : c ≤ m0 := by have := ltc hc; omega
        refine ⟨hv.down (by have := mono hc'; omega) h1, fun he => ?_⟩
        by_cases hh : c = m0
        · rw [hh] at he; have := h3 he; omega
        · exact absurd h1 (hv.tight he (by have := stm (show c < m0 by omega); omega))
      · intro hc h
        exact absurd (hv.down (by have := mono (Nat.le_of_lt (ltc hc)); omega) h) h2
    · constructor
      · intro hc
        have hc' := ltc hc
        refine ⟨hv.down (by have := stm hc'; omega) h0, fun he => absurd he (notExact (by have := stm hc'; omega))⟩
      · intro hc h
        have hc' := ltc hc
        have hb' := hb (hv.down (by have := mono (show mag + 1 ≤ c by omega); omega) h)
        by_cases hh : c = mag + 1
        · rw [hh, Nat.add_comm]; exact hb'
        · exact absurd h (hv.tight hb'.1 (by have := stm (show mag + 1 < c by omega); omega))

theorem mul_two_pow_le_iff (a b k : Nat) : a * 2 ^ k ≤ b * 2 ^ k ↔ a ≤ b := by
  constructor
  · intro h; exact Nat.le_of_mul_le_mul_right h (Nat.two_pow_pos k)
  · intro h; exact Nat.mul_le_mul_right _ h

theorem mul_two_pow_inj (a b k : Nat) : a * 2 ^ k = b * 2 ^ k ↔ a = b := by
  constructor
  · intro h; exact Nat.eq_of_mul_eq_mul_right (Nat.two_pow_pos k) h
  · intro h; rw [h]

/-- j · 2^t half units against a significand, where the half unit lies t − d + 1 powers of two below the significand's unit. -/
theorem halves_le_iff (j m t d : Nat) (hd : 0 < d) :
    (j * 2 ^ t) * 2 ^ ((d : Int) - 1 - t).toNat ≤ m * 2 ^ ((t : Int) - d + 1).toNat ↔ j * 2 ^ (d - 1) ≤ m := by
  by_cases h : t ≤ d - 1
  · rw [show ((t : Int) - d + 1).toNat = 0 by omega, show ((d : Int) - 1 - t).toNat = d - 1 - t by omega, Nat.mul_assoc, ← Nat.pow_add,
      show t + (d - 1 - t) = d - 1 by omega, Nat.pow_zero, Nat.mul_one]
  · rw [show ((d : Int) - 1 - t).toNat = 0 by omega, show ((t : Int) - d + 1).toNat = t - (d - 1) by omega, Nat.pow_zero, Nat.mul_one,
      show 2 ^ t = 2 ^ (d - 1) * 2 ^ (t - (d - 1)) by rw [← Nat.pow_add]; congr 1; omega, ← Nat.mul_assoc, mul_two_pow_le_iff]

theorem halves_eq_iff (j m t d : Nat) (hd : 0 < d) :
    (j * 2 ^ t) * 2 ^ ((d : Int) - 1 - t).toNat = m * 2 ^ ((t : Int) - d + 1).toNat ↔ j * 2 ^ (d - 1) = m := by
  by_cases h : t ≤ d - 1
  · rw [show ((t : Int) - d + 1).toNat = 0 by omega, show ((d : Int) - 1 - t).toNat = d - 1 - t by omega, Nat.mul_assoc, ← Nat.pow_add,
      show t + (d - 1 - t) = d - 1 by omega, Nat.pow_zero, Nat.mul_one]
  · rw [show ((d : Int) - 1 - t).toNat = 0 by omega, show ((t : Int) - d + 1).toNat = t - (d - 1) by omega, Nat.pow_zero, Nat.mul_one,
      show 2 ^ t = 2 ^ (d - 1) * 2 ^ (t - (d - 1)) by rw [← Nat.pow_add]; congr 1; omega, ← Nat.mul_assoc, mul_two_pow_inj]

theorem away_eq_aim (rm : Rm) (neg : Bool) : (rmRnd rm).away neg = !decide (aimOf rm neg = .inward) := by
  cases rm <;> cases neg <;> rfl

/-- roundFloat gives the correctly rounded code of a magnitude that lies at m · 2^e, or with `more` strictly between that and
(m + 1) · 2^e, which is then too narrow to hold a point that the rounding tests (03 R88, R102). The magnitude need be known at the multiples
of 2^e half units alone. -/
theorem roundFloat_isRounded (f : FloatFmt) (hf : 0 < f.frac) (rm : Rm) (sat neg : Bool) (m : Nat) (e : Int) (more : Bool) (hm : 0 < m)
    (hmore : more = true → f.frac + 1 ≤ Nat.log2 m) (v : Magnitude) (hv : v.Sound)
    (hknown : ∀ h, 2 ^ (e + f.bias + f.frac).toNat ∣ h →
      (v.reaches h ↔ h * 2 ^ (-(e + f.bias + f.frac)).toNat ≤ m * 2 ^ (e + f.bias + f.frac).toNat) ∧
      (v.exactly h ↔ h * 2 ^ (-(e + f.bias + f.frac)).toNat = m * 2 ^ (e + f.bias + f.frac).toNat ∧ more = false)) (rb : Nat) :
    IsRounded f rm sat neg v (roundFloat (.num neg m e more) f (rmRnd rm) sat rb) := by
  have hl1 : 2 ^ Nat.log2 m ≤ m := Nat.log2_self_le (by omega)
  have hl2 : m < 2 ^ (Nat.log2 m + 1) := Nat.lt_log2_self
  generalize hL : Nat.log2 m = L at *
  -- the exponent of the grid
  obtain ⟨t, u, hu, ht, hge, hcase⟩ : ∃ (t : Nat) (u : Int),
      u = (if (L : Int) + e - f.frac < 1 - f.bias - f.frac then (1 : Int) - f.bias - f.frac else (L : Int) + e - f.frac) ∧
        u = 1 - f.bias - f.frac + t ∧ (L : Int) + e - f.frac ≤ u ∧ (t = 0 ∨ u = (L : Int) + e - f.frac) := by
    by_cases h : (L : Int) + e - f.frac < 1 - f.bias - f.frac
    · exact ⟨0, 1 - f.bias - f.frac, by rw [if_pos h], by omega, by omega, .inl rfl⟩
    · exact ⟨((L : Int) + e - f.frac - (1 - f.bias - f.frac)).toNat, (L : Int) + e - f.frac, by rw [if_neg h], by omega, by omega, .inr rfl⟩
  have hpar : ∀ q, (t * 2 ^ f.frac + q) % 2 = q % 2 := by
    intro q
    obtain ⟨k, hk⟩ : ∃ k, f.frac = k + 1 := ⟨f.frac - 1, by omega⟩
    rw [hk, Nat.pow_succ, ← Nat.mul_assoc]; omega
  have hround : roundFloat (.num neg m e more) f (rmRnd rm) sat rb =
      let mag := t * 2 ^ f.frac + roundUnits (rmRnd rm) neg m e more u rb
      if mag ≤ f.maxMag then f.withSign neg mag else if aimOf rm neg = .inward then f.withSign neg f.maxMag else f.infCode neg sat := by
    simp only [roundFloat, if_neg (show ¬ m = 0 by omega), hL, ← hu, away_eq_aim]
    rw [show (u - (1 - (f.bias : Int) - f.frac)).toNat = t by omega]
    by_cases h1 : t * 2 ^ f.frac + roundUnits (rmRnd rm) neg m e more u rb ≤ f.maxMag
    · simp [h1]
    · by_cases h2 : aimOf rm neg = .inward <;> simp [h1, h2]
  by_cases hd : u ≤ e
  · -- m · 2^e is on the grid
    obtain ⟨k, hk⟩ : ∃ k : Nat, e = u + k := ⟨(e - u).toNat, by omega⟩
    have hmf : more = false := by cases more with | false => rfl | true => have := hmore rfl; omega
    have hq1 : m * 2 ^ k < 2 ^ (f.frac + 1) := by
      have : m * 2 ^ k < 2 ^ (L + 1) * 2 ^ k := Nat.mul_lt_mul_of_pos_right hl2 (Nat.two_pow_pos k)
      rw [← Nat.pow_add] at this
      exact Nat.lt_of_lt_of_le this (Nat.pow_le_pow_right (by omega) (by omega))
    have hq2 : t = 0 ∨ 2 ^ f.frac ≤ m * 2 ^ k := by
      rcases hcase with h | h
      · exact .inl h
      · right
        have : 2 ^ L * 2 ^ k ≤ m * 2 ^ k := Nat.mul_le_mul_right _ hl1
        rwa [← Nat.pow_add, show L + k = f.frac by omega] at this
    have hE : (e + f.bias + f.frac) = ((k + t + 1 : Nat) : Int) := by omega
    have hu0 : magUnits f.frac (t * 2 ^ f.frac + m * 2 ^ k) = m * 2 ^ k * 2 ^ t := magUnits_normal _ _ _ (by omega) hq2
    have hu1 := magUnits_lt_succ f.frac (t * 2 ^ f.frac + m * 2 ^ k)
    have hE1 : m * 2 ^ (e + f.bias + f.frac).toNat = 2 * (m * 2 ^ k * 2 ^ t) := by
      rw [hE, Int.toNat_natCast, Nat.pow_succ, Nat.pow_add]; simp [Nat.mul_comm, Nat.mul_left_comm]
    have hE0 : (-(e + f.bias + f.frac)).toNat = 0 := by omega
    have hx : v.exactly (2 * magUnits f.frac (t * 2 ^ f.frac + m * 2 ^ k)) := by
      rw [(hknown _ ⟨m, by rw [Nat.mul_comm _ m, hE1, hu0]⟩).2, hE0, hE1, hu0]; simp [hmf]
    have hru : roundUnits (rmRnd rm) neg m e more u rb = m * 2 ^ k := by
      simp only [roundUnits, if_pos hd, inUnits]; rw [show (e - u).toNat = k by omega]
    refine isRounded_between f rm sat neg v hv (t * 2 ^ f.frac + m * 2 ^ k) (t * 2 ^ f.frac + m * 2 ^ k) _ (hv.exact hx)
      (hv.tight hx (by omega)) ?_ (by rw [hround, hru])
    cases aimOf rm neg with
    | inward => rfl
    | outward => exact .inl ⟨hx, rfl⟩
    | nearest => exact .inr ⟨rfl, fun h => absurd h (hv.tight hx (by omega))⟩
  · obtain ⟨d, hd0, hde⟩ : ∃ d : Nat, 0 < d ∧ u = e + d := ⟨(u - e).toNat, by omega, by omega⟩
    have h2d : 2 ^ d = 2 * 2 ^ (d - 1) := by
      have : 2 ^ d = 2 ^ (d - 1 + 1) := by congr 1; omega
      rw [this, Nat.pow_succ]; omega
    have hp := Nat.two_pow_pos (d - 1)
    have hE : (e + f.bias + f.frac) = (t : Int) - d + 1 := by omega
    have hE' : (-(e + f.bias + f.frac)) = (d : Int) - 1 - t := by omega
    have hdvd : ∀ j, 2 ^ (e + f.bias + f.frac).toNat ∣ j * 2 ^ t := fun j =>
      Nat.dvd_trans (Nat.pow_dvd_pow 2 (show (e + f.bias + f.frac).toNat ≤ t by omega)) (Nat.dvd_mul_left _ _)
    have hR : ∀ j, v.reaches (j * 2 ^ t) ↔ j * 2 ^ (d - 1) ≤ m := fun j => by
      rw [(hknown _ (hdvd j)).1, hE', hE, halves_le_iff _ _ _ _ hd0]
    have hX : ∀ j, v.exactly (j * 2 ^ t) ↔ j * 2 ^ (d - 1) = m ∧ more = false := fun j => by
      rw [(hknown _ (hdvd j)).2, hE', hE, halves_eq_iff _ _ _ _ hd0]
    generalize hq : m / 2 ^ d = q
    generalize hrest : m % 2 ^ d = rest
    have hmq : m = 2 * q * 2 ^ (d - 1) + rest := by
      have := Nat.div_add_mod m (2 ^ d)
      rw [hq, hrest, h2d] at this
      rw [Nat.mul_comm 2 q, Nat.mul_assoc, Nat.mul_comm q]; omega
    have hrl : rest < 2 * 2 ^ (d - 1) := by rw [← hrest, ← h2d]; exact Nat.mod_lt _ (Nat.two_pow_pos d)
    have hq1 : q < 2 ^ (f.frac + 1) := by
      rw [← hq, Nat.div_lt_iff_lt_mul (Nat.two_pow_pos d), ← Nat.pow_add]
      exact Nat.lt_of_lt_of_le hl2 (Nat.pow_le_pow_right (by omega) (by omega))
    have hq2 : t = 0 ∨ 2 ^ f.frac ≤ q := by
      rcases hcase with h | h
      · exact .inl h
      · right
        rw [← hq, Nat.le_div_iff_mul_le (Nat.two_pow_pos d), ← Nat.pow_add]
        exact Nat.le_trans (Nat.pow_le_pow_right (by omega) (by omega)) hl1
    have hu0 : magUnits f.frac (t * 2 ^ f.frac + q) = q * 2 ^ t := magUnits_normal _ _ _ (by omega) hq2
    have hu1 : magUnits f.frac (t * 2 ^ f.frac + q + 1) = (q + 1) * 2 ^ t := magUnits_normal _ _ (q + 1) (by omega) (by omega)
    have e0 : 2 * (q * 2 ^ t) = (2 * q) * 2 ^ t := by rw [Nat.mul_assoc]
    have e1 : q * 2 ^ t + (q + 1) * 2 ^ t = (2 * q + 1) * 2 ^ t := by rw [← Nat.add_mul]; congr 1; omega
    have e2 : 2 * ((q + 1) * 2 ^ t) = (2 * q + 2) * 2 ^ t := by rw [← Nat.mul_assoc]; congr 1
    have x0 : (2 * q) * 2 ^ (d - 1) ≤ m := by omega
    have x1 : (2 * q + 1) * 2 ^ (d - 1) ≤ m ↔ 2 ^ d ≤ 2 * rest := by rw [Nat.add_mul, h2d]; omega
    have x1e : (2 * q + 1) * 2 ^ (d - 1) = m ↔ 2 * rest = 2 ^ d := by rw [Nat.add_mul, h2d]; omega
    have x2 : ¬ (2 * q + 2) * 2 ^ (d - 1) ≤ m := by rw [Nat.add_mul]; omega
    have x0e : (2 * q) * 2 ^ (d - 1) = m ↔ rest = 0 := by omega
    generalize hup : roundUnits (rmRnd rm) neg m e more u rb = ru at hround
    refine isRounded_between f rm sat neg v hv (t * 2 ^ f.frac + q) (t * 2 ^ f.frac + ru) _ (by rw [hu0, e0, hR]; exact x0)
      (by rw [hu1, e2, hR]; exact x2) ?_ hround
    rw [hu0, hu1, e0, e1, hR, hX, hX, x0e, x1, x1e, hpar]
    simp only [roundUnits, if_neg hd, show (u - e).toNat = d by omega, hq, hrest] at hup
    clear hround hR hX hknown hdvd hu0 hu1 e0 e1 e2 x0 x1 x1e x2 x0e hmq hq2 hpar hu hv
    generalize t * 2 ^ f.frac = z at *
    cases rm <;> cases neg <;> cases more <;> simp [rmRnd, aimOf, Rnd.outward] at hup ⊢ <;> (try split at hup) <;> (try subst hup) <;>
      first
        | omega
        | exact .inl ⟨rfl, by omega⟩
        | exact .inl ⟨rfl, by omega, by omega⟩
        | exact .inr ⟨by omega, rfl⟩

theorem scaled_le_iff (a b i j : Nat) : a * 2 ^ ((j : Int) - i).toNat ≤ b * 2 ^ ((i : Int) - j).toNat ↔ a * 2 ^ j ≤ b * 2 ^ i := by
  by_cases h : i ≤ j
  · rw [show ((i : Int) - j).toNat = 0 by omega, show ((j : Int) - i).toNat = j - i by omega,
      show 2 ^ j = 2 ^ (j - i) * 2 ^ i by rw [← Nat.pow_add]; congr 1; omega, ← Nat.mul_assoc, mul_two_pow_le_iff, Nat.pow_zero, Nat.mul_one]
  · rw [show ((j : Int) - i).toNat = 0 by omega, show ((i : Int) - j).toNat = i - j by omega,
      show 2 ^ i = 2 ^ (i - j) * 2 ^ j by rw [← Nat.pow_add]; congr 1; omega, ← Nat.mul_assoc, mul_two_pow_le_iff, Nat.pow_zero, Nat.mul_one]

theorem scaled_eq_iff (a b i j : Nat) : a * 2 ^ ((j : Int) - i).toNat = b * 2 ^ ((i : Int) - j).toNat ↔ a * 2 ^ j = b * 2 ^ i := by
  by_cases h : i ≤ j
  · rw [show ((i : Int) - j).toNat = 0 by omega, show ((j : Int) - i).toNat = j - i by omega,
      show 2 ^ j = 2 ^ (j - i) * 2 ^ i by rw [← Nat.pow_add]; congr 1; omega, ← Nat.mul_assoc, mul_two_pow_inj, Nat.pow_zero, Nat.mul_one]
  · rw [show ((j : Int) - i).toNat = 0 by omega, show ((i : Int) - j).toNat = i - j by omega,
      show 2 ^ i = 2 ^ (i - j) * 2 ^ j by rw [← Nat.pow_add]; congr 1; omega, ← Nat.mul_assoc, mul_two_pow_inj, Nat.pow_zero, Nat.mul_one]

theorem Magnitude.ratio_sound (x d : Nat) (hd : 0 < d) : (Magnitude.ratio x d).Sound :=
  { down := fun hle hk => Nat.le_trans (Nat.mul_le_mul_right _ hle) hk
    exact := fun he => Nat.le_of_eq he
    tight := fun he hlt hk => by
      have := Nat.mul_lt_mul_of_pos_right hlt hd
      simp only [Magnitude.ratio] at he hk; omega }

theorem Magnitude.root_sound (x d : Nat) (hd : 0 < d) : (Magnitude.root x d).Sound :=
  { down := fun hle hk => Nat.le_trans (Nat.mul_le_mul_right _ (Nat.mul_le_mul hle hle)) hk
    exact := fun he => Nat.le_of_eq he
    tight := fun {h k} he hlt hk => by
      have h1 : h * h < k * k := Nat.mul_lt_mul_of_le_of_lt (Nat.le_of_lt hlt) hlt (by omega)
      have := Nat.mul_lt_mul_of_pos_right h1 hd
      simp only [Magnitude.root] at he hk; omega }

/-- A dyadic value in the units of the format. -/
theorem roundFloat_dyadic (f : FloatFmt) (hf : 0 < f.frac) (rm : Rm) (sat neg : Bool) (m : Nat) (e : Int) (hm : 0 < m) (k j : Nat)
    (he : e = 1 - f.bias - f.frac + k - j) (rb : Nat) :
    IsRounded f rm sat neg (.ratio (m * 2 ^ k) (2 ^ j)) (roundFloat (.num neg m e false) f (rmRnd rm) sat rb) := by
  have h1 : e + f.bias + f.frac = ((k + 1 : Nat) : Int) - j := by omega
  have h2 : -(((k + 1 : Nat) : Int) - j) = (j : Int) - (k + 1 : Nat) := by omega
  have h3 : m * 2 ^ (k + 1) = 2 * (m * 2 ^ k) := by rw [Nat.pow_succ]; simp [Nat.mul_comm, Nat.mul_left_comm]
  refine roundFloat_isRounded f hf rm sat neg m e false hm (by simp) _ (Magnitude.ratio_sound _ _ (Nat.two_pow_pos j)) (fun h _ => ⟨?_, ?_⟩) rb
  · rw [h1, h2, scaled_le_iff, h3]; rfl
  · rw [h1, h2, scaled_eq_iff, h3]; simp [Magnitude.ratio]

@[simp] theorem signedNat_natAbs (neg : Bool) (m : Nat) : (signedNat neg m).natAbs = m := by cases neg <;> simp [signedNat]

@[simp] theorem signedNat_eq_zero (neg : Bool) (m : Nat) : signedNat neg m = 0 ↔ m = 0 := by cases neg <;> simp [signedNat]

theorem signedNat_neg (neg : Bool) (m : Nat) (h : 0 < m) : decide (signedNat neg m < 0) = neg := by
  cases neg <;> simp [signedNat] <;> omega

/-- The same for an integer of units over a power of two. -/
theorem roundFloat_rounds (f : FloatFmt) (hf : 0 < f.frac) (rm : Rm) (sat : Bool) (neg zero : Bool) (m : Nat) (e : Int) (k j : Nat)
    (he : m ≠ 0 → e = 1 - f.bias - f.frac + k - j) (hz : m = 0 → neg = zero) (x : Int) (hx : x = signedNat neg (m * 2 ^ k)) (rb : Nat) :
    f.rounds rm sat x (2 ^ j) zero (roundFloat (.num neg m e false) f (rmRnd rm) sat rb) := by
  by_cases hm : m = 0
  · subst hm; simp [FloatFmt.rounds, hx, signedNat, roundFloat, hz rfl]
  · have hpos : 0 < m * 2 ^ k := Nat.mul_pos (by omega) (Nat.two_pow_pos k)
    have h0 : x ≠ 0 := by rw [hx, ne_eq, signedNat_eq_zero]; omega
    have h1 : decide (x < 0) = neg := by rw [hx, signedNat_neg _ _ hpos]
    have h2 : x.natAbs = m * 2 ^ k := by rw [hx, signedNat_natAbs]
    rw [FloatFmt.rounds, if_neg h0, h1, h2]
    exact roundFloat_dyadic f hf rm sat neg m e (by omega) k j (he hm) rb

-- codes

/-- A code's value: finite, infinite or NaN. -/
theorem value_cases (f : FloatFmt) (c : Nat) :
    (f.isFinite c = true ∧ f.isInfinite c = false ∧ f.isNanCode c = false ∧ f.value c = f.finite c) ∨
    (f.isFinite c = false ∧ f.isInfinite c = true ∧ f.isNanCode c = false ∧ f.value c = .inf (f.negative c)) ∨
    (f.isFinite c = false ∧ f.isInfinite c = false ∧ f.isNanCode c = true ∧ f.value c = .nan) := by
  simp only [FloatFmt.isFinite, FloatFmt.isInfinite, FloatFmt.isNanCode, FloatFmt.value, FloatFmt.mag, FloatFmt.negative]
  by_cases h1 : c % 2 ^ f.sign ≤ f.maxMag
  · simp [h1]
  · by_cases h2 : f.inf = some (c % 2 ^ f.sign) <;> simp [h1, h2]

/-- A finite code's value is m · 2^k units. -/
theorem finite_units (f : FloatFmt) (c : Nat) :
    ∃ m k : Nat, f.finite c = .num (f.negative c) m (1 - f.bias - f.frac + k) false ∧ magUnits f.frac (f.mag c) = m * 2 ^ k ∧
      codeUnits f c = signedNat (f.negative c) (m * 2 ^ k) ∧ (m = 0 ↔ f.mag c = 0) := by
  have hp : 0 < 2 ^ f.frac := Nat.two_pow_pos _
  have hu : codeUnits f c = signedNat (f.negative c) (magUnits f.frac (f.mag c)) := by
    by_cases h : c / 2 ^ f.sign % 2 = 1 <;> simp [codeUnits, signedNat, FloatFmt.negative, FloatFmt.mag, h]
  rw [hu]
  have hdm := Nat.div_add_mod (f.mag c) (2 ^ f.frac)
  by_cases h : f.mag c / 2 ^ f.frac = 0
  · have hs : f.mag c % 2 ^ f.frac = f.mag c := by
      rcases Nat.div_eq_zero_iff.1 h with h | h
      · omega
      · exact Nat.mod_eq_of_lt h
    refine ⟨f.mag c, 0, ?_, ?_, ?_, Iff.rfl⟩
    · simp only [FloatFmt.finite]; rw [if_pos (show c % 2 ^ f.sign / 2 ^ f.frac = 0 from h)]
      simp only [FloatFmt.mag] at hs
      simp [FloatFmt.negative, FloatFmt.mag, hs]
    · simp [magUnits, h]
    · simp [magUnits, h]
  · obtain ⟨t, ht⟩ : ∃ t, f.mag c / 2 ^ f.frac = t + 1 := Nat.exists_eq_succ_of_ne_zero h
    refine ⟨2 ^ f.frac + f.mag c % 2 ^ f.frac, t, ?_, ?_, ?_, ?_⟩
    · simp only [FloatFmt.finite]; rw [if_neg (show ¬ c % 2 ^ f.sign / 2 ^ f.frac = 0 from h)]
      simp only [FloatFmt.mag] at ht
      simp [FloatFmt.negative, FloatFmt.mag, ht]; omega
    · simp [magUnits, ht]
    · simp [magUnits, ht]
    · constructor
      · intro h0; omega
      · intro h0; rw [h0] at ht; simp at ht

theorem finite_bound (f : FloatFmt) (c m : Nat) (e : Int) (neg more : Bool) (h : f.finite c = .num neg m e more) : m < 2 ^ (f.frac + 1) := by
  have hp : 0 < 2 ^ f.frac := Nat.two_pow_pos _
  have hl := Nat.mod_lt (c % 2 ^ f.sign) hp
  simp only [FloatFmt.finite] at h
  split at h <;> injection h with _ h2 _ _ <;> rw [Nat.pow_succ] <;> omega

/-- A code is finite, with its significand and exponent step, infinite, or a NaN. -/
theorem code_cases (f : FloatFmt) (c : Nat) :
    (f.isFinite c = true ∧ f.isInfinite c = false ∧ f.isNanCode c = false ∧
      ∃ m k : Nat, f.value c = .num (f.negative c) m (1 - f.bias - f.frac + k) false ∧ magUnits f.frac (f.mag c) = m * 2 ^ k ∧
        codeUnits f c = signedNat (f.negative c) (m * 2 ^ k) ∧ (m = 0 ↔ f.mag c = 0)) ∨
    (f.isFinite c = false ∧ f.isInfinite c = true ∧ f.isNanCode c = false ∧ f.value c = .inf (f.negative c)) ∨
    (f.isFinite c = false ∧ f.isInfinite c = false ∧ f.isNanCode c = true ∧ f.value c = .nan) := by
  rcases value_cases f c with ⟨h1, h2, h3, h4⟩ | h | h
  · exact .inl ⟨h1, h2, h3, by rw [h4]; exact finite_units f c⟩
  · exact .inr (.inl h)
  · exact .inr (.inr h)

theorem codeUnits_zero (f : FloatFmt) (c : Nat) : codeUnits f c = 0 ↔ f.mag c = 0 := by
  obtain ⟨m, k, -, -, h1, h2⟩ := finite_units f c
  rw [h1, signedNat_eq_zero, ← h2, Nat.mul_eq_zero]
  exact or_iff_left (Nat.ne_of_gt (Nat.two_pow_pos k))

-- the float functions

@[simp] theorem rmRnd_down (rm : Rm) : (rmRnd rm == .down) = (rm == .down) := by cases rm <;> rfl

theorem signedNat_natAbs_of (v : Int) : signedNat (decide (v < 0)) v.natAbs = v := by
  unfold signedNat
  by_cases h : v < 0
  · rw [if_pos (decide_eq_true h)]; omega
  · rw [if_neg (by simpa using h)]; omega

theorem signedNat_mul (neg : Bool) (m k : Nat) : signedNat neg (m * k) = signedNat neg m * k := by
  cases neg <;> simp [signedNat, Int.neg_mul]

/-- The exact sum of two dyadic values, in units of their common scale. -/
theorem add_units (down : Bool) (x : Bool) (m k : Nat) (y : Bool) (n l : Nat) (c : Int) :
    ∃ s M e K, Exact.add down (.num x m (c + (k : Nat)) false) (.num y n (c + (l : Nat)) false) = .num s M e false ∧
      (M ≠ 0 → e = c + (K : Nat)) ∧ signedNat x (m * 2 ^ k) + signedNat y (n * 2 ^ l) = signedNat s (M * 2 ^ K) ∧
      (M = 0 → s = if m = 0 ∧ n = 0 ∧ x = y then x else down) := by
  by_cases h0 : m = 0 ∧ n = 0
  · obtain ⟨rfl, rfl⟩ := h0
    by_cases hxy : x = y
    · exact ⟨x, 0, 0, 0, by simp [Exact.add, hxy], by simp, by simp [signedNat], by simp [hxy]⟩
    · exact ⟨down, 0, 0, 0, by simp [Exact.add, hxy], by simp, by simp [signedNat], by simp [hxy]⟩
  · obtain ⟨K, hu, hk, hl⟩ : ∃ K : Nat, (if c + (k : Int) ≤ c + (l : Int) then c + (k : Int) else c + (l : Int)) = c + K ∧ K ≤ k ∧ K ≤ l := by
      by_cases h : k ≤ l
      · exact ⟨k, by rw [if_pos (by omega)], Nat.le_refl _, h⟩
      · exact ⟨l, by rw [if_neg (by omega)], by omega, Nat.le_refl _⟩
    have ek : ∀ (z : Bool) (w j : Nat), K ≤ j → signedNat z (inUnits w (c + j) (c + K)) * (2 ^ K : Nat) = signedNat z (w * 2 ^ j) := by
      intro z w j hj
      rw [← signedNat_mul, inUnits, show (c + (j : Int) - (c + K)).toNat = j - K by omega, Nat.mul_assoc, ← Nat.pow_add,
        show j - K + K = j by omega]
    have hs := ek x m k hk
    have ht := ek y n l hl
    simp only [Exact.add, h0, if_false, hu]
    generalize hS : signedNat x (inUnits m (c + ↑k) (c + ↑K)) + signedNat y (inUnits n (c + ↑l) (c + ↑K)) = S
    have hsum : signedNat x (m * 2 ^ k) + signedNat y (n * 2 ^ l) = S * (2 ^ K : Nat) := by rw [← hS, Int.add_mul, hs, ht]
    by_cases hz : S = 0
    · refine ⟨down, 0, 0, 0, by simp [hz], by simp, by rw [hsum, hz]; simp [signedNat], ?_⟩
      intro _; rw [if_neg (fun h => h0 ⟨h.1, h.2.1⟩)]
    · refine ⟨decide (S < 0), S.natAbs, c + K, K, by simp [hz, Exact.scaled], fun _ => rfl, ?_, fun h => absurd (Int.natAbs_eq_zero.1 h) hz⟩
      rw [hsum, signedNat_mul, signedNat_natAbs_of]

/-- FADD and PKADD (06 R159, R166). -/
theorem add_isSum (f : FloatFmt) (hf : 0 < f.frac) (rm : Rm) (a b : Nat) : f.isSum rm a b (f.add (rmRnd rm) a b) := by
  simp only [FloatFmt.add, FloatFmt.result, FloatFmt.isSum, rmRnd_down, FloatFmt.theNan]
  rcases code_cases f a with ⟨a1, a2, a3, m, k, a4, -, hau, haz⟩ | ⟨a1, a2, a3, a4⟩ | ⟨a1, a2, a3, a4⟩ <;>
    rcases code_cases f b with ⟨b1, b2, b3, n, l, b4, -, hbu, hbz⟩ | ⟨b1, b2, b3, b4⟩ | ⟨b1, b2, b3, b4⟩ <;>
    simp only [a2, a3, b2, b3, a4, b4, Bool.or_false, Bool.false_or, Bool.or_true, Bool.true_or, Bool.and_true, Bool.false_and, Bool.and_false,
      Bool.true_and, if_true, if_false, Bool.false_eq_true]
  case inl.inl =>
    obtain ⟨s, M, e, K, hadd, he, hsum, hz⟩ := add_units (rm == .down) (f.negative a) m k (f.negative b) n l (1 - f.bias - f.frac)
    rw [hadd, hau, hbu, hsum]
    have := roundFloat_rounds f hf rm false s (if f.mag a = 0 ∧ f.mag b = 0 ∧ f.negative a = f.negative b then f.negative a else rm == .down)
      M e K 0 (by simpa using he) (by intro h; rw [hz h]; simp only [haz, hbz]) _ rfl 0
    simpa using this
  case inr.inl.inr.inl => by_cases h : f.negative a = f.negative b <;> simp [Exact.add, roundFloat, h]
  all_goals simp [Exact.add, roundFloat]

theorem negated_parts (f : FloatFmt) (c : Nat) : f.mag (f.negated c) = f.mag c ∧ f.negative (f.negated c) = !f.negative c := by
  have hp : 0 < 2 ^ f.sign := Nat.two_pow_pos _
  have hl : f.mag c < 2 ^ f.sign := Nat.mod_lt _ hp
  have hm : f.mag c % 2 ^ f.sign = f.mag c := Nat.mod_eq_of_lt hl
  cases h : f.negative c
  · simp only [FloatFmt.negated, h, FloatFmt.withSign, Bool.not_false, if_true]
    constructor
    · show (2 ^ f.sign + f.mag c) % 2 ^ f.sign = _
      rw [Nat.add_mod_left, hm]
    · show decide ((2 ^ f.sign + f.mag c) / 2 ^ f.sign % 2 = 1) = _
      rw [Nat.add_div_left _ hp, Nat.div_eq_of_lt hl]; rfl
  · simp only [FloatFmt.negated, h, FloatFmt.withSign, Bool.not_true, Bool.false_eq_true, if_false]
    constructor
    · exact hm
    · show decide (f.mag c / 2 ^ f.sign % 2 = 1) = _
      rw [Nat.div_eq_of_lt hl]; rfl

theorem value_negated (f : FloatFmt) (c : Nat) : f.value (f.negated c) = (f.value c).neg := by
  obtain ⟨h1, h2⟩ := negated_parts f c
  simp only [FloatFmt.mag, FloatFmt.negative] at h1 h2
  simp only [FloatFmt.value, FloatFmt.finite, h1]
  have h2' : decide (f.negated c / 2 ^ f.sign % 2 = 1) = !decide (c / 2 ^ f.sign % 2 = 1) := h2
  rw [h2']
  repeat' split
  all_goals simp [Exact.neg]

/-- FSUB (06 R159). -/
theorem sub_isSum (f : FloatFmt) (hf : 0 < f.frac) (rm : Rm) (a b : Nat) : f.isSum rm a (f.negated b) (f.sub (rmRnd rm) a b) := by
  have := add_isSum f hf rm a (f.negated b)
  rwa [FloatFmt.add, value_negated] at this

theorem signedNat_mul_signed (x y : Bool) (a b : Nat) : signedNat x a * signedNat y b = signedNat (x != y) (a * b) := by
  cases x <;> cases y <;> simp [signedNat, Int.neg_mul, Int.mul_neg]

theorem mag_ne_zero (f : FloatFmt) (c : Nat) (h : f.isFinite c = false) : f.mag c ≠ 0 := by
  intro h0; simp [FloatFmt.isFinite, h0] at h

/-- FMUL and PKMUL (06 R159, R166). -/
theorem mul_isProduct (f : FloatFmt) (hf : 0 < f.frac) (rm : Rm) (a b : Nat) : f.isProduct rm a b (f.mul (rmRnd rm) a b) := by
  simp only [FloatFmt.mul, FloatFmt.result, FloatFmt.isProduct, FloatFmt.theNan]
  rcases code_cases f a with ⟨a1, a2, a3, m, k, a4, -, hau, haz⟩ | ⟨a1, a2, a3, a4⟩ | ⟨a1, a2, a3, a4⟩ <;>
    rcases code_cases f b with ⟨b1, b2, b3, n, l, b4, -, hbu, hbz⟩ | ⟨b1, b2, b3, b4⟩ | ⟨b1, b2, b3, b4⟩ <;>
    simp only [a2, a3, b2, b3, a4, b4, Bool.or_false, Bool.false_or, Bool.or_true, Bool.true_or, Bool.and_true, Bool.false_and, Bool.and_false,
      Bool.true_and, if_true, if_false, Bool.false_eq_true]
  case inl.inl =>
    have hprod : codeUnits f a * codeUnits f b = signedNat (f.negative a != f.negative b) (m * n * 2 ^ (k + l)) := by
      rw [hau, hbu, signedNat_mul_signed, Nat.pow_add]; congr 1; simp [Nat.mul_assoc, Nat.mul_left_comm]
    exact roundFloat_rounds f hf rm false _ _ (m * n) _ (k + l) (f.bias + f.frac - 1) (by intro _; omega) (fun _ => rfl) _ hprod 0
  case inl.inr.inl =>
    by_cases h : m = 0
    · simp [Exact.mul, h, haz.1 h, roundFloat]
    · simp [Exact.mul, h, mt haz.2 h, roundFloat]
  case inr.inl.inl =>
    by_cases h : n = 0
    · simp [Exact.mul, h, hbz.1 h, roundFloat]
    · simp [Exact.mul, h, mt hbz.2 h, roundFloat]
  case inr.inl.inr.inl => simp [Exact.mul, roundFloat, mag_ne_zero f a a1, mag_ne_zero f b b1]
  all_goals simp [Exact.mul, roundFloat]

/-- FFMA and PKFMA (06 R159, R166). -/
theorem fma_isFused (f : FloatFmt) (hf : 0 < f.frac) (rm : Rm) (a b c : Nat) : f.isFused rm a b c (f.fma (rmRnd rm) a b c) := by
  simp only [FloatFmt.fma, FloatFmt.result, FloatFmt.isFused, FloatFmt.theNan, rmRnd_down]
  rcases code_cases f a with ⟨a1, a2, a3, m, k, a4, -, hau, haz⟩ | ⟨a1, a2, a3, a4⟩ | ⟨a1, a2, a3, a4⟩ <;>
    rcases code_cases f b with ⟨b1, b2, b3, n, l, b4, -, hbu, hbz⟩ | ⟨b1, b2, b3, b4⟩ | ⟨b1, b2, b3, b4⟩ <;>
    rcases code_cases f c with ⟨c1, c2, c3, w, j, c4, -, hcu, hcz⟩ | ⟨c1, c2, c3, c4⟩ | ⟨c1, c2, c3, c4⟩ <;>
    simp only [a2, a3, b2, b3, c2, c3, a4, b4, c4, Bool.or_false, Bool.false_or, Bool.or_true, Bool.true_or, Bool.and_true, Bool.false_and,
      Bool.and_false, Bool.true_and, if_true, if_false, Bool.false_eq_true, Exact.mul]
  case inl.inl.inl =>
    have hB : (((f.bias + f.frac - 1 : Nat) : Int)) = -(1 - f.bias - f.frac : Int) := by omega
    obtain ⟨s, M, e, K, hadd, he, hsum, hz⟩ := add_units (rm == .down) (f.negative a != f.negative b) (m * n) (k + l) (f.negative c) w
      (j + (f.bias + f.frac - 1)) ((1 - f.bias - f.frac : Int) + (1 - f.bias - f.frac))
    rw [show (1 - f.bias - f.frac : Int) + k + (1 - f.bias - f.frac + l) = (1 - f.bias - f.frac : Int) + (1 - f.bias - f.frac) + (k + l : Nat) by omega,
      show (1 - f.bias - f.frac : Int) + j = (1 - f.bias - f.frac : Int) + (1 - f.bias - f.frac) + (j + (f.bias + f.frac - 1) : Nat) by omega, hadd]
    refine roundFloat_rounds f hf rm false s _ M e K (f.bias + f.frac - 1) (by intro h; have := he h; omega) ?_ _ ?_ 0
    · intro h; rw [hz h]; simp only [Nat.mul_eq_zero, haz, hbz, hcz]
    · rw [← hsum, hau, hbu, hcu, signedNat_mul_signed, FloatFmt.one]
      congr 1
      · congr 1; rw [Nat.pow_add]; simp [Nat.mul_assoc, Nat.mul_left_comm]
      · rw [← signedNat_mul, Nat.pow_add, Nat.mul_assoc]
  case inl.inr.inl.inl | inl.inr.inl.inr.inl =>
    by_cases h : m = 0
    · simp [h, haz.1 h, Exact.add, roundFloat]
    · cases ha : f.negative a <;> cases hb : f.negative b <;> cases hc : f.negative c <;> simp_all [Exact.add, roundFloat]
  case inr.inl.inl.inl | inr.inl.inl.inr.inl =>
    by_cases h : n = 0
    · simp [h, hbz.1 h, Exact.add, roundFloat]
    · cases ha : f.negative a <;> cases hb : f.negative b <;> cases hc : f.negative c <;> simp_all [Exact.add, roundFloat]
  case inr.inl.inr.inl.inl | inr.inl.inr.inl.inr.inl =>
    have h1 := mag_ne_zero f a a1
    have h2 := mag_ne_zero f b b1
    cases ha : f.negative a <;> cases hb : f.negative b <;> cases hc : f.negative c <;> simp_all [Exact.add, roundFloat]
  all_goals first | (split <;> simp [Exact.add, roundFloat]; done) | simp [Exact.add, roundFloat]

-- whole numbers

theorem wholeOf_scale (a : Aim) (m one n k : Nat) (h : wholeOf a m one n) : wholeOf a (m * 2 ^ k) (one * 2 ^ k) n := by
  have hp := Nat.two_pow_pos k
  have e1 : ∀ x : Nat, x * (one * 2 ^ k) = x * one * 2 ^ k := fun x => (Nat.mul_assoc _ _ _).symm
  cases a with
  | inward =>
    simp only [wholeOf, e1] at h ⊢
    exact ⟨Nat.mul_le_mul_right _ h.1, Nat.mul_lt_mul_of_pos_right h.2 hp⟩
  | outward =>
    simp only [wholeOf, e1, ← Nat.add_mul] at h ⊢
    exact ⟨Nat.mul_le_mul_right _ h.1, Nat.mul_lt_mul_of_pos_right h.2 hp⟩
  | nearest =>
    simp only [wholeOf, e1, ← Nat.mul_assoc 2, ← Nat.add_mul] at h ⊢
    refine ⟨Nat.mul_le_mul_right _ h.1, Nat.mul_le_mul_right _ h.2.1, fun ht => h.2.2 ?_⟩
    rcases ht with ht | ht
    · exact .inl (Nat.eq_of_mul_eq_mul_right hp ht)
    · exact .inr (Nat.eq_of_mul_eq_mul_right hp ht)

/-- roundUnits at the integer grid (03 R88, step 3). -/
theorem roundUnits_whole (rm : Rm) (neg : Bool) (m : Nat) (e : Int) (k b : Nat) (he : e = (k : Int) - b) (rb : Nat) :
    wholeOf (aimOf rm neg) (m * 2 ^ k) (2 ^ b) (roundUnits (rmRnd rm) neg m e false 0 rb) := by
  by_cases h : b ≤ k
  · have h1 : roundUnits (rmRnd rm) neg m e false 0 rb = m * 2 ^ (k - b) := by
      simp only [roundUnits, if_pos (show (0 : Int) ≤ e by omega), inUnits]; rw [show (e - 0).toNat = k - b by omega]
    have h2 : m * 2 ^ k = m * 2 ^ (k - b) * 2 ^ b := by rw [Nat.mul_assoc, ← Nat.pow_add, show k - b + b = k by omega]
    rw [h1, h2]
    have hp := Nat.two_pow_pos b
    generalize m * 2 ^ (k - b) = n
    have e1 : (n + 1) * 2 ^ b = n * 2 ^ b + 2 ^ b := by rw [Nat.add_mul, Nat.one_mul]
    cases aimOf rm neg <;> simp only [wholeOf, e1] <;> omega
  · have h2 : 2 ^ b = 2 ^ (b - k) * 2 ^ k := by rw [← Nat.pow_add, show b - k + k = b by omega]
    rw [h2]
    refine wholeOf_scale _ _ _ _ _ ?_
    have hp := Nat.two_pow_pos (b - k)
    generalize hu : roundUnits (rmRnd rm) neg m e false 0 rb = n
    simp only [roundUnits, if_neg (show ¬ (0 : Int) ≤ e by omega), show (0 - e).toNat = b - k by omega] at hu
    generalize 2 ^ (b - k) = p at *
    have hdm := Nat.div_add_mod m p
    have hl := Nat.mod_lt m hp
    generalize m / p = q at *
    generalize m % p = r at *
    have e1 : (q + 1) * p = q * p + p := by rw [Nat.add_mul, Nat.one_mul]
    rw [Nat.mul_comm p q] at hdm
    cases rm <;> cases neg <;> simp [rmRnd, aimOf, Rnd.outward] at hu ⊢ <;>
      (try (split at hu <;> rename_i hc <;> revert hc)) <;> subst hu <;> simp only [wholeOf, e1] <;> generalize q * p = z at * <;>
      clear e1 h2 he h <;> (try intro hc) <;>
      first | omega | (refine ⟨by omega, by omega, fun ht => ?_⟩; rcases hc with hc | hc <;> rcases ht with ht | ht <;>
        first | omega | rw [Nat.add_mod, hc.2])

/-- A magnitude that is a finite code's is rounded to that code. -/
theorem isRounded_exact (f : FloatFmt) (rm : Rm) (sat neg : Bool) (v : Magnitude) (hv : v.Sound) (c r : Nat) (hc : c ≤ f.maxMag)
    (he : v.exactly (2 * magUnits f.frac c)) (hr : IsRounded f rm sat neg v r) : r = f.withSign neg c := by
  have hre := hv.exact he
  have hlt := fun k => hv.tight (k := k) he
  have hcm := magUnits_mono f.frac hc
  have hsm := magUnits_lt_succ f.frac f.maxMag
  have hno : ¬ Overflows f (aimOf rm neg) v := by
    cases aimOf rm neg with
    | inward => exact fun h => h
    | outward =>
      rintro ⟨h1, h2⟩
      by_cases h : 2 * magUnits f.frac c < 2 * magUnits f.frac f.maxMag
      · exact hlt _ h h1
      · exact h2 (by rw [show 2 * magUnits f.frac f.maxMag = 2 * magUnits f.frac c by omega]; exact he)
    | nearest => exact fun h => hlt _ (by omega) h.1
  obtain ⟨mag, h1, rfl, h2⟩ := hr.2 hno
  have key : magUnits f.frac mag = magUnits f.frac c := by
    cases ha : aimOf rm neg with
    | inward =>
      rw [ha] at h2
      have := h2.2 c hc hre
      by_cases h : 2 * magUnits f.frac c < 2 * magUnits f.frac mag
      · exact absurd h2.1 (hlt _ h)
      · omega
    | outward =>
      rw [ha] at h2
      have := h2.2 c hc (fun _ => he)
      by_cases h : magUnits f.frac mag < magUnits f.frac c
      · exact absurd hre (hv.tight (h2.1 (hv.down (by omega) hre)) (by omega))
      · omega
    | nearest =>
      rw [ha] at h2
      have h3 := h2 c hc
      by_cases h : magUnits f.frac c < magUnits f.frac mag
      · exact absurd (h3.1 h).1 (hlt _ (by omega))
      · by_cases h' : magUnits f.frac mag < magUnits f.frac c
        · have := h3.2 h' (hv.down (by omega) hre)
          exact absurd hre (hv.tight this.1 (by omega))
        · omega
  have : mag = c := by
    have a := (magUnits_le_iff f.frac (a := mag) (b := c)).1 (by omega)
    have b := (magUnits_le_iff f.frac (a := c) (b := mag)).1 (by omega)
    omega
  rw [this]

theorem withSign_mag (f : FloatFmt) (neg : Bool) (c : Nat) (hc : c < 2 ^ f.sign) :
    f.mag (f.withSign neg c) = c ∧ f.negative (f.withSign neg c) = neg := by
  have hp : 0 < 2 ^ f.sign := Nat.two_pow_pos _
  cases neg
  · simp [FloatFmt.withSign, FloatFmt.mag, FloatFmt.negative, Nat.mod_eq_of_lt hc, Nat.div_eq_of_lt hc]
  · simp [FloatFmt.withSign, FloatFmt.mag, FloatFmt.negative, Nat.mod_eq_of_lt hc, Nat.add_div_left _ hp, Nat.div_eq_of_lt hc]

/-- An integer below 2^24 is an FP32 magnitude. -/
theorem integer_code (n : Nat) (h : n < 2 ^ 24) : ∃ c, c ≤ fp32.maxMag ∧ magUnits fp32.frac c = n * fp32.one := by
  by_cases h0 : n = 0
  · exact ⟨0, Nat.zero_le _, by simp [h0, magUnits]⟩
  · have hl1 : 2 ^ Nat.log2 n ≤ n := Nat.log2_self_le h0
    have hl2 : n < 2 ^ (Nat.log2 n + 1) := Nat.lt_log2_self
    have hl : Nat.log2 n ≤ 23 := by
      have := (Nat.pow_lt_pow_iff_right (a := 2) (by omega)).1 (Nat.lt_of_le_of_lt hl1 h); omega
    generalize Nat.log2 n = l at *
    have hq1 : n * 2 ^ (23 - l) < 2 ^ 24 := by
      have := Nat.mul_lt_mul_of_pos_right hl2 (Nat.two_pow_pos (23 - l))
      rwa [← Nat.pow_add, show l + 1 + (23 - l) = 24 by omega] at this
    have hq2 : 2 ^ 23 ≤ n * 2 ^ (23 - l) := by
      have := Nat.mul_le_mul_right (2 ^ (23 - l)) hl1
      rwa [← Nat.pow_add, show l + (23 - l) = 23 by omega] at this
    refine ⟨(126 + l) * 2 ^ 23 + n * 2 ^ (23 - l), ?_, ?_⟩
    · have h1 : (126 + l) * 2 ^ 23 ≤ 149 * 2 ^ 23 := Nat.mul_le_mul_right _ (by omega)
      have h2 : 149 * 2 ^ 23 + 2 ^ 24 ≤ fp32.maxMag := by decide
      exact Nat.le_trans (Nat.add_le_add h1 (Nat.le_of_lt hq1)) h2
    · rw [show fp32.frac = 23 from rfl, magUnits_normal 23 (126 + l) (n * 2 ^ (23 - l)) (by omega) (.inr hq2), Nat.mul_assoc, ← Nat.pow_add,
        show 23 - l + (126 + l) = 149 by omega]
      rfl

/-- FRND (06 R162). -/
theorem frnd_isIntegral (rm : Rm) (a : Nat) : isIntegral rm a (frndCode (rmRnd rm) a) := by
  simp only [frndCode, isIntegral]
  rcases code_cases fp32 a with ⟨a1, a2, a3, m, k, a4, hmu, -, haz⟩ | ⟨a1, a2, a3, a4⟩ | ⟨a1, a2, a3, a4⟩ <;>
    simp only [a2, a3, a4, Bool.false_eq_true, if_true, if_false]
  case inr.inr => rfl
  rw [hmu, show (1 - fp32.bias - fp32.frac + k : Int) = (k : Int) - (149 : Nat) by simp [fp32]; omega, show fp32.one = 2 ^ 149 from rfl]
  have hw := roundUnits_whole rm (fp32.negative a) m ((k : Int) - (149 : Nat)) k 149 rfl 0
  generalize hn : roundUnits (rmRnd rm) (fp32.negative a) m ((k : Int) - (149 : Nat)) false 0 0 = n at hw
  by_cases he : 0 ≤ (k : Int) - (149 : Nat)
  · rw [if_pos he]
    refine ⟨a1, rfl, n, ?_, hw⟩
    rw [hmu, ← hn, roundUnits, if_pos he, inUnits, Nat.mul_assoc, ← Nat.pow_add,
      show ((k : Int) - (149 : Nat) - 0).toNat + 149 = k by omega]
  · rw [if_neg he]
    have hn24 : n < 2 ^ 24 := by
      have hv : fp32.value a = fp32.finite a := by
        rcases value_cases fp32 a with h | h | h
        · exact h.2.2.2
        · rw [h.1] at a1; cases a1
        · rw [h.1] at a1; cases a1
      have hm24 : m < 2 ^ 24 := finite_bound fp32 a m _ _ _ (hv.symm.trans a4)
      have h2k : 2 ^ k ≤ 2 ^ 148 := Nat.pow_le_pow_right (by omega) (by omega)
      have hmk : m * 2 ^ k ≤ 2 ^ 24 * 2 ^ 148 := Nat.mul_le_mul (by omega) h2k
      generalize m * 2 ^ k = x at hw hmk
      cases ha : aimOf rm (fp32.negative a) <;> rw [ha] at hw <;> simp only [wholeOf] at hw <;> omega
    obtain ⟨c, hc, hcu⟩ := integer_code n hn24
    have hr : roundFloat (.num (fp32.negative a) n 0 false) fp32 (rmRnd rm) false 0 = fp32.withSign (fp32.negative a) c := by
      by_cases h0 : n = 0
      · subst h0
        have : c = 0 := by
          by_cases hc0 : c = 0
          · exact hc0
          · have := (magUnits_lt_iff fp32.frac (a := 0) (b := c)).2 (by omega)
            rw [hcu] at this; simp at this
        simp [roundFloat, this]
      · refine isRounded_exact fp32 rm false _ _ (Magnitude.ratio_sound _ _ (Nat.two_pow_pos 0)) c _ hc ?_
          (roundFloat_dyadic fp32 (by decide) rm false (fp32.negative a) n 0 (by omega) 149 0 (by simp [fp32]) 0)
        rw [hcu]; simp [Magnitude.ratio, FloatFmt.one, fp32]
    rw [hr]
    have hs := withSign_mag fp32 (fp32.negative a) c (Nat.lt_of_le_of_lt hc (by decide))
    refine ⟨?_, hs.2, n, by rw [hs.1, hcu]; rfl, hw⟩
    simp [FloatFmt.isFinite, hs.1, hc]

/-- FSCALE (06 R164). -/
theorem fscale_isScaled (rm : Rm) (a : Nat) (n : Int) : isScaled rm a n (fscaleCode (rmRnd rm) a n) := by
  simp only [fscaleCode, isScaled]
  rcases code_cases fp32 a with ⟨a1, a2, a3, m, k, a4, hmu, -, haz⟩ | ⟨a1, a2, a3, a4⟩ | ⟨a1, a2, a3, a4⟩ <;>
    simp only [a2, a3, a4, Bool.false_eq_true, if_true, if_false]
  case inr.inr => rfl
  by_cases h0 : m = 0
  · simp [Exact.isZero, h0, haz.1 h0]
  · rw [if_neg (mt haz.2 h0), if_neg (by simp [Exact.isZero, h0]), hmu]
    generalize clampInt n (-1000) 1000 = j
    have := roundFloat_dyadic fp32 (by decide) rm false (fp32.negative a) m (1 - fp32.bias - fp32.frac + k + j) (by omega) (k + j.toNat)
      (-j).toNat (by omega) 0
    rwa [Nat.pow_add, ← Nat.mul_assoc] at this

-- roots and reciprocals

theorem isqrtFrom_spec (n : Nat) : ∀ k acc, acc * acc ≤ n → n < (acc + 2 ^ k) * (acc + 2 ^ k) →
    isqrtFrom n k acc * isqrtFrom n k acc ≤ n ∧ n < (isqrtFrom n k acc + 1) * (isqrtFrom n k acc + 1)
  | 0, _, h1, h2 => ⟨h1, by simpa [isqrtFrom] using h2⟩
  | k + 1, acc, h1, h2 => by
    simp only [isqrtFrom]
    have e : acc + 2 ^ k + 2 ^ k = acc + 2 ^ (k + 1) := by rw [Nat.pow_succ]; omega
    split
    · exact isqrtFrom_spec n k _ ‹_› (by rwa [e])
    · exact isqrtFrom_spec n k _ h1 (by omega)

/-- The integer square root is the greatest number whose square is not above n. -/
theorem le_isqrt_iff (n j : Nat) : j ≤ isqrt n ↔ j * j ≤ n := by
  have h : isqrt n * isqrt n ≤ n ∧ n < (isqrt n + 1) * (isqrt n + 1) := by
    refine isqrtFrom_spec n _ 0 (by omega) ?_
    rw [Nat.zero_add, ← Nat.pow_add]
    exact Nat.lt_of_lt_of_le Nat.lt_log2_self (Nat.pow_le_pow_right (by omega) (by omega))
  constructor
  · intro hj; exact Nat.le_trans (Nat.mul_le_mul hj hj) h.1
  · intro hj
    by_cases hl : j ≤ isqrt n
    · exact hl
    · have := Nat.mul_le_mul (show isqrt n + 1 ≤ j by omega) (show isqrt n + 1 ≤ j by omega); omega

/-- A known magnitude by its scaled half units: `reaches` and `exactly` of a multiple of 2^s half units, said of J half units of the finer
scale. -/
theorem known_of_scaled (s : Int) (M : Nat) (more : Bool) (P Q : Nat → Prop) (R X : Nat → Prop)
    (hR : ∀ J, R J ↔ J ≤ M) (hX : ∀ J, X J ↔ J = M ∧ more = false)
    (hpos : ∀ j (t : Nat), s = t → (P (j * 2 ^ t) ↔ R j) ∧ (Q (j * 2 ^ t) ↔ X j))
    (hneg : ∀ h (t : Nat), s = -(t : Int) → (P h ↔ R (h * 2 ^ t)) ∧ (Q h ↔ X (h * 2 ^ t))) (h : Nat) (hd : 2 ^ s.toNat ∣ h) :
    (P h ↔ h * 2 ^ (-s).toNat ≤ M * 2 ^ s.toNat) ∧ (Q h ↔ h * 2 ^ (-s).toNat = M * 2 ^ s.toNat ∧ more = false) := by
  by_cases h0 : 0 ≤ s
  · obtain ⟨t, rfl⟩ : ∃ t : Nat, s = t := ⟨s.toNat, by omega⟩
    simp only [Int.toNat_natCast] at hd ⊢
    obtain ⟨j, rfl⟩ := hd
    rw [Nat.mul_comm, (hpos j t rfl).1, (hpos j t rfl).2, hR, hX, show (-(t : Int)).toNat = 0 by omega, Nat.pow_zero, Nat.mul_one,
      mul_two_pow_le_iff, mul_two_pow_inj]
    exact ⟨Iff.rfl, Iff.rfl⟩
  · obtain ⟨t, rfl⟩ : ∃ t : Nat, s = -(t : Int) := ⟨(-s).toNat, by omega⟩
    rw [(hneg h t rfl).1, (hneg h t rfl).2, hR, hX, show (-(t : Int)).toNat = 0 by omega, show (-(-(t : Int))).toNat = t by omega, Nat.pow_zero,
      Nat.mul_one]
    exact ⟨Iff.rfl, Iff.rfl⟩

theorem div_exact_iff (a m j : Nat) (hm : 0 < m) : j * m = a ↔ j = a / m ∧ a % m = 0 := by
  constructor
  · rintro rfl; exact ⟨(Nat.mul_div_cancel _ hm).symm, Nat.mul_mod_left _ _⟩
  · rintro ⟨rfl, h⟩; have := Nat.div_add_mod a m; rw [Nat.mul_comm]; omega

theorem fp32_value (x : Nat) (neg more : Bool) (m : Nat) (e : Int) (h : fp32.value x = .num neg m e more) :
    ∃ k : Nat, e = (k : Int) - 149 ∧ neg = fp32.negative x ∧ more = false ∧ magUnits 23 (fp32.mag x) = m * 2 ^ k ∧ (m = 0 ↔ fp32.mag x = 0) := by
  rcases code_cases fp32 x with ⟨-, -, -, m', k, a4, hmu, -, haz⟩ | ⟨-, -, -, a4⟩ | ⟨-, -, -, a4⟩
  · rw [a4] at h
    injection h with h1 h2 h3 h4
    subst h1 h2 h4
    exact ⟨k, by rw [← h3]; simp [fp32]; omega, rfl, rfl, hmu, haz⟩
  · rw [a4] at h; cases h
  · rw [a4] at h; cases h

theorem pow_split (a b : Nat) (h : a ≤ b) : 2 ^ b = 2 ^ (b - a) * 2 ^ a := by rw [← Nat.pow_add]; congr 1; omega

/-- FRCP (03 R102). -/
theorem frcp_isReciprocal (rm : Rm) (x : Nat) : isReciprocal rm x (frcpRef x (rmRnd rm)) := by
  simp only [frcpRef, isReciprocal]
  rcases code_cases fp32 x with ⟨a1, a2, a3, m, k, a4, hmu, -, haz⟩ | ⟨a1, a2, a3, a4⟩ | ⟨a1, a2, a3, a4⟩ <;>
    simp only [a2, a3, a4, Bool.false_eq_true, if_true, if_false]
  · by_cases h0 : m = 0
    · rw [if_pos h0, if_pos (haz.1 h0)]; cases fp32.negative x <;> rfl
    · rw [if_neg h0, if_neg (mt haz.2 h0), hmu]
      have hm : 0 < m := by omega
      have hl2 : m < 2 ^ (Nat.log2 m + 1) := Nat.lt_log2_self
      have hbig : 2 ^ 119 ≤ 2 ^ (Nat.log2 m + 120) / m := by
        rw [Nat.le_div_iff_mul_le hm, pow_split (Nat.log2 m + 1) (Nat.log2 m + 120) (by omega)]
        exact Nat.mul_le_mul (Nat.pow_le_pow_right (by omega) (by omega)) (Nat.le_of_lt hl2)
      have hbpos : 0 < 2 ^ (Nat.log2 m + 120) / m := Nat.lt_of_lt_of_le (Nat.two_pow_pos 119) hbig
      simp only [recipExact]
      generalize hK : Nat.log2 m + 120 = K at *
      refine roundFloat_isRounded fp32 (by decide) rm false _ _ _ _ hbpos (fun _ => ?_) _
        (Magnitude.ratio_sound _ _ (Nat.mul_pos hm (Nat.two_pow_pos k))) (fun h hd => ?_) 0
      · exact (Nat.le_log2 (by omega)).2 (Nat.le_trans (Nat.pow_le_pow_right (by omega) (by decide)) hbig)
      · have hs : (-(K : Int) - (1 - fp32.bias - fp32.frac + k) + fp32.bias + fp32.frac) = 299 - K - k := by simp [fp32]; omega
        rw [hs] at hd ⊢
        have h1 : 2 * (fp32.one * fp32.one) = 2 ^ 299 := by
          rw [show fp32.one = 2 ^ 149 from rfl, ← Nat.pow_add, Nat.mul_comm, ← Nat.pow_succ]
        refine known_of_scaled _ _ _ _ _ (fun J => J * m ≤ 2 ^ K) (fun J => J * m = 2 ^ K) (fun J => (Nat.le_div_iff_mul_le hm).symm) ?_ ?_ ?_ h hd
        · intro J; rw [div_exact_iff _ _ _ hm]; simp
        · intro j t ht
          have e1 : j * 2 ^ t * (m * 2 ^ k) = j * m * 2 ^ (t + k) := by rw [Nat.pow_add]; simp only [Nat.mul_assoc, Nat.mul_comm, Nat.mul_left_comm]
          have e2 : (2 : Nat) ^ 299 = 2 ^ K * 2 ^ (t + k) := by rw [← Nat.pow_add]; congr 1; omega
          simp only [Magnitude.ratio, h1, e1, e2, mul_two_pow_le_iff, mul_two_pow_inj, and_self]
        · intro h t ht
          have e1 : h * 2 ^ t * m * 2 ^ k = h * (m * 2 ^ k) * 2 ^ t := by simp only [Nat.mul_assoc, Nat.mul_comm, Nat.mul_left_comm]
          have e2 : 2 ^ K * 2 ^ k = (2 : Nat) ^ 299 * 2 ^ t := by rw [← Nat.pow_add, ← Nat.pow_add]; congr 1; omega
          simp only [Magnitude.ratio, h1]
          rw [← mul_two_pow_le_iff (h * 2 ^ t * m) _ k, ← mul_two_pow_inj (h * 2 ^ t * m) _ k, e1, e2, mul_two_pow_le_iff, mul_two_pow_inj]
          exact ⟨Iff.rfl, Iff.rfl⟩
  · cases fp32.negative x <;> rfl
  · rfl

/-- The half of an exponent and its odd bit. -/
theorem half_exponent (k : Nat) : ∃ w odd : Nat, (((k : Int) - 149) % 2).toNat = odd ∧ (((k : Int) - 149) - (odd : Nat)) / 2 = (w : Int) - 75 ∧
    k + 1 = 2 * w + odd := by
  exact ⟨(((k : Int) - 149 - ((((k : Int) - 149) % 2).toNat : Nat)) / 2 + 75).toNat, (((k : Int) - 149) % 2).toNat, rfl, by omega, by omega⟩

theorem square_le_iff (a b : Nat) : a * a ≤ b * b ↔ a ≤ b := by
  constructor
  · intro h
    by_cases hl : a ≤ b
    · exact hl
    · have := Nat.mul_lt_mul_of_le_of_lt (show b ≤ a by omega) (show b < a by omega) (by omega); omega
  · exact fun h => Nat.mul_le_mul h h

theorem square_eq_of_isqrt (n j : Nat) : j * j = n ↔ j = isqrt n ∧ isqrt n * isqrt n = n := by
  constructor
  · rintro rfl
    have h1 := (le_isqrt_iff (j * j) j).2 (Nat.le_refl _)
    have h2 := (square_le_iff _ _).1 ((le_isqrt_iff (j * j) (isqrt (j * j))).1 (Nat.le_refl _))
    have h3 : j = isqrt (j * j) := by omega
    exact ⟨h3, by rw [← h3]⟩
  · rintro ⟨rfl, h⟩; exact h

/-- FSQRT (03 R102). -/
theorem fsqrt_isRoot (rm : Rm) (x : Nat) : isRoot rm x (fsqrtRef x (rmRnd rm)) := by
  simp only [fsqrtRef, isRoot]
  rcases code_cases fp32 x with ⟨a1, a2, a3, m, k, a4, hmu, -, haz⟩ | ⟨a1, a2, a3, a4⟩ | ⟨a1, a2, a3, a4⟩ <;>
    simp only [a2, a3, a4, Bool.false_eq_true, if_true, if_false, Bool.false_or, Bool.true_or]
  · by_cases h0 : m = 0
    · simp [h0, haz.1 h0]; cases fp32.negative x <;> rfl
    · have hz := mt haz.2 h0
      cases hn : fp32.negative x
      · simp only [h0, hz, Bool.false_and, Bool.false_eq_true, if_false, hmu]
        have hm : 0 < m := by omega
        obtain ⟨w, odd, ho, hw, hk⟩ := half_exponent k
        have he : (1 - fp32.bias - fp32.frac + k : Int) = (k : Int) - 149 := by simp [fp32]; omega
        rw [he]
        simp only [sqrtExact, ho, hw]
        have hn1 : 2 ^ 64 * 2 ^ 64 ≤ m * 2 ^ odd * 2 ^ 128 := by
          have := Nat.mul_pos hm (Nat.two_pow_pos odd)
          rw [← Nat.pow_add]; exact Nat.le_mul_of_pos_left _ this
        have hbig : 2 ^ 64 ≤ isqrt (m * 2 ^ odd * 2 ^ 128) := (le_isqrt_iff _ _).2 hn1
        refine roundFloat_isRounded fp32 (by decide) rm false _ _ _ _ (by omega) (fun _ => ?_) _ (Magnitude.root_sound _ _ (by omega)) (fun h hd => ?_) 0
        · exact (Nat.le_log2 (by omega)).2 (Nat.le_trans (Nat.pow_le_pow_right (by omega) (by decide)) hbig)
        · have hs : ((w : Int) - 75 - 64 + fp32.bias + fp32.frac) = ((w + 11 : Nat) : Int) := by simp [fp32]; omega
          rw [hs] at hd ⊢
          refine known_of_scaled _ _ _ _ _ (fun J => J * J ≤ m * 2 ^ odd * 2 ^ 128) (fun J => J * J = m * 2 ^ odd * 2 ^ 128)
            (fun J => (le_isqrt_iff _ _).symm) ?_ ?_ ?_ h hd
          · intro J; rw [square_eq_of_isqrt]; simp
          · intro j t ht
            have e1 : j * 2 ^ t * (j * 2 ^ t) * 1 = j * j * 2 ^ (2 * t) := by
              rw [show 2 * t = t + t by omega, Nat.pow_add, Nat.mul_one]; simp only [Nat.mul_assoc, Nat.mul_comm, Nat.mul_left_comm]
            have e2 : 4 * (m * 2 ^ k * fp32.one) = m * 2 ^ odd * 2 ^ 128 * 2 ^ (2 * t) := by
              rw [show fp32.one = 2 ^ 149 from rfl, show (4 : Nat) = 2 ^ 2 from rfl, Nat.mul_comm]
              simp only [Nat.mul_assoc, ← Nat.pow_add]
              congr 2; omega
            simp only [Magnitude.root, e1, e2, mul_two_pow_le_iff, mul_two_pow_inj, and_self]
          · intro h t ht; omega
      · simp [h0, hz]; rfl
  · cases fp32.negative x <;> simp [mag_ne_zero fp32 x a1] <;> rfl
  · rfl

/-- FRSQ (03 R102). -/
theorem frsq_isReciprocalRoot (rm : Rm) (x : Nat) : isReciprocalRoot rm x (frsqRef x (rmRnd rm)) := by
  simp only [frsqRef, isReciprocalRoot]
  rcases code_cases fp32 x with ⟨a1, a2, a3, m, k, a4, hmu, -, haz⟩ | ⟨a1, a2, a3, a4⟩ | ⟨a1, a2, a3, a4⟩ <;>
    simp only [a2, a3, a4, Bool.false_eq_true, if_true, if_false, Bool.false_or, Bool.true_or]
  · by_cases h0 : m = 0
    · simp [h0, haz.1 h0]; cases fp32.negative x <;> rfl
    · have hz := mt haz.2 h0
      cases hn : fp32.negative x
      · simp only [h0, hz, Bool.false_and, Bool.false_eq_true, if_false, hmu]
        have hm : 0 < m := by omega
        obtain ⟨w, odd, ho, hw, hk⟩ := half_exponent k
        have he : (1 - fp32.bias - fp32.frac + k : Int) = (k : Int) - 149 := by simp [fp32]; omega
        rw [he]
        simp only [rsqrtExact, ho, hw]
        have hN : 0 < m * 2 ^ odd := Nat.mul_pos hm (Nat.two_pow_pos odd)
        have hmu2 : 2 * (m * 2 ^ k) = m * 2 ^ odd * 2 ^ (2 * w) := by
          rw [Nat.mul_assoc, ← Nat.pow_add, show odd + 2 * w = k + 1 by omega, Nat.pow_succ]; simp only [Nat.mul_assoc, Nat.mul_comm, Nat.mul_left_comm]
        generalize m * 2 ^ odd = n at *
        have hl2 : n < 2 ^ (Nat.log2 n + 1) := Nat.lt_log2_self
        generalize hK : Nat.log2 n + 65 = K at *
        have hbig : 2 ^ 32 ≤ isqrt (2 ^ (2 * K) / n) := by
          rw [le_isqrt_iff, ← Nat.pow_add, Nat.le_div_iff_mul_le hN]
          refine Nat.le_trans (Nat.mul_le_mul_left _ (Nat.le_of_lt hl2)) ?_
          rw [← Nat.pow_add]; exact Nat.pow_le_pow_right (by omega) (by omega)
        refine roundFloat_isRounded fp32 (by decide) rm false _ _ _ _ (by omega) (fun _ => ?_) _
          (Magnitude.root_sound _ _ (Nat.mul_pos hm (Nat.two_pow_pos k))) (fun h hd => ?_) 0
        · exact (Nat.le_log2 (by omega)).2 (Nat.le_trans (Nat.pow_le_pow_right (by omega) (by decide)) hbig)
        · have hs : (-(K : Int) - ((w : Int) - 75) + fp32.bias + fp32.frac) = 225 - K - w := by simp [fp32]; omega
          rw [hs] at hd ⊢
          -- both sides doubled
          have hroot : ∀ h : Nat, (h * h * (m * 2 ^ k) ≤ 4 * (fp32.one * fp32.one * fp32.one) ↔ h * h * n * 2 ^ (2 * w) ≤ 2 ^ 450) ∧
              (h * h * (m * 2 ^ k) = 4 * (fp32.one * fp32.one * fp32.one) ↔ h * h * n * 2 ^ (2 * w) = 2 ^ 450) := by
            intro h
            have e1 : h * h * n * 2 ^ (2 * w) = 2 * (h * h * (m * 2 ^ k)) := by
              rw [Nat.mul_assoc, ← hmu2, Nat.mul_left_comm]
            have e2 : 4 * (fp32.one * fp32.one * fp32.one) = 2 ^ 449 := by
              rw [show fp32.one = 2 ^ 149 from rfl, show (4 : Nat) = 2 ^ 2 from rfl, ← Nat.pow_add, ← Nat.pow_add, ← Nat.pow_add]
            have e3 : (2 : Nat) ^ 450 = 2 * 2 ^ 449 := by rw [Nat.mul_comm, ← Nat.pow_succ]
            rw [e1, e2, e3]; omega
          refine known_of_scaled _ _ _ _ _ (fun J => J * J * n ≤ 2 ^ (2 * K)) (fun J => J * J * n = 2 ^ (2 * K)) (fun J => ?_) ?_ ?_ ?_ h hd
          · rw [le_isqrt_iff, Nat.le_div_iff_mul_le hN]
          · intro J
            constructor
            · intro hJ
              have h1 := ((div_exact_iff _ _ _ hN).1 hJ).1
              have h2 := (square_eq_of_isqrt _ _).1 h1
              rw [← h2.1]; simp [hJ]
            · rintro ⟨rfl, h⟩; simpa using h
          · intro j t ht
            simp only [Magnitude.root]
            have e1 : j * 2 ^ t * (j * 2 ^ t) * n * 2 ^ (2 * w) = j * j * n * 2 ^ (2 * (t + w)) := by
              rw [show 2 * (t + w) = t + t + 2 * w by omega, Nat.pow_add, Nat.pow_add]; simp only [Nat.mul_assoc, Nat.mul_comm, Nat.mul_left_comm]
            have e2 : (2 : Nat) ^ 450 = 2 ^ (2 * K) * 2 ^ (2 * (t + w)) := by rw [← Nat.pow_add]; congr 1; omega
            rw [(hroot _).1, (hroot _).2, e1, e2, mul_two_pow_le_iff, mul_two_pow_inj]; exact ⟨Iff.rfl, Iff.rfl⟩
          · intro h t ht
            simp only [Magnitude.root]
            have e1 : h * 2 ^ t * (h * 2 ^ t) * n * 2 ^ (2 * w) = h * h * n * 2 ^ (2 * w) * 2 ^ (2 * t) := by
              rw [show 2 * t = t + t by omega, Nat.pow_add]; simp only [Nat.mul_assoc, Nat.mul_comm, Nat.mul_left_comm]
            have e2 : 2 ^ (2 * K) * 2 ^ (2 * w) = (2 : Nat) ^ 450 * 2 ^ (2 * t) := by rw [← Nat.pow_add, ← Nat.pow_add]; congr 1; omega
            rw [(hroot _).1, (hroot _).2, ← mul_two_pow_le_iff (h * 2 ^ t * (h * 2 ^ t) * n) _ (2 * w),
              ← mul_two_pow_inj (h * 2 ^ t * (h * 2 ^ t) * n) _ (2 * w), e1, e2, mul_two_pow_le_iff, mul_two_pow_inj]
            exact ⟨Iff.rfl, Iff.rfl⟩
      · simp [h0, hz]; rfl
  · cases fp32.negative x <;> simp [mag_ne_zero fp32 x a1] <;> rfl
  · rfl

-- conversions

/-- A dyadic magnitude in the units of a format. -/
theorem roundFloat_meaning (g : FloatFmt) (hg : 0 < g.frac) (rm : Rm) (sat neg : Bool) (m i : Nat) (j : Nat) (k : Int) (hm : 0 < m) (rb : Nat) :
    IsRounded g rm sat neg (dyadic (m * 2 ^ i) j ((g.bias + g.frac - 1 : Nat) + k))
      (roundFloat (.num neg m ((i : Int) - j + k) false) g (rmRnd rm) sat rb) := by
  have := roundFloat_dyadic g hg rm sat neg m ((i : Int) - j + k) hm (i + ((((g.bias + g.frac - 1 : Nat) : Int) + k) - j).toNat)
    ((j : Int) - (((g.bias + g.frac - 1 : Nat) : Int) + k)).toNat (by omega) rb
  rwa [Nat.pow_add, ← Nat.mul_assoc] at this

/-- CVT of a floating-point code to a floating-point format (06 R170). -/
theorem convert_float (f g : FloatFmt) (hf : 0 < f.frac) (hg : 0 < g.frac) (rm : Rm) (sat : Bool) (k : Int) (a rb : Nat) :
    g.isConverted rm sat (f.meaning a) k (roundFloat ((f.value a).shift k) g (rmRnd rm) sat rb) := by
  simp only [FloatFmt.isConverted, FloatFmt.meaning]
  rcases code_cases f a with ⟨a1, a2, a3, m, i, a4, hmu, -, haz⟩ | ⟨a1, a2, a3, a4⟩ | ⟨a1, a2, a3, a4⟩ <;>
    simp only [a2, a3, a4, Bool.false_eq_true, if_true, if_false, Exact.shift]
  · by_cases h0 : m = 0
    · simp [h0, haz.1 h0, roundFloat]
    · rw [if_neg (by simp [mt haz.2 h0]), hmu]
      have := roundFloat_meaning g hg rm sat (f.negative a) m i (f.bias + f.frac - 1) k (by omega) rb
      rwa [show ((i : Int) - ((f.bias + f.frac - 1 : Nat) : Int) + k) = 1 - (f.bias : Int) - f.frac + i + k by omega] at this
  · rfl
  · rfl

/-- CVT of an integer (06 R170). -/
theorem convert_int (g : FloatFmt) (hg : 0 < g.frac) (rm : Rm) (sat : Bool) (v : Int) (rb : Nat) :
    g.isConverted rm sat (intMeaning v) 0 (roundFloat (.ofInt v) g (rmRnd rm) sat rb) := by
  by_cases h0 : v = 0
  · simp [FloatFmt.isConverted, intMeaning, Exact.ofInt, h0, roundFloat]
  · have := roundFloat_meaning g hg rm sat (decide (v < 0)) v.natAbs 0 0 0 (by omega) rb
    simpa [FloatFmt.isConverted, intMeaning, Exact.ofInt, h0] using this

theorem Magnitude.root4_sound (a b : Nat) : (Magnitude.root4 a b).Sound :=
  { down := fun hle hk => Nat.le_trans (Nat.mul_le_mul_right _ (Nat.pow_le_pow_left hle 4)) hk
    exact := fun he => Nat.le_of_eq he
    tight := fun he hlt hk => by
      have h1 := Nat.pow_lt_pow_left hlt (show 4 ≠ 0 by omega)
      have := Nat.mul_lt_mul_of_pos_right h1 (Nat.two_pow_pos b)
      simp only [Magnitude.root4] at he hk; omega }

theorem pow4 (j : Nat) : j ^ 4 = j * j * (j * j) := by
  rw [show 4 = 2 + 2 from rfl, Nat.pow_add, Nat.pow_two]

/-- The fourth root by two square roots. -/
theorem le_isqrt2_iff (n j : Nat) : j ≤ isqrt (isqrt n) ↔ j ^ 4 ≤ n := by
  rw [le_isqrt_iff, le_isqrt_iff, pow4]

/-- CVT of an LG6 code (06 R170; 03 R85, R91). -/
theorem convert_lg6 (g : FloatFmt) (hg : 0 < g.frac) (hg64 : g.frac < 64) (rm : Rm) (sat : Bool) (k : Int) (a rb : Nat) :
    g.isConverted rm sat (lg6Meaning a) k (roundFloat ((lg6Value a).shift k) g (rmRnd rm) sat rb) := by
  simp only [FloatFmt.isConverted, lg6Meaning, lg6Value, Bool.false_eq_true, if_false]
  by_cases h0 : a % 32 = 0
  · simp [h0, Exact.zero, Exact.shift, roundFloat]
  · rw [if_neg (by simpa using h0), if_neg h0]
    -- the half-unit scale of m · 2^e, and the two exponents of the magnitude
    have key : ∀ (m : Nat) (e : Int) (more : Bool) (c : Nat), 0 < m → (more = true → g.frac + 1 ≤ Nat.log2 m) →
        4 * e + c = ((a % 32 : Nat) : Int) - 16 + 4 * k → (∀ J, J ^ 4 ≤ 2 ^ c ↔ J ≤ m) → (∀ J, J ^ 4 = 2 ^ c ↔ J = m ∧ more = false) →
        IsRounded g rm sat (decide (a / 32 % 2 = 1))
          (.root4 (((a % 32 : Nat) : Int) - 16 + 4 * (((g.bias + g.frac - 1 : Nat) : Int) + k)).toNat
            (16 - ((a % 32 : Nat) : Int) - 4 * (((g.bias + g.frac - 1 : Nat) : Int) + k)).toNat)
          (roundFloat (.num (decide (a / 32 % 2 = 1)) m e more) g (rmRnd rm) sat rb) := by
      intro m e more c hm hmore he hR hX
      refine roundFloat_isRounded g hg rm sat _ m e more hm hmore _ (Magnitude.root4_sound _ _) (fun h hd => ?_) rb
      generalize hA : (((a % 32 : Nat) : Int) - 16 + 4 * (((g.bias + g.frac - 1 : Nat) : Int) + k)).toNat = A
      generalize hB : (16 - ((a % 32 : Nat) : Int) - 4 * (((g.bias + g.frac - 1 : Nat) : Int) + k)).toNat = B
      generalize hs : e + (g.bias : Int) + g.frac = s at hd ⊢
      have hAB : (A : Int) + 4 - B = 4 * s + c := by omega
      refine known_of_scaled s m more _ _ (fun J => J ^ 4 ≤ 2 ^ c) (fun J => J ^ 4 = 2 ^ c) hR hX ?_ ?_ h hd
      · intro j t ht
        have e1 : (j * 2 ^ t) ^ 4 * 2 ^ B = j ^ 4 * 2 ^ (4 * t + B) := by
          rw [Nat.mul_pow, ← Nat.pow_mul, Nat.mul_comm t 4, Nat.mul_assoc, ← Nat.pow_add]
        have e2 : 2 ^ (A + 4) = 2 ^ c * 2 ^ (4 * t + B) := by rw [← Nat.pow_add]; congr 1; omega
        simp only [Magnitude.root4, e1, e2, mul_two_pow_le_iff, mul_two_pow_inj, and_self]
      · intro h t ht
        have e1 : (h * 2 ^ t) ^ 4 * 2 ^ B = h ^ 4 * 2 ^ B * 2 ^ (4 * t) := by
          rw [Nat.mul_pow, ← Nat.pow_mul, Nat.mul_comm t 4, Nat.mul_right_comm]
        have e2 : 2 ^ c * 2 ^ B = 2 ^ (A + 4) * 2 ^ (4 * t) := by rw [← Nat.pow_add, ← Nat.pow_add]; congr 1; omega
        simp only [Magnitude.root4]
        rw [← mul_two_pow_le_iff ((h * 2 ^ t) ^ 4) _ B, ← mul_two_pow_inj ((h * 2 ^ t) ^ 4) _ B, e1, e2, mul_two_pow_le_iff, mul_two_pow_inj]
        exact ⟨Iff.rfl, Iff.rfl⟩
    have hr4 : ((((a % 32 : Nat) : Int) - 16) % 4).toNat < 4 := by omega
    have hdiv : 4 * ((((a % 32 : Nat) : Int) - 16) / 4) + ((((((a % 32 : Nat) : Int) - 16) % 4).toNat : Nat) : Int) = ((a % 32 : Nat) : Int) - 16 := by omega
    generalize ((((a % 32 : Nat) : Int) - 16) % 4).toNat = r at hr4 hdiv ⊢
    generalize (((a % 32 : Nat) : Int) - 16) / 4 = q at hdiv ⊢
    by_cases hr0 : r = 0
    · rw [if_pos hr0]
      refine key 1 (q + k) false 0 (by omega) (by simp) (by omega) (fun J => ?_) (fun J => ?_)
      · rw [Nat.pow_zero]
        by_cases hJ : J ≤ 1
        · obtain rfl | rfl : J = 0 ∨ J = 1 := by omega
          all_goals simp
        · have := Nat.pow_lt_pow_left (show 1 < J by omega) (show 4 ≠ 0 by omega)
          rw [Nat.one_pow] at this
          exact iff_of_false (by omega) hJ
      · rw [Nat.pow_zero]; simp
    · rw [if_neg hr0]
      have hN : ∀ J, J ^ 4 ≤ 2 ^ (r + 256) ↔ J ≤ isqrt (isqrt (2 ^ (r + 256))) := fun J => (le_isqrt2_iff _ _).symm
      have hbig : 2 ^ 64 ≤ isqrt (isqrt (2 ^ (r + 256))) := by
        rw [← hN, ← Nat.pow_mul]; exact Nat.pow_le_pow_right (by omega) (by omega)
      refine key _ (q - 64 + k) true (r + 256) (by omega) (fun _ => ?_) (by omega) hN (fun J => ?_)
      · exact (Nat.le_log2 (by omega)).2 (Nat.le_trans (Nat.pow_le_pow_right (by omega) (by omega)) hbig)
      · simp only [Bool.true_eq_false, and_false, iff_false]
        intro hJ
        have h1 := (hN J).1 (Nat.le_of_eq hJ)
        have h2 : isqrt (isqrt (2 ^ (r + 256))) ^ 4 ≤ J ^ 4 := by rw [hJ]; exact (hN _).2 (Nat.le_refl _)
        have h3 : J = isqrt (isqrt (2 ^ (r + 256))) := by
          by_cases hl : J < isqrt (isqrt (2 ^ (r + 256)))
          · have := Nat.pow_lt_pow_left hl (show 4 ≠ 0 by omega); omega
          · omega
        rw [h3] at hJ
        obtain rfl | rfl | rfl : r = 1 ∨ r = 2 ∨ r = 3 := by omega
        all_goals revert hJ; decide +kernel

-- LG6

theorem fourths (m i j n : Nat) : 2 ^ n * (2 ^ j) ^ 4 = 2 ^ (n + 4 * j) ∧ 2 ^ 16 * (m * 2 ^ i) ^ 4 = m ^ 4 * 2 ^ (16 + 4 * i) := by
  constructor
  · rw [← Nat.pow_mul, ← Nat.pow_add, Nat.mul_comm j]
  · rw [Nat.mul_pow, ← Nat.pow_mul, Nat.mul_left_comm, ← Nat.pow_add, Nat.mul_comm i]

theorem eighths (m i j n : Nat) : 2 ^ n * (2 ^ j) ^ 8 = 2 ^ (n + 8 * j) ∧ 2 ^ 33 * (m * 2 ^ i) ^ 8 = m ^ 4 * m ^ 4 * 2 ^ (33 + 8 * i) := by
  constructor
  · rw [← Nat.pow_mul, ← Nat.pow_add, Nat.mul_comm j]
  · rw [Nat.mul_pow, ← Nat.pow_mul, Nat.mul_left_comm, ← Nat.pow_add, Nat.mul_comm i, ← Nat.pow_add]

theorem pow_le_scaled (a T p k : Nat) (h1 : 2 ^ p ≤ T) (h2 : a ≤ p + k) : 2 ^ a ≤ T * 2 ^ k :=
  Nat.le_trans (Nat.pow_le_pow_right (by omega) h2) (by rw [Nat.pow_add]; exact Nat.mul_le_mul_right _ h1)

theorem scaled_lt_pow (a T p k : Nat) (h1 : T < 2 ^ p) (h2 : p + k ≤ a) : T * 2 ^ k < 2 ^ a :=
  Nat.lt_of_lt_of_le (Nat.mul_lt_mul_of_pos_right h1 (Nat.two_pow_pos k)) (by rw [← Nat.pow_add]; exact Nat.pow_le_pow_right (by omega) h2)

theorem pow_lt_scaled (a T p k : Nat) (h1 : 2 ^ p < T) (h2 : a ≤ p + k) : 2 ^ a < T * 2 ^ k :=
  Nat.lt_of_le_of_lt (Nat.pow_le_pow_right (by omega) h2) (by rw [Nat.pow_add]; exact Nat.mul_lt_mul_of_pos_right h1 (Nat.two_pow_pos k))

/-- The steps of a quarter that a significand reaches (03 R91, step 2). -/
theorem quarter_spec (m : Nat) (hm : 0 < m) :
    2 ^ (4 * Nat.log2 m + ((if 2 ^ (4 * Nat.log2 m + 1) ≤ m ^ 4 then 1 else 0) + (if 2 ^ (4 * Nat.log2 m + 2) ≤ m ^ 4 then 1 else 0) +
        (if 2 ^ (4 * Nat.log2 m + 3) ≤ m ^ 4 then 1 else 0))) ≤ m ^ 4 ∧
      m ^ 4 < 2 ^ (4 * Nat.log2 m + ((if 2 ^ (4 * Nat.log2 m + 1) ≤ m ^ 4 then 1 else 0) + (if 2 ^ (4 * Nat.log2 m + 2) ≤ m ^ 4 then 1 else 0) +
        (if 2 ^ (4 * Nat.log2 m + 3) ≤ m ^ 4 then 1 else 0)) + 1) := by
  have h1 : 2 ^ (4 * Nat.log2 m) ≤ m ^ 4 := by
    have := Nat.pow_le_pow_left (Nat.log2_self_le (n := m) (by omega)) 4
    rwa [← Nat.pow_mul, Nat.mul_comm] at this
  have h2 : m ^ 4 < 2 ^ (4 * Nat.log2 m + 4) := by
    have := Nat.pow_lt_pow_left (Nat.lt_log2_self (n := m)) (show 4 ≠ 0 by omega)
    rwa [← Nat.pow_mul, Nat.add_mul, Nat.mul_comm (Nat.log2 m)] at this
  generalize 4 * Nat.log2 m = L at *
  have e1 : 2 ^ (L + 1) ≤ 2 ^ (L + 2) := Nat.pow_le_pow_right (by omega) (by omega)
  have e2 : 2 ^ (L + 2) ≤ 2 ^ (L + 3) := Nat.pow_le_pow_right (by omega) (by omega)
  by_cases c1 : 2 ^ (L + 1) ≤ m ^ 4 <;> by_cases c2 : 2 ^ (L + 2) ≤ m ^ 4 <;> by_cases c3 : 2 ^ (L + 3) ≤ m ^ 4 <;>
    simp only [c1, c2, c3, if_true, if_false, Nat.add_zero, Nat.zero_add, Nat.reduceAdd] <;> first | omega | (constructor <;> assumption) | skip
  all_goals (try constructor) <;> first | trivial | (simp only [Nat.add_assoc, Nat.reduceAdd] at *; omega)

/-- round_lg6 of a dyadic value (03 R91). -/
theorem roundLg6_rounds (rm : Rm) (neg zero : Bool) (m : Nat) (e : Int) (more : Bool) (i j : Nat) (he : m ≠ 0 → e = (i : Int) - j)
    (hz : m = 0 → neg = zero) (x : Int) (hx : x = signedNat neg (m * 2 ^ i)) :
    lg6Rounds rm x (2 ^ j) zero (roundLg6 (.num neg m e more) (rmRnd rm)) := by
  by_cases hm : m = 0
  · subst hm; simp [lg6Rounds, hx, signedNat, roundLg6, hz rfl]
  have hpos : 0 < m * 2 ^ i := Nat.mul_pos (by omega) (Nat.two_pow_pos i)
  have h0 : x ≠ 0 := by rw [hx, ne_eq, signedNat_eq_zero]; omega
  have h1 : decide (x < 0) = neg := by rw [hx, signedNat_neg _ _ hpos]
  have h1' : (x < 0) = (neg = true) := by rw [← h1]; simp
  have h2 : x.natAbs = m * 2 ^ i := by rw [hx, signedNat_natAbs]
  have he' := he hm
  rw [lg6Rounds, if_neg h0, h1, h2]
  simp only [roundLg6, if_neg hm, h1']
  obtain ⟨q1, q2⟩ := quarter_spec m (by omega)
  generalize ((if 2 ^ (4 * Nat.log2 m + 1) ≤ m ^ 4 then 1 else 0) + (if 2 ^ (4 * Nat.log2 m + 2) ≤ m ^ 4 then 1 else 0) +
        (if 2 ^ (4 * Nat.log2 m + 3) ≤ m ^ 4 then 1 else 0)) = c at *
  generalize hp : 4 * Nat.log2 m + c = p at *
  rw [show 8 * Nat.log2 m + 2 * c + 1 = 2 * p + 1 by omega, show 4 * ((Nat.log2 m : Int) + e) + c + 16 = ((p : Nat) : Int) + 16 + 4 * i - 4 * j by omega]
  -- eighth powers
  have s1 : 2 ^ (2 * p) ≤ m ^ 4 * m ^ 4 := by rw [show 2 * p = p + p by omega, Nat.pow_add]; exact Nat.mul_le_mul q1 q1
  have s2 : m ^ 4 * m ^ 4 < 2 ^ (2 * p + 2) := by
    rw [show 2 * p + 2 = (p + 1) + (p + 1) by omega, Nat.pow_add]; exact Nat.mul_lt_mul_of_lt_of_le q2 (Nat.le_of_lt q2) (Nat.two_pow_pos _)
  have f := fun n => fourths m i j n
  have g := fun n => eighths m i j n
  clear hx h0 h1 h1' h2 he he' hp hz
  refine ⟨_, rfl, ?_⟩
  have main : ∀ (inc : Bool) (n1 : Int), n1 = (if inc then ((p : Nat) : Int) + 16 + 4 * i - 4 * j + 1 else ((p : Nat) : Int) + 16 + 4 * i - 4 * j) →
      (match rmRnd rm with
        | .near | .stoch => inc = decide (2 ^ (2 * p + 1) ≤ m ^ 4 * m ^ 4)
        | _ => inc = ((rmRnd rm).outward neg && m ^ 4 != 2 ^ p)) →
      lgChosen (aimOf rm neg) (m * 2 ^ i) (2 ^ j) (if 31 < n1 then (31 : Int) else if n1 < 1 then (if (rmRnd rm).outward neg then 1 else 0) else n1).toNat := by
    intro inc n1 hn1 hinc
    have inwardCase : inc = false → lgChosen .inward (m * 2 ^ i) (2 ^ j) (if 31 < n1 then (31 : Int) else if n1 < 1 then 0 else n1).toNat := by
      rintro rfl
      simp only [Bool.false_eq_true, if_false] at hn1
      simp only [lgChosen, (f _).1, (f 0).2]
      refine ⟨by split <;> (try split) <;> omega, fun h => pow_le_scaled _ _ p _ q1 ?_, fun h => scaled_lt_pow _ _ (p + 1) _ q2 ?_⟩
      · revert h; split <;> (try split) <;> omega
      · revert h; split <;> (try split) <;> omega
    have outwardCase : inc = (m ^ 4 != 2 ^ p) →
        lgChosen .outward (m * 2 ^ i) (2 ^ j) (if 31 < n1 then (31 : Int) else if n1 < 1 then 1 else n1).toNat := by
      intro h
      simp only [lgChosen, (f _).1, (f 0).2]
      by_cases ht : m ^ 4 = 2 ^ p
      · obtain rfl : inc = false := by simp [h, ht]
        simp only [Bool.false_eq_true, if_false] at hn1
        refine ⟨by split <;> (try split) <;> omega, by split <;> (try split) <;> omega, fun h => ?_, fun h => ?_⟩
        · rw [ht, ← Nat.pow_add]; refine Nat.pow_le_pow_right (by omega) ?_
          revert h; split <;> (try split) <;> omega
        · rw [ht, ← Nat.pow_add]; refine Nat.pow_lt_pow_right (by omega) ?_
          revert h; split <;> (try split) <;> omega
      · obtain rfl : inc = true := by simp [h, ht]
        simp only [if_true] at hn1
        have q1' : 2 ^ p < m ^ 4 := by omega
        refine ⟨by split <;> (try split) <;> omega, by split <;> (try split) <;> omega, fun h => Nat.le_of_lt (scaled_lt_pow _ _ (p + 1) _ q2 ?_),
          fun h => pow_lt_scaled _ _ p _ q1' ?_⟩
        · revert h; split <;> (try split) <;> omega
        · revert h; split <;> (try split) <;> omega
    have nearCase : inc = decide (2 ^ (2 * p + 1) ≤ m ^ 4 * m ^ 4) →
        lgChosen .nearest (m * 2 ^ i) (2 ^ j) (if 31 < n1 then (31 : Int) else if n1 < 1 then 0 else n1).toNat := by
      intro h
      simp only [lgChosen, (g _).1, (g 0).2]
      by_cases ht : 2 ^ (2 * p + 1) ≤ m ^ 4 * m ^ 4
      · obtain rfl : inc = true := by simp [h, ht]
        simp only [if_true] at hn1
        refine ⟨by split <;> (try split) <;> omega, fun h => pow_le_scaled _ _ (2 * p + 1) _ ht ?_, fun h => scaled_lt_pow _ _ (2 * p + 2) _ s2 ?_⟩
        · revert h; split <;> (try split) <;> omega
        · revert h; split <;> (try split) <;> omega
      · obtain rfl : inc = false := by simp [h, ht]
        simp only [Bool.false_eq_true, if_false] at hn1
        refine ⟨by split <;> (try split) <;> omega, fun h => pow_le_scaled _ _ (2 * p) _ s1 ?_, fun h => scaled_lt_pow _ _ (2 * p + 1) _ (by omega) ?_⟩
        · revert h; split <;> (try split) <;> omega
        · revert h; split <;> (try split) <;> omega
    cases rm <;> cases neg <;> simp [rmRnd, aimOf, Rnd.outward] at hinc ⊢ <;>
      first
        | exact nearCase hinc
        | exact inwardCase hinc
        | exact outwardCase (by simpa using hinc)
  cases rm <;> cases neg <;> exact main _ _ rfl rfl

/-- CVT of a floating-point code to LG6 (06 R170). -/
theorem convert_to_lg6 (f : FloatFmt) (hf : 0 < f.bias + f.frac) (rm : Rm) (k : Int) (a : Nat) :
    f.isLg6 rm k a (roundLg6 ((f.value a).shift k) (rmRnd rm)) := by
  simp only [FloatFmt.isLg6]
  rcases code_cases f a with ⟨a1, a2, a3, m, i, a4, -, hau, haz⟩ | ⟨a1, a2, a3, a4⟩ | ⟨a1, a2, a3, a4⟩ <;>
    simp only [a2, a3, a4, Bool.false_eq_true, if_true, if_false, Exact.shift]
  · refine roundLg6_rounds rm (f.negative a) (f.negative a) m _ false (i + (k - ((f.bias + f.frac - 1 : Nat) : Int)).toNat) _ (fun _ => by omega)
      (fun _ => rfl) _ ?_
    rw [hau, Nat.pow_add, ← Nat.mul_assoc, signedNat_mul, signedNat_mul, signedNat_mul]; simp
  · rfl
  · rfl

theorem lgTable_pos (i : Nat) (h : i < 4) : 0 < lgTable i := by
  obtain rfl | rfl | rfl | rfl : i = 0 ∨ i = 1 ∨ i = 2 ∨ i = 3 := by omega
  all_goals decide

/-- The linear value of an LG6 code in units of 2^-26 (06 R174). -/
theorem lg6Lin_units (c : Nat) : ∃ m k : Nat, lg6Lin c = .num (decide (c / 32 % 2 = 1)) m ((-26 : Int) + k) false ∧
    lgUnits c = signedNat (decide (c / 32 % 2 = 1)) (m * 2 ^ k) ∧ (m = 0 ↔ c % 32 = 0) := by
  by_cases h0 : c % 32 = 0
  · exact ⟨0, 26, by simp [lg6Lin, h0, Exact.zero], by simp [lgUnits, h0, signedNat], by simp [h0]⟩
  · refine ⟨lgTable (c % 32 % 4), c % 32 / 4, ?_, ?_, ?_⟩
    · simp only [lg6Lin, if_neg h0]
      rw [show ((((c % 32 : Nat) : Int) - 16) % 4).toNat = c % 32 % 4 by omega,
        show (((c % 32 : Nat) : Int) - 16) / 4 - 22 = (-26 : Int) + (c % 32 / 4 : Nat) by omega]
    · simp [lgUnits, h0, signedNat]
    · have := lgTable_pos (c % 32 % 4) (by omega); omega

/-- LGADD (06 R176). -/
theorem lgadd_isLgSum (rm : Rm) (a b : Nat) : isLgSum rm a b (lgaddCode (rmRnd rm) a b) := by
  obtain ⟨m, k, h1, h2, h3⟩ := lg6Lin_units a
  obtain ⟨n, l, h4, h5, h6⟩ := lg6Lin_units b
  obtain ⟨s, M, e, K, hadd, he, hsum, hz⟩ := add_units false (decide (a / 32 % 2 = 1)) m k (decide (b / 32 % 2 = 1)) n l (-26)
  rw [lgaddCode, h1, h4, hadd, isLgSum]
  refine roundLg6_rounds rm s _ M e false K 26 (fun h => by have := he h; omega) (fun h => ?_) _ (by rw [h2, h5, hsum])
  rw [hz h]
  simp only [h3, h6]
  by_cases ha : a / 32 % 2 = 1 <;> by_cases hb : b / 32 % 2 = 1 <;> simp [ha, hb] <;>
    (try rw [← Bool.decide_and, ← Bool.decide_and, decide_eq_decide]) <;> omega

/-- LGMUL (06 R175). -/
theorem lgmul_lgProduct (rm : Rm) (a b : Nat) : lgmulCode (rmRnd rm) a b = lgProduct rm a b := by
  simp only [lgmulCode, lgProduct]
  have ho : ∀ neg : Bool, ((rmRnd rm).outward neg = true) = (aimOf rm neg = .outward) := by intro neg; cases rm <;> cases neg <;> simp [rmRnd, Rnd.outward, aimOf]
  simp only [ho]
  split
  · simp
  · repeat' split
    all_goals first | rfl | omega

/-- An FP32 code to an integer (06 R170). -/
theorem convert_to_int (rm : Rm) (signed : Bool) (w : Nat) (a rb : Nat) :
    fp32.isInteger rm signed w a (roundInt (fp32.value a) signed w (rmRnd rm) rb) := by
  simp only [roundInt, FloatFmt.isInteger]
  rcases code_cases fp32 a with ⟨a1, a2, a3, m, k, a4, hmu, -, haz⟩ | ⟨a1, a2, a3, a4⟩ | ⟨a1, a2, a3, a4⟩ <;>
    simp only [a2, a3, a4, Bool.false_eq_true, if_true, if_false]
  rw [hmu]
  refine ⟨_, ?_, roundUnits_whole rm (fp32.negative a) m (1 - fp32.bias - fp32.frac + k) k 149 (by simp [fp32]; omega) rb⟩
  rfl

theorem log2_mul_two_pow (m k : Nat) (hm : 0 < m) : Nat.log2 (m * 2 ^ k) = Nat.log2 m + k := by
  have hp : 0 < m * 2 ^ k := Nat.mul_pos hm (Nat.two_pow_pos k)
  have h1 : 2 ^ (Nat.log2 m + k) ≤ m * 2 ^ k := by rw [Nat.pow_add]; exact Nat.mul_le_mul_right _ (Nat.log2_self_le (by omega))
  have h2 : m * 2 ^ k < 2 ^ (Nat.log2 m + k + 1) := by
    rw [Nat.add_right_comm, Nat.pow_add]; exact Nat.mul_lt_mul_of_pos_right Nat.lt_log2_self (Nat.two_pow_pos k)
  have h3 := (Nat.le_log2 (by omega)).2 h1
  have h4 := (Nat.log2_lt (by omega)).2 h2
  omega

-- block scales

theorem finiteLt_units (m k n l : Nat) :
    finiteLt false m ((-149 : Int) + k) false n ((-149 : Int) + l) = decide (m * 2 ^ k < n * 2 ^ l) := by
  simp only [finiteLt, signedNat, Bool.false_eq_true, if_false, decide_eq_decide]
  by_cases h : k ≤ l
  · rw [if_pos (by omega), inUnits, inUnits, show ((-149 : Int) + k - (-149 + k)).toNat = 0 by omega,
      show ((-149 : Int) + l - (-149 + k)).toNat = l - k by omega, pow_split k l h, ← Nat.mul_assoc, Nat.mul_lt_mul_right (Nat.two_pow_pos k)]
    omega
  · rw [if_neg (by omega), inUnits, inUnits, show ((-149 : Int) + l - (-149 + l)).toNat = 0 by omega,
      show ((-149 : Int) + k - (-149 + l)).toNat = k - l by omega, pow_split l k (by omega), ← Nat.mul_assoc, Nat.mul_lt_mul_right (Nat.two_pow_pos l)]
    omega

/-- The greatest magnitude of finite codes. -/
theorem amax_units (codes : List Nat) : ∀ (m k : Nat), codes.any (fun c => !fp32.isFinite c) = false →
    ∃ n l : Nat, (codes.map fp32.value).foldl (fun (m : Exact) v => if m.lt v.abs then v.abs else m) (.num false m ((-149 : Int) + k) false) =
        .num false n ((-149 : Int) + l) false ∧
      (codes.map (fun c => magUnits fp32.frac (fp32.mag c))).foldl Nat.max (m * 2 ^ k) = n * 2 ^ l := by
  induction codes with
  | nil => exact fun m k _ => ⟨m, k, rfl, rfl⟩
  | cons c t ih =>
    intro m k h
    simp only [List.any_cons, Bool.or_eq_false_iff, Bool.not_eq_false'] at h
    rcases code_cases fp32 c with ⟨-, -, -, n, l, a4, hmu, -, -⟩ | ⟨a1, -⟩ | ⟨a1, -⟩
    · have he : (1 - fp32.bias - fp32.frac + l : Int) = (-149 : Int) + l := by simp [fp32] <;> omega
      simp only [List.map_cons, List.foldl_cons, a4, he, Exact.abs, Exact.lt, finiteLt_units, hmu, decide_eq_true_eq]
      by_cases hlt : m * 2 ^ k < n * 2 ^ l
      · rw [if_pos hlt, show Nat.max (m * 2 ^ k) (n * 2 ^ l) = n * 2 ^ l from Nat.max_eq_right (Nat.le_of_lt hlt)]
        exact ih n l h.2
      · rw [if_neg hlt, show Nat.max (m * 2 ^ k) (n * 2 ^ l) = m * 2 ^ k from Nat.max_eq_left (by omega)]
        exact ih m k h.2
    · rw [a1] at h; cases h.1
    · rw [a1] at h; cases h.1

/-- SCALE.MX (06 R173). -/
theorem scaleMx_blockScale (t : VType) (codes : List Nat) : scaleMxCode t codes = blockScale (scaleEmax t) codes := by
  have hany : (codes.map fp32.value).any (fun v => v.isNan || v.isInf) = codes.any (fun c => !fp32.isFinite c) := by
    rw [List.any_map]; congr 1; funext c
    rcases code_cases fp32 c with ⟨a1, -, -, m, k, a4, -⟩ | ⟨a1, -, -, a4⟩ | ⟨a1, -, -, a4⟩ <;> simp [a1, a4, Exact.isNan, Exact.isInf]
  simp only [scaleMxCode, blockScale, hany]
  cases h : codes.any (fun c => !fp32.isFinite c)
  · obtain ⟨n, l, h1, h2⟩ := amax_units codes 0 149 h
    simp only [Bool.false_eq_true, if_false]
    rw [show Exact.zero false = .num false 0 ((-149 : Int) + (149 : Nat)) false from rfl, h1, show (0 : Nat) = 0 * 2 ^ 149 by rw [Nat.zero_mul], h2]
    rw [Nat.zero_mul]
    by_cases hn : n = 0
    · simp [hn]
    · have hp : n * 2 ^ l ≠ 0 := Nat.ne_of_gt (Nat.mul_pos (by omega) (Nat.two_pow_pos l))
      simp only [if_neg hn, if_neg hp]
      rw [log2_mul_two_pow n l (by omega), clampInt]
      split <;> (try split) <;> omega
  · rfl

end Sys2Proof.Machine
end

