-- ==== Sys2Proof/Laws/Tables.lean ====
section
/-!
SUPPORT. Laws of the tables and of byte memories: what a read gives after a write, and that every write keeps the canonical form.
-/
namespace Sys2Proof.Machine

variable {α : Type}

-- reads after writes

@[simp] theorem tget_nil (i : Nat) : tget ([] : Tbl α) i = none := rfl

theorem tget_cons (k : Nat) (v : α) (t : Tbl α) (i : Nat) : tget ((k, v) :: t) i = if k = i then some v else tget t i := rfl

theorem tget_tput (t : Tbl α) (i j : Nat) (v : α) : tget (tput t i v) j = if i = j then some v else tget t j := by
  induction t with
  | nil => simp [tput, tget]
  | cons x t ih =>
    obtain ⟨k, w⟩ := x
    simp only [tput]
    split
    · simp [tget]
    · split
      · subst_vars; simp only [tget]; split <;> simp_all
      · simp only [tget, ih]; split <;> simp_all

@[simp] theorem tget_tput_same (t : Tbl α) (i : Nat) (v : α) : tget (tput t i v) i = some v := by simp [tget_tput]

theorem tget_tput_other (t : Tbl α) {i j : Nat} (v : α) (h : i ≠ j) : tget (tput t i v) j = tget t j := by simp [tget_tput, h]

theorem tget_tdel (t : Tbl α) (i j : Nat) : tget (tdel t i) j = if i = j then none else tget t j := by
  induction t with
  | nil => simp [tdel]
  | cons x t ih =>
    obtain ⟨k, w⟩ := x
    simp only [tdel]
    split
    · subst_vars; rw [ih]; simp only [tget]; split <;> simp_all
    · simp only [tget, ih]; split <;> split <;> simp_all

/-- A table with a default reads what was written last. -/
theorem tgetD_tputD [DecidableEq α] (t : Tbl α) (i j : Nat) (v d : α) :
    tgetD (tputD t i v d) j d = if i = j then v else tgetD t j d := by
  unfold tgetD tputD
  split
  · rw [tget_tdel]; split <;> simp_all
  · rw [tget_tput]; split <;> simp_all

@[simp] theorem tgetD_tputD_same [DecidableEq α] (t : Tbl α) (i : Nat) (v d : α) : tgetD (tputD t i v d) i d = v := by
  simp [tgetD_tputD]

theorem tgetD_tputD_other [DecidableEq α] (t : Tbl α) {i j : Nat} (v d : α) (h : i ≠ j) :
    tgetD (tputD t i v d) j d = tgetD t j d := by simp [tgetD_tputD, h]

-- keys stay strictly rising

/-- Every key of a table is above a bound. -/
def above (n : Nat) (t : Tbl α) : Prop := ∀ x ∈ t, n < x.1

theorem sortedKeys_cons (k : Nat) (v : α) (t : Tbl α) : sortedKeys ((k, v) :: t) = true ↔ above k t ∧ sortedKeys t = true := by
  induction t generalizing k v with
  | nil => simp [sortedKeys, above]
  | cons x t ih =>
    obtain ⟨b, w⟩ := x
    simp only [sortedKeys, Bool.and_eq_true, decide_eq_true_eq]
    constructor
    · rintro ⟨h1, h2⟩
      refine ⟨?_, h2⟩
      intro y hy
      rcases List.mem_cons.mp hy with rfl | hy
      · exact h1
      · exact Nat.lt_trans h1 (((ih b w).mp h2).1 y hy)
    · rintro ⟨h1, h2⟩
      exact ⟨h1 (b, w) (by simp), h2⟩

theorem above_tput (n : Nat) (t : Tbl α) (i : Nat) (v : α) (h : above n t) (hi : n < i) : above n (tput t i v) := by
  induction t with
  | nil => intro x hx; simp only [tput, List.mem_singleton] at hx; subst hx; exact hi
  | cons y t ih =>
    obtain ⟨k, w⟩ := y
    have hk : n < k := h (k, w) (by simp)
    have ht : above n t := fun x hx => h x (by simp [hx])
    simp only [tput]
    split
    · intro x hx
      rcases List.mem_cons.mp hx with rfl | hx
      · exact hi
      · exact h x hx
    · split
      · intro x hx
        rcases List.mem_cons.mp hx with rfl | hx
        · exact hi
        · exact ht x hx
      · intro x hx
        rcases List.mem_cons.mp hx with rfl | hx
        · exact hk
        · exact ih ht x hx

theorem sortedKeys_tput (t : Tbl α) (i : Nat) (v : α) (h : sortedKeys t = true) : sortedKeys (tput t i v) = true := by
  induction t with
  | nil => rfl
  | cons y t ih =>
    obtain ⟨k, w⟩ := y
    have hs := (sortedKeys_cons k w t).mp h
    simp only [tput]
    split
    · rename_i hlt
      rw [sortedKeys_cons]
      refine ⟨?_, h⟩
      intro x hx
      rcases List.mem_cons.mp hx with rfl | hx
      · exact hlt
      · exact Nat.lt_trans hlt (hs.1 x hx)
    · split
      · rename_i heq
        subst heq
        rw [sortedKeys_cons]
        exact hs
      · rw [sortedKeys_cons]
        exact ⟨above_tput k t i v hs.1 (by omega), ih hs.2⟩

theorem mem_tdel (t : Tbl α) (i : Nat) (x : Nat × α) (h : x ∈ tdel t i) : x ∈ t := by
  induction t with
  | nil => exact h
  | cons y t ih =>
    obtain ⟨k, w⟩ := y
    simp only [tdel] at h
    split at h
    · exact List.mem_cons_of_mem _ (ih h)
    · rcases List.mem_cons.mp h with rfl | h
      · simp
      · exact List.mem_cons_of_mem _ (ih h)

theorem sortedKeys_tdel (t : Tbl α) (i : Nat) (h : sortedKeys t = true) : sortedKeys (tdel t i) = true := by
  induction t with
  | nil => rfl
  | cons y t ih =>
    obtain ⟨k, w⟩ := y
    have hs := (sortedKeys_cons k w t).mp h
    simp only [tdel]
    split
    · exact ih hs.2
    · rw [sortedKeys_cons]
      exact ⟨fun x hx => hs.1 x (mem_tdel t i x hx), ih hs.2⟩

theorem mem_tput (t : Tbl α) (i : Nat) (v : α) (x : Nat × α) (h : x ∈ tput t i v) : x = (i, v) ∨ x ∈ t := by
  induction t with
  | nil => left; simpa [tput] using h
  | cons y t ih =>
    obtain ⟨k, w⟩ := y
    simp only [tput] at h
    split at h
    · rcases List.mem_cons.mp h with h | h
      · exact .inl h
      · exact .inr h
    · split at h
      · rcases List.mem_cons.mp h with h | h
        · exact .inl h
        · exact .inr (List.mem_cons_of_mem _ h)
      · rcases List.mem_cons.mp h with h | h
        · exact .inr (by simp [h])
        · rcases ih h with h | h
          · exact .inl h
          · exact .inr (List.mem_cons_of_mem _ h)

-- byte memories

theorem readByte_writeByte (m : List Host.Cell) (a i : Nat) (b : Byte) :
    readByte (writeByte m a b) i = if a = i then b else readByte m i := tgetD_tputD m a i b emptyByte

@[simp] theorem readByte_writeByte_same (m : List Host.Cell) (a : Nat) (b : Byte) : readByte (writeByte m a b) a = b := by
  simp [readByte_writeByte]

/-- Writing bytes leaves every address outside them alone. -/
theorem readByte_writeBytes_other (bs : List Byte) (m : List Host.Cell) (a i : Nat) (h : i < a ∨ a + bs.length ≤ i) :
    readByte (writeBytes m a bs) i = readByte m i := by
  induction bs generalizing m a with
  | nil => rfl
  | cons b t ih =>
    simp only [List.length_cons] at h
    rw [writeBytes, ih _ _ (by omega), readByte_writeByte, if_neg (by omega)]

/-- Writing bytes leaves each of them at its address. -/
theorem readByte_writeBytes (bs : List Byte) (m : List Host.Cell) (a k : Nat) (h : k < bs.length) :
    readByte (writeBytes m a bs) (a + k) = bs[k] := by
  induction bs generalizing m a k with
  | nil => simp at h
  | cons b t ih =>
    cases k with
    | zero => rw [writeBytes, readByte_writeBytes_other _ _ _ _ (by omega)]; simp
    | succ k =>
      simp only [List.length_cons] at h
      rw [writeBytes, show a + (k + 1) = a + 1 + k by omega, ih _ _ _ (by omega)]
      simp

theorem memoryWf_writeByte (m : List Host.Cell) (a : Nat) (b : Byte) (h : memoryWf m = true) : memoryWf (writeByte m a b) = true := by
  simp only [memoryWf, Bool.and_eq_true, List.all_eq_true, bne_iff_ne, ne_eq] at h ⊢
  unfold writeByte tputD
  split
  · exact ⟨sortedKeys_tdel _ _ h.1, fun x hx => h.2 x (mem_tdel _ _ _ hx)⟩
  · rename_i hb
    refine ⟨sortedKeys_tput _ _ _ h.1, fun x hx => ?_⟩
    rcases mem_tput _ _ _ _ hx with rfl | hx
    · exact hb
    · exact h.2 x hx

theorem memoryWf_writeBytes (bs : List Byte) (m : List Host.Cell) (a : Nat) (h : memoryWf m = true) :
    memoryWf (writeBytes m a bs) = true := by
  induction bs generalizing m a with
  | nil => exact h
  | cons b t ih => exact ih _ _ (memoryWf_writeByte m a b h)

end Sys2Proof.Machine
end

