-- ==== Sys2Proof/Laws/State.lean ====
section
/-!
SUPPORT. What each update of the device leaves alone and what it writes: one lemma per field and update, so that no proof unfolds a
record update.
-/
namespace Sys2Proof.Machine

variable (d : Device)

-- setCore

@[simp] theorem Device.setCore_bringUp (c : Nat) (x : Core) : (d.setCore c x).bringUp = d.bringUp := rfl
@[simp] theorem Device.setCore_parts (c : Nat) (x : Core) : (d.setCore c x).parts = d.parts := rfl
@[simp] theorem Device.setCore_dies (c : Nat) (x : Core) : (d.setCore c x).dies = d.dies := rfl
@[simp] theorem Device.setCore_launches (c : Nat) (x : Core) : (d.setCore c x).launches = d.launches := rfl
@[simp] theorem Device.setCore_teams (c : Nat) (x : Core) : (d.setCore c x).teams = d.teams := rfl
@[simp] theorem Device.setCore_groups (c : Nat) (x : Core) : (d.setCore c x).groups = d.groups := rfl
@[simp] theorem Device.setCore_fw (c : Nat) (x : Core) : (d.setCore c x).fw = d.fw := rfl
@[simp] theorem Device.setCore_ports (c : Nat) (x : Core) : (d.setCore c x).ports = d.ports := rfl
@[simp] theorem Device.setCore_mem (c : Nat) (x : Core) : (d.setCore c x).mem = d.mem := rfl
@[simp] theorem Device.setCore_pfLog (c : Nat) (x : Core) : (d.setCore c x).pfLog = d.pfLog := rfl
@[simp] theorem Device.setCore_tracing (c : Nat) (x : Core) : (d.setCore c x).tracing = d.tracing := rfl
@[simp] theorem Device.setCore_trace (c : Nat) (x : Core) : (d.setCore c x).trace = d.trace := rfl
@[simp] theorem Device.setCore_msgs (c : Nat) (x : Core) : (d.setCore c x).msgs = d.msgs := rfl
@[simp] theorem Device.setCore_hits (c : Nat) (x : Core) : (d.setCore c x).hits = d.hits := rfl
@[simp] theorem Device.setCore_slewDie (c : Nat) (x : Core) : (d.setCore c x).slewDie = d.slewDie := rfl
@[simp] theorem Device.setCore_drawn (c : Nat) (x : Core) : (d.setCore c x).drawn = d.drawn := rfl
@[simp] theorem Device.setCore_nextTeam (c : Nat) (x : Core) : (d.setCore c x).nextTeam = d.nextTeam := rfl
@[simp] theorem Device.setCore_nextLaunch (c : Nat) (x : Core) : (d.setCore c x).nextLaunch = d.nextLaunch := rfl
@[simp] theorem Device.setCore_nextGroup (c : Nat) (x : Core) : (d.setCore c x).nextGroup = d.nextGroup := rfl
@[simp] theorem Device.setCore_nextReq (c : Nat) (x : Core) : (d.setCore c x).nextReq = d.nextReq := rfl

-- setDie

@[simp] theorem Device.setDie_bringUp (i : Nat) (x : Die) : (d.setDie i x).bringUp = d.bringUp := rfl
@[simp] theorem Device.setDie_parts (i : Nat) (x : Die) : (d.setDie i x).parts = d.parts := rfl
@[simp] theorem Device.setDie_cores (i : Nat) (x : Die) : (d.setDie i x).cores = d.cores := rfl
@[simp] theorem Device.setDie_launches (i : Nat) (x : Die) : (d.setDie i x).launches = d.launches := rfl
@[simp] theorem Device.setDie_teams (i : Nat) (x : Die) : (d.setDie i x).teams = d.teams := rfl
@[simp] theorem Device.setDie_groups (i : Nat) (x : Die) : (d.setDie i x).groups = d.groups := rfl
@[simp] theorem Device.setDie_fw (i : Nat) (x : Die) : (d.setDie i x).fw = d.fw := rfl
@[simp] theorem Device.setDie_ports (i : Nat) (x : Die) : (d.setDie i x).ports = d.ports := rfl
@[simp] theorem Device.setDie_mem (i : Nat) (x : Die) : (d.setDie i x).mem = d.mem := rfl
@[simp] theorem Device.setDie_pfLog (i : Nat) (x : Die) : (d.setDie i x).pfLog = d.pfLog := rfl
@[simp] theorem Device.setDie_tracing (i : Nat) (x : Die) : (d.setDie i x).tracing = d.tracing := rfl
@[simp] theorem Device.setDie_trace (i : Nat) (x : Die) : (d.setDie i x).trace = d.trace := rfl
@[simp] theorem Device.setDie_msgs (i : Nat) (x : Die) : (d.setDie i x).msgs = d.msgs := rfl
@[simp] theorem Device.setDie_hits (i : Nat) (x : Die) : (d.setDie i x).hits = d.hits := rfl
@[simp] theorem Device.setDie_slewDie (i : Nat) (x : Die) : (d.setDie i x).slewDie = d.slewDie := rfl
@[simp] theorem Device.setDie_drawn (i : Nat) (x : Die) : (d.setDie i x).drawn = d.drawn := rfl
@[simp] theorem Device.setDie_nextTeam (i : Nat) (x : Die) : (d.setDie i x).nextTeam = d.nextTeam := rfl
@[simp] theorem Device.setDie_nextLaunch (i : Nat) (x : Die) : (d.setDie i x).nextLaunch = d.nextLaunch := rfl
@[simp] theorem Device.setDie_nextGroup (i : Nat) (x : Die) : (d.setDie i x).nextGroup = d.nextGroup := rfl
@[simp] theorem Device.setDie_nextReq (i : Nat) (x : Die) : (d.setDie i x).nextReq = d.nextReq := rfl

-- setPart

@[simp] theorem Device.setPart_bringUp (p : Nat) (x : Part) : (d.setPart p x).bringUp = d.bringUp := rfl
@[simp] theorem Device.setPart_dies (p : Nat) (x : Part) : (d.setPart p x).dies = d.dies := rfl
@[simp] theorem Device.setPart_cores (p : Nat) (x : Part) : (d.setPart p x).cores = d.cores := rfl
@[simp] theorem Device.setPart_launches (p : Nat) (x : Part) : (d.setPart p x).launches = d.launches := rfl
@[simp] theorem Device.setPart_teams (p : Nat) (x : Part) : (d.setPart p x).teams = d.teams := rfl
@[simp] theorem Device.setPart_groups (p : Nat) (x : Part) : (d.setPart p x).groups = d.groups := rfl
@[simp] theorem Device.setPart_fw (p : Nat) (x : Part) : (d.setPart p x).fw = d.fw := rfl
@[simp] theorem Device.setPart_ports (p : Nat) (x : Part) : (d.setPart p x).ports = d.ports := rfl
@[simp] theorem Device.setPart_mem (p : Nat) (x : Part) : (d.setPart p x).mem = d.mem := rfl
@[simp] theorem Device.setPart_pfLog (p : Nat) (x : Part) : (d.setPart p x).pfLog = d.pfLog := rfl
@[simp] theorem Device.setPart_tracing (p : Nat) (x : Part) : (d.setPart p x).tracing = d.tracing := rfl
@[simp] theorem Device.setPart_trace (p : Nat) (x : Part) : (d.setPart p x).trace = d.trace := rfl
@[simp] theorem Device.setPart_msgs (p : Nat) (x : Part) : (d.setPart p x).msgs = d.msgs := rfl
@[simp] theorem Device.setPart_hits (p : Nat) (x : Part) : (d.setPart p x).hits = d.hits := rfl
@[simp] theorem Device.setPart_slewDie (p : Nat) (x : Part) : (d.setPart p x).slewDie = d.slewDie := rfl
@[simp] theorem Device.setPart_drawn (p : Nat) (x : Part) : (d.setPart p x).drawn = d.drawn := rfl
@[simp] theorem Device.setPart_nextTeam (p : Nat) (x : Part) : (d.setPart p x).nextTeam = d.nextTeam := rfl
@[simp] theorem Device.setPart_nextLaunch (p : Nat) (x : Part) : (d.setPart p x).nextLaunch = d.nextLaunch := rfl
@[simp] theorem Device.setPart_nextGroup (p : Nat) (x : Part) : (d.setPart p x).nextGroup = d.nextGroup := rfl
@[simp] theorem Device.setPart_nextReq (p : Nat) (x : Part) : (d.setPart p x).nextReq = d.nextReq := rfl

-- setPort

@[simp] theorem Device.setPort_bringUp (p : Nat) (x : Port) : (d.setPort p x).bringUp = d.bringUp := rfl
@[simp] theorem Device.setPort_parts (p : Nat) (x : Port) : (d.setPort p x).parts = d.parts := rfl
@[simp] theorem Device.setPort_dies (p : Nat) (x : Port) : (d.setPort p x).dies = d.dies := rfl
@[simp] theorem Device.setPort_cores (p : Nat) (x : Port) : (d.setPort p x).cores = d.cores := rfl
@[simp] theorem Device.setPort_launches (p : Nat) (x : Port) : (d.setPort p x).launches = d.launches := rfl
@[simp] theorem Device.setPort_teams (p : Nat) (x : Port) : (d.setPort p x).teams = d.teams := rfl
@[simp] theorem Device.setPort_groups (p : Nat) (x : Port) : (d.setPort p x).groups = d.groups := rfl
@[simp] theorem Device.setPort_fw (p : Nat) (x : Port) : (d.setPort p x).fw = d.fw := rfl
@[simp] theorem Device.setPort_mem (p : Nat) (x : Port) : (d.setPort p x).mem = d.mem := rfl
@[simp] theorem Device.setPort_pfLog (p : Nat) (x : Port) : (d.setPort p x).pfLog = d.pfLog := rfl
@[simp] theorem Device.setPort_tracing (p : Nat) (x : Port) : (d.setPort p x).tracing = d.tracing := rfl
@[simp] theorem Device.setPort_trace (p : Nat) (x : Port) : (d.setPort p x).trace = d.trace := rfl
@[simp] theorem Device.setPort_msgs (p : Nat) (x : Port) : (d.setPort p x).msgs = d.msgs := rfl
@[simp] theorem Device.setPort_hits (p : Nat) (x : Port) : (d.setPort p x).hits = d.hits := rfl
@[simp] theorem Device.setPort_slewDie (p : Nat) (x : Port) : (d.setPort p x).slewDie = d.slewDie := rfl
@[simp] theorem Device.setPort_drawn (p : Nat) (x : Port) : (d.setPort p x).drawn = d.drawn := rfl
@[simp] theorem Device.setPort_nextTeam (p : Nat) (x : Port) : (d.setPort p x).nextTeam = d.nextTeam := rfl
@[simp] theorem Device.setPort_nextLaunch (p : Nat) (x : Port) : (d.setPort p x).nextLaunch = d.nextLaunch := rfl
@[simp] theorem Device.setPort_nextGroup (p : Nat) (x : Port) : (d.setPort p x).nextGroup = d.nextGroup := rfl
@[simp] theorem Device.setPort_nextReq (p : Nat) (x : Port) : (d.setPort p x).nextReq = d.nextReq := rfl

-- setTeam

@[simp] theorem Device.setTeam_bringUp (t : Nat) (x : Team) : (d.setTeam t x).bringUp = d.bringUp := rfl
@[simp] theorem Device.setTeam_parts (t : Nat) (x : Team) : (d.setTeam t x).parts = d.parts := rfl
@[simp] theorem Device.setTeam_dies (t : Nat) (x : Team) : (d.setTeam t x).dies = d.dies := rfl
@[simp] theorem Device.setTeam_cores (t : Nat) (x : Team) : (d.setTeam t x).cores = d.cores := rfl
@[simp] theorem Device.setTeam_launches (t : Nat) (x : Team) : (d.setTeam t x).launches = d.launches := rfl
@[simp] theorem Device.setTeam_groups (t : Nat) (x : Team) : (d.setTeam t x).groups = d.groups := rfl
@[simp] theorem Device.setTeam_fw (t : Nat) (x : Team) : (d.setTeam t x).fw = d.fw := rfl
@[simp] theorem Device.setTeam_ports (t : Nat) (x : Team) : (d.setTeam t x).ports = d.ports := rfl
@[simp] theorem Device.setTeam_mem (t : Nat) (x : Team) : (d.setTeam t x).mem = d.mem := rfl
@[simp] theorem Device.setTeam_pfLog (t : Nat) (x : Team) : (d.setTeam t x).pfLog = d.pfLog := rfl
@[simp] theorem Device.setTeam_tracing (t : Nat) (x : Team) : (d.setTeam t x).tracing = d.tracing := rfl
@[simp] theorem Device.setTeam_trace (t : Nat) (x : Team) : (d.setTeam t x).trace = d.trace := rfl
@[simp] theorem Device.setTeam_msgs (t : Nat) (x : Team) : (d.setTeam t x).msgs = d.msgs := rfl
@[simp] theorem Device.setTeam_hits (t : Nat) (x : Team) : (d.setTeam t x).hits = d.hits := rfl
@[simp] theorem Device.setTeam_slewDie (t : Nat) (x : Team) : (d.setTeam t x).slewDie = d.slewDie := rfl
@[simp] theorem Device.setTeam_drawn (t : Nat) (x : Team) : (d.setTeam t x).drawn = d.drawn := rfl
@[simp] theorem Device.setTeam_nextTeam (t : Nat) (x : Team) : (d.setTeam t x).nextTeam = d.nextTeam := rfl
@[simp] theorem Device.setTeam_nextLaunch (t : Nat) (x : Team) : (d.setTeam t x).nextLaunch = d.nextLaunch := rfl
@[simp] theorem Device.setTeam_nextGroup (t : Nat) (x : Team) : (d.setTeam t x).nextGroup = d.nextGroup := rfl
@[simp] theorem Device.setTeam_nextReq (t : Nat) (x : Team) : (d.setTeam t x).nextReq = d.nextReq := rfl

-- setLaunch

@[simp] theorem Device.setLaunch_bringUp (l : Nat) (x : Launch) : (d.setLaunch l x).bringUp = d.bringUp := rfl
@[simp] theorem Device.setLaunch_parts (l : Nat) (x : Launch) : (d.setLaunch l x).parts = d.parts := rfl
@[simp] theorem Device.setLaunch_dies (l : Nat) (x : Launch) : (d.setLaunch l x).dies = d.dies := rfl
@[simp] theorem Device.setLaunch_cores (l : Nat) (x : Launch) : (d.setLaunch l x).cores = d.cores := rfl
@[simp] theorem Device.setLaunch_teams (l : Nat) (x : Launch) : (d.setLaunch l x).teams = d.teams := rfl
@[simp] theorem Device.setLaunch_groups (l : Nat) (x : Launch) : (d.setLaunch l x).groups = d.groups := rfl
@[simp] theorem Device.setLaunch_fw (l : Nat) (x : Launch) : (d.setLaunch l x).fw = d.fw := rfl
@[simp] theorem Device.setLaunch_ports (l : Nat) (x : Launch) : (d.setLaunch l x).ports = d.ports := rfl
@[simp] theorem Device.setLaunch_mem (l : Nat) (x : Launch) : (d.setLaunch l x).mem = d.mem := rfl
@[simp] theorem Device.setLaunch_pfLog (l : Nat) (x : Launch) : (d.setLaunch l x).pfLog = d.pfLog := rfl
@[simp] theorem Device.setLaunch_tracing (l : Nat) (x : Launch) : (d.setLaunch l x).tracing = d.tracing := rfl
@[simp] theorem Device.setLaunch_trace (l : Nat) (x : Launch) : (d.setLaunch l x).trace = d.trace := rfl
@[simp] theorem Device.setLaunch_msgs (l : Nat) (x : Launch) : (d.setLaunch l x).msgs = d.msgs := rfl
@[simp] theorem Device.setLaunch_hits (l : Nat) (x : Launch) : (d.setLaunch l x).hits = d.hits := rfl
@[simp] theorem Device.setLaunch_slewDie (l : Nat) (x : Launch) : (d.setLaunch l x).slewDie = d.slewDie := rfl
@[simp] theorem Device.setLaunch_drawn (l : Nat) (x : Launch) : (d.setLaunch l x).drawn = d.drawn := rfl
@[simp] theorem Device.setLaunch_nextTeam (l : Nat) (x : Launch) : (d.setLaunch l x).nextTeam = d.nextTeam := rfl
@[simp] theorem Device.setLaunch_nextLaunch (l : Nat) (x : Launch) : (d.setLaunch l x).nextLaunch = d.nextLaunch := rfl
@[simp] theorem Device.setLaunch_nextGroup (l : Nat) (x : Launch) : (d.setLaunch l x).nextGroup = d.nextGroup := rfl
@[simp] theorem Device.setLaunch_nextReq (l : Nat) (x : Launch) : (d.setLaunch l x).nextReq = d.nextReq := rfl

-- modMem

@[simp] theorem Device.modMem_bringUp (f : Mem → Mem) : (d.modMem f).bringUp = d.bringUp := rfl
@[simp] theorem Device.modMem_parts (f : Mem → Mem) : (d.modMem f).parts = d.parts := rfl
@[simp] theorem Device.modMem_dies (f : Mem → Mem) : (d.modMem f).dies = d.dies := rfl
@[simp] theorem Device.modMem_cores (f : Mem → Mem) : (d.modMem f).cores = d.cores := rfl
@[simp] theorem Device.modMem_launches (f : Mem → Mem) : (d.modMem f).launches = d.launches := rfl
@[simp] theorem Device.modMem_teams (f : Mem → Mem) : (d.modMem f).teams = d.teams := rfl
@[simp] theorem Device.modMem_groups (f : Mem → Mem) : (d.modMem f).groups = d.groups := rfl
@[simp] theorem Device.modMem_fw (f : Mem → Mem) : (d.modMem f).fw = d.fw := rfl
@[simp] theorem Device.modMem_ports (f : Mem → Mem) : (d.modMem f).ports = d.ports := rfl
@[simp] theorem Device.modMem_pfLog (f : Mem → Mem) : (d.modMem f).pfLog = d.pfLog := rfl
@[simp] theorem Device.modMem_tracing (f : Mem → Mem) : (d.modMem f).tracing = d.tracing := rfl
@[simp] theorem Device.modMem_trace (f : Mem → Mem) : (d.modMem f).trace = d.trace := rfl
@[simp] theorem Device.modMem_msgs (f : Mem → Mem) : (d.modMem f).msgs = d.msgs := rfl
@[simp] theorem Device.modMem_hits (f : Mem → Mem) : (d.modMem f).hits = d.hits := rfl
@[simp] theorem Device.modMem_slewDie (f : Mem → Mem) : (d.modMem f).slewDie = d.slewDie := rfl
@[simp] theorem Device.modMem_drawn (f : Mem → Mem) : (d.modMem f).drawn = d.drawn := rfl
@[simp] theorem Device.modMem_nextTeam (f : Mem → Mem) : (d.modMem f).nextTeam = d.nextTeam := rfl
@[simp] theorem Device.modMem_nextLaunch (f : Mem → Mem) : (d.modMem f).nextLaunch = d.nextLaunch := rfl
@[simp] theorem Device.modMem_nextGroup (f : Mem → Mem) : (d.modMem f).nextGroup = d.nextGroup := rfl
@[simp] theorem Device.modMem_nextReq (f : Mem → Mem) : (d.modMem f).nextReq = d.nextReq := rfl

-- modCore

@[simp] theorem Device.modCore_bringUp (c : Nat) (f : Core → Core) : (d.modCore c f).bringUp = d.bringUp := rfl
@[simp] theorem Device.modCore_parts (c : Nat) (f : Core → Core) : (d.modCore c f).parts = d.parts := rfl
@[simp] theorem Device.modCore_dies (c : Nat) (f : Core → Core) : (d.modCore c f).dies = d.dies := rfl
@[simp] theorem Device.modCore_launches (c : Nat) (f : Core → Core) : (d.modCore c f).launches = d.launches := rfl
@[simp] theorem Device.modCore_teams (c : Nat) (f : Core → Core) : (d.modCore c f).teams = d.teams := rfl
@[simp] theorem Device.modCore_groups (c : Nat) (f : Core → Core) : (d.modCore c f).groups = d.groups := rfl
@[simp] theorem Device.modCore_fw (c : Nat) (f : Core → Core) : (d.modCore c f).fw = d.fw := rfl
@[simp] theorem Device.modCore_ports (c : Nat) (f : Core → Core) : (d.modCore c f).ports = d.ports := rfl
@[simp] theorem Device.modCore_mem (c : Nat) (f : Core → Core) : (d.modCore c f).mem = d.mem := rfl
@[simp] theorem Device.modCore_pfLog (c : Nat) (f : Core → Core) : (d.modCore c f).pfLog = d.pfLog := rfl
@[simp] theorem Device.modCore_tracing (c : Nat) (f : Core → Core) : (d.modCore c f).tracing = d.tracing := rfl
@[simp] theorem Device.modCore_trace (c : Nat) (f : Core → Core) : (d.modCore c f).trace = d.trace := rfl
@[simp] theorem Device.modCore_msgs (c : Nat) (f : Core → Core) : (d.modCore c f).msgs = d.msgs := rfl
@[simp] theorem Device.modCore_hits (c : Nat) (f : Core → Core) : (d.modCore c f).hits = d.hits := rfl
@[simp] theorem Device.modCore_slewDie (c : Nat) (f : Core → Core) : (d.modCore c f).slewDie = d.slewDie := rfl
@[simp] theorem Device.modCore_drawn (c : Nat) (f : Core → Core) : (d.modCore c f).drawn = d.drawn := rfl
@[simp] theorem Device.modCore_nextTeam (c : Nat) (f : Core → Core) : (d.modCore c f).nextTeam = d.nextTeam := rfl
@[simp] theorem Device.modCore_nextLaunch (c : Nat) (f : Core → Core) : (d.modCore c f).nextLaunch = d.nextLaunch := rfl
@[simp] theorem Device.modCore_nextGroup (c : Nat) (f : Core → Core) : (d.modCore c f).nextGroup = d.nextGroup := rfl
@[simp] theorem Device.modCore_nextReq (c : Nat) (f : Core → Core) : (d.modCore c f).nextReq = d.nextReq := rfl

-- modDie

@[simp] theorem Device.modDie_bringUp (i : Nat) (f : Die → Die) : (d.modDie i f).bringUp = d.bringUp := rfl
@[simp] theorem Device.modDie_parts (i : Nat) (f : Die → Die) : (d.modDie i f).parts = d.parts := rfl
@[simp] theorem Device.modDie_cores (i : Nat) (f : Die → Die) : (d.modDie i f).cores = d.cores := rfl
@[simp] theorem Device.modDie_launches (i : Nat) (f : Die → Die) : (d.modDie i f).launches = d.launches := rfl
@[simp] theorem Device.modDie_teams (i : Nat) (f : Die → Die) : (d.modDie i f).teams = d.teams := rfl
@[simp] theorem Device.modDie_groups (i : Nat) (f : Die → Die) : (d.modDie i f).groups = d.groups := rfl
@[simp] theorem Device.modDie_fw (i : Nat) (f : Die → Die) : (d.modDie i f).fw = d.fw := rfl
@[simp] theorem Device.modDie_ports (i : Nat) (f : Die → Die) : (d.modDie i f).ports = d.ports := rfl
@[simp] theorem Device.modDie_mem (i : Nat) (f : Die → Die) : (d.modDie i f).mem = d.mem := rfl
@[simp] theorem Device.modDie_pfLog (i : Nat) (f : Die → Die) : (d.modDie i f).pfLog = d.pfLog := rfl
@[simp] theorem Device.modDie_tracing (i : Nat) (f : Die → Die) : (d.modDie i f).tracing = d.tracing := rfl
@[simp] theorem Device.modDie_trace (i : Nat) (f : Die → Die) : (d.modDie i f).trace = d.trace := rfl
@[simp] theorem Device.modDie_msgs (i : Nat) (f : Die → Die) : (d.modDie i f).msgs = d.msgs := rfl
@[simp] theorem Device.modDie_hits (i : Nat) (f : Die → Die) : (d.modDie i f).hits = d.hits := rfl
@[simp] theorem Device.modDie_slewDie (i : Nat) (f : Die → Die) : (d.modDie i f).slewDie = d.slewDie := rfl
@[simp] theorem Device.modDie_drawn (i : Nat) (f : Die → Die) : (d.modDie i f).drawn = d.drawn := rfl
@[simp] theorem Device.modDie_nextTeam (i : Nat) (f : Die → Die) : (d.modDie i f).nextTeam = d.nextTeam := rfl
@[simp] theorem Device.modDie_nextLaunch (i : Nat) (f : Die → Die) : (d.modDie i f).nextLaunch = d.nextLaunch := rfl
@[simp] theorem Device.modDie_nextGroup (i : Nat) (f : Die → Die) : (d.modDie i f).nextGroup = d.nextGroup := rfl
@[simp] theorem Device.modDie_nextReq (i : Nat) (f : Die → Die) : (d.modDie i f).nextReq = d.nextReq := rfl

-- modPart

@[simp] theorem Device.modPart_bringUp (p : Nat) (f : Part → Part) : (d.modPart p f).bringUp = d.bringUp := rfl
@[simp] theorem Device.modPart_dies (p : Nat) (f : Part → Part) : (d.modPart p f).dies = d.dies := rfl
@[simp] theorem Device.modPart_cores (p : Nat) (f : Part → Part) : (d.modPart p f).cores = d.cores := rfl
@[simp] theorem Device.modPart_launches (p : Nat) (f : Part → Part) : (d.modPart p f).launches = d.launches := rfl
@[simp] theorem Device.modPart_teams (p : Nat) (f : Part → Part) : (d.modPart p f).teams = d.teams := rfl
@[simp] theorem Device.modPart_groups (p : Nat) (f : Part → Part) : (d.modPart p f).groups = d.groups := rfl
@[simp] theorem Device.modPart_fw (p : Nat) (f : Part → Part) : (d.modPart p f).fw = d.fw := rfl
@[simp] theorem Device.modPart_ports (p : Nat) (f : Part → Part) : (d.modPart p f).ports = d.ports := rfl
@[simp] theorem Device.modPart_mem (p : Nat) (f : Part → Part) : (d.modPart p f).mem = d.mem := rfl
@[simp] theorem Device.modPart_pfLog (p : Nat) (f : Part → Part) : (d.modPart p f).pfLog = d.pfLog := rfl
@[simp] theorem Device.modPart_tracing (p : Nat) (f : Part → Part) : (d.modPart p f).tracing = d.tracing := rfl
@[simp] theorem Device.modPart_trace (p : Nat) (f : Part → Part) : (d.modPart p f).trace = d.trace := rfl
@[simp] theorem Device.modPart_msgs (p : Nat) (f : Part → Part) : (d.modPart p f).msgs = d.msgs := rfl
@[simp] theorem Device.modPart_hits (p : Nat) (f : Part → Part) : (d.modPart p f).hits = d.hits := rfl
@[simp] theorem Device.modPart_slewDie (p : Nat) (f : Part → Part) : (d.modPart p f).slewDie = d.slewDie := rfl
@[simp] theorem Device.modPart_drawn (p : Nat) (f : Part → Part) : (d.modPart p f).drawn = d.drawn := rfl
@[simp] theorem Device.modPart_nextTeam (p : Nat) (f : Part → Part) : (d.modPart p f).nextTeam = d.nextTeam := rfl
@[simp] theorem Device.modPart_nextLaunch (p : Nat) (f : Part → Part) : (d.modPart p f).nextLaunch = d.nextLaunch := rfl
@[simp] theorem Device.modPart_nextGroup (p : Nat) (f : Part → Part) : (d.modPart p f).nextGroup = d.nextGroup := rfl
@[simp] theorem Device.modPart_nextReq (p : Nat) (f : Part → Part) : (d.modPart p f).nextReq = d.nextReq := rfl

-- modPort

@[simp] theorem Device.modPort_bringUp (p : Nat) (f : Port → Port) : (d.modPort p f).bringUp = d.bringUp := rfl
@[simp] theorem Device.modPort_parts (p : Nat) (f : Port → Port) : (d.modPort p f).parts = d.parts := rfl
@[simp] theorem Device.modPort_dies (p : Nat) (f : Port → Port) : (d.modPort p f).dies = d.dies := rfl
@[simp] theorem Device.modPort_cores (p : Nat) (f : Port → Port) : (d.modPort p f).cores = d.cores := rfl
@[simp] theorem Device.modPort_launches (p : Nat) (f : Port → Port) : (d.modPort p f).launches = d.launches := rfl
@[simp] theorem Device.modPort_teams (p : Nat) (f : Port → Port) : (d.modPort p f).teams = d.teams := rfl
@[simp] theorem Device.modPort_groups (p : Nat) (f : Port → Port) : (d.modPort p f).groups = d.groups := rfl
@[simp] theorem Device.modPort_fw (p : Nat) (f : Port → Port) : (d.modPort p f).fw = d.fw := rfl
@[simp] theorem Device.modPort_mem (p : Nat) (f : Port → Port) : (d.modPort p f).mem = d.mem := rfl
@[simp] theorem Device.modPort_pfLog (p : Nat) (f : Port → Port) : (d.modPort p f).pfLog = d.pfLog := rfl
@[simp] theorem Device.modPort_tracing (p : Nat) (f : Port → Port) : (d.modPort p f).tracing = d.tracing := rfl
@[simp] theorem Device.modPort_trace (p : Nat) (f : Port → Port) : (d.modPort p f).trace = d.trace := rfl
@[simp] theorem Device.modPort_msgs (p : Nat) (f : Port → Port) : (d.modPort p f).msgs = d.msgs := rfl
@[simp] theorem Device.modPort_hits (p : Nat) (f : Port → Port) : (d.modPort p f).hits = d.hits := rfl
@[simp] theorem Device.modPort_slewDie (p : Nat) (f : Port → Port) : (d.modPort p f).slewDie = d.slewDie := rfl
@[simp] theorem Device.modPort_drawn (p : Nat) (f : Port → Port) : (d.modPort p f).drawn = d.drawn := rfl
@[simp] theorem Device.modPort_nextTeam (p : Nat) (f : Port → Port) : (d.modPort p f).nextTeam = d.nextTeam := rfl
@[simp] theorem Device.modPort_nextLaunch (p : Nat) (f : Port → Port) : (d.modPort p f).nextLaunch = d.nextLaunch := rfl
@[simp] theorem Device.modPort_nextGroup (p : Nat) (f : Port → Port) : (d.modPort p f).nextGroup = d.nextGroup := rfl
@[simp] theorem Device.modPort_nextReq (p : Nat) (f : Port → Port) : (d.modPort p f).nextReq = d.nextReq := rfl

-- setGroup

@[simp] theorem Device.setGroup_bringUp (g : Gid) (x : Group) : (d.setGroup g x).bringUp = d.bringUp := by cases g <;> rfl
@[simp] theorem Device.setGroup_parts (g : Gid) (x : Group) : (d.setGroup g x).parts = d.parts := by cases g <;> rfl
@[simp] theorem Device.setGroup_dies (g : Gid) (x : Group) : (d.setGroup g x).dies = d.dies := by cases g <;> rfl
@[simp] theorem Device.setGroup_cores (g : Gid) (x : Group) : (d.setGroup g x).cores = d.cores := by cases g <;> rfl
@[simp] theorem Device.setGroup_launches (g : Gid) (x : Group) : (d.setGroup g x).launches = d.launches := by cases g <;> rfl
@[simp] theorem Device.setGroup_teams (g : Gid) (x : Group) : (d.setGroup g x).teams = d.teams := by cases g <;> rfl
@[simp] theorem Device.setGroup_ports (g : Gid) (x : Group) : (d.setGroup g x).ports = d.ports := by cases g <;> rfl
@[simp] theorem Device.setGroup_mem (g : Gid) (x : Group) : (d.setGroup g x).mem = d.mem := by cases g <;> rfl
@[simp] theorem Device.setGroup_pfLog (g : Gid) (x : Group) : (d.setGroup g x).pfLog = d.pfLog := by cases g <;> rfl
@[simp] theorem Device.setGroup_tracing (g : Gid) (x : Group) : (d.setGroup g x).tracing = d.tracing := by cases g <;> rfl
@[simp] theorem Device.setGroup_trace (g : Gid) (x : Group) : (d.setGroup g x).trace = d.trace := by cases g <;> rfl
@[simp] theorem Device.setGroup_msgs (g : Gid) (x : Group) : (d.setGroup g x).msgs = d.msgs := by cases g <;> rfl
@[simp] theorem Device.setGroup_hits (g : Gid) (x : Group) : (d.setGroup g x).hits = d.hits := by cases g <;> rfl
@[simp] theorem Device.setGroup_slewDie (g : Gid) (x : Group) : (d.setGroup g x).slewDie = d.slewDie := by cases g <;> rfl
@[simp] theorem Device.setGroup_drawn (g : Gid) (x : Group) : (d.setGroup g x).drawn = d.drawn := by cases g <;> rfl
@[simp] theorem Device.setGroup_nextTeam (g : Gid) (x : Group) : (d.setGroup g x).nextTeam = d.nextTeam := by cases g <;> rfl
@[simp] theorem Device.setGroup_nextLaunch (g : Gid) (x : Group) : (d.setGroup g x).nextLaunch = d.nextLaunch := by cases g <;> rfl
@[simp] theorem Device.setGroup_nextGroup (g : Gid) (x : Group) : (d.setGroup g x).nextGroup = d.nextGroup := by cases g <;> rfl
@[simp] theorem Device.setGroup_nextReq (g : Gid) (x : Group) : (d.setGroup g x).nextReq = d.nextReq := by cases g <;> rfl

-- modGroup

@[simp] theorem Device.modGroup_bringUp (g : Gid) (f : Group → Group) : (d.modGroup g f).bringUp = d.bringUp := by
  unfold Device.modGroup; split <;> simp
@[simp] theorem Device.modGroup_parts (g : Gid) (f : Group → Group) : (d.modGroup g f).parts = d.parts := by
  unfold Device.modGroup; split <;> simp
@[simp] theorem Device.modGroup_dies (g : Gid) (f : Group → Group) : (d.modGroup g f).dies = d.dies := by
  unfold Device.modGroup; split <;> simp
@[simp] theorem Device.modGroup_cores (g : Gid) (f : Group → Group) : (d.modGroup g f).cores = d.cores := by
  unfold Device.modGroup; split <;> simp
@[simp] theorem Device.modGroup_launches (g : Gid) (f : Group → Group) : (d.modGroup g f).launches = d.launches := by
  unfold Device.modGroup; split <;> simp
@[simp] theorem Device.modGroup_teams (g : Gid) (f : Group → Group) : (d.modGroup g f).teams = d.teams := by
  unfold Device.modGroup; split <;> simp
@[simp] theorem Device.modGroup_ports (g : Gid) (f : Group → Group) : (d.modGroup g f).ports = d.ports := by
  unfold Device.modGroup; split <;> simp
@[simp] theorem Device.modGroup_mem (g : Gid) (f : Group → Group) : (d.modGroup g f).mem = d.mem := by
  unfold Device.modGroup; split <;> simp
@[simp] theorem Device.modGroup_pfLog (g : Gid) (f : Group → Group) : (d.modGroup g f).pfLog = d.pfLog := by
  unfold Device.modGroup; split <;> simp
@[simp] theorem Device.modGroup_tracing (g : Gid) (f : Group → Group) : (d.modGroup g f).tracing = d.tracing := by
  unfold Device.modGroup; split <;> simp
@[simp] theorem Device.modGroup_trace (g : Gid) (f : Group → Group) : (d.modGroup g f).trace = d.trace := by
  unfold Device.modGroup; split <;> simp
@[simp] theorem Device.modGroup_msgs (g : Gid) (f : Group → Group) : (d.modGroup g f).msgs = d.msgs := by
  unfold Device.modGroup; split <;> simp
@[simp] theorem Device.modGroup_hits (g : Gid) (f : Group → Group) : (d.modGroup g f).hits = d.hits := by
  unfold Device.modGroup; split <;> simp
@[simp] theorem Device.modGroup_slewDie (g : Gid) (f : Group → Group) : (d.modGroup g f).slewDie = d.slewDie := by
  unfold Device.modGroup; split <;> simp
@[simp] theorem Device.modGroup_drawn (g : Gid) (f : Group → Group) : (d.modGroup g f).drawn = d.drawn := by
  unfold Device.modGroup; split <;> simp
@[simp] theorem Device.modGroup_nextTeam (g : Gid) (f : Group → Group) : (d.modGroup g f).nextTeam = d.nextTeam := by
  unfold Device.modGroup; split <;> simp
@[simp] theorem Device.modGroup_nextLaunch (g : Gid) (f : Group → Group) : (d.modGroup g f).nextLaunch = d.nextLaunch := by
  unfold Device.modGroup; split <;> simp
@[simp] theorem Device.modGroup_nextGroup (g : Gid) (f : Group → Group) : (d.modGroup g f).nextGroup = d.nextGroup := by
  unfold Device.modGroup; split <;> simp
@[simp] theorem Device.modGroup_nextReq (g : Gid) (f : Group → Group) : (d.modGroup g f).nextReq = d.nextReq := by
  unfold Device.modGroup; split <;> simp

-- modTeam

@[simp] theorem Device.modTeam_bringUp (t : Nat) (f : Team → Team) : (d.modTeam t f).bringUp = d.bringUp := by
  unfold Device.modTeam; split <;> simp
@[simp] theorem Device.modTeam_parts (t : Nat) (f : Team → Team) : (d.modTeam t f).parts = d.parts := by
  unfold Device.modTeam; split <;> simp
@[simp] theorem Device.modTeam_dies (t : Nat) (f : Team → Team) : (d.modTeam t f).dies = d.dies := by
  unfold Device.modTeam; split <;> simp
@[simp] theorem Device.modTeam_cores (t : Nat) (f : Team → Team) : (d.modTeam t f).cores = d.cores := by
  unfold Device.modTeam; split <;> simp
@[simp] theorem Device.modTeam_launches (t : Nat) (f : Team → Team) : (d.modTeam t f).launches = d.launches := by
  unfold Device.modTeam; split <;> simp
@[simp] theorem Device.modTeam_groups (t : Nat) (f : Team → Team) : (d.modTeam t f).groups = d.groups := by
  unfold Device.modTeam; split <;> simp
@[simp] theorem Device.modTeam_fw (t : Nat) (f : Team → Team) : (d.modTeam t f).fw = d.fw := by
  unfold Device.modTeam; split <;> simp
@[simp] theorem Device.modTeam_ports (t : Nat) (f : Team → Team) : (d.modTeam t f).ports = d.ports := by
  unfold Device.modTeam; split <;> simp
@[simp] theorem Device.modTeam_mem (t : Nat) (f : Team → Team) : (d.modTeam t f).mem = d.mem := by
  unfold Device.modTeam; split <;> simp
@[simp] theorem Device.modTeam_pfLog (t : Nat) (f : Team → Team) : (d.modTeam t f).pfLog = d.pfLog := by
  unfold Device.modTeam; split <;> simp
@[simp] theorem Device.modTeam_tracing (t : Nat) (f : Team → Team) : (d.modTeam t f).tracing = d.tracing := by
  unfold Device.modTeam; split <;> simp
@[simp] theorem Device.modTeam_trace (t : Nat) (f : Team → Team) : (d.modTeam t f).trace = d.trace := by
  unfold Device.modTeam; split <;> simp
@[simp] theorem Device.modTeam_msgs (t : Nat) (f : Team → Team) : (d.modTeam t f).msgs = d.msgs := by
  unfold Device.modTeam; split <;> simp
@[simp] theorem Device.modTeam_hits (t : Nat) (f : Team → Team) : (d.modTeam t f).hits = d.hits := by
  unfold Device.modTeam; split <;> simp
@[simp] theorem Device.modTeam_slewDie (t : Nat) (f : Team → Team) : (d.modTeam t f).slewDie = d.slewDie := by
  unfold Device.modTeam; split <;> simp
@[simp] theorem Device.modTeam_drawn (t : Nat) (f : Team → Team) : (d.modTeam t f).drawn = d.drawn := by
  unfold Device.modTeam; split <;> simp
@[simp] theorem Device.modTeam_nextTeam (t : Nat) (f : Team → Team) : (d.modTeam t f).nextTeam = d.nextTeam := by
  unfold Device.modTeam; split <;> simp
@[simp] theorem Device.modTeam_nextLaunch (t : Nat) (f : Team → Team) : (d.modTeam t f).nextLaunch = d.nextLaunch := by
  unfold Device.modTeam; split <;> simp
@[simp] theorem Device.modTeam_nextGroup (t : Nat) (f : Team → Team) : (d.modTeam t f).nextGroup = d.nextGroup := by
  unfold Device.modTeam; split <;> simp
@[simp] theorem Device.modTeam_nextReq (t : Nat) (f : Team → Team) : (d.modTeam t f).nextReq = d.nextReq := by
  unfold Device.modTeam; split <;> simp

-- modLaunch

@[simp] theorem Device.modLaunch_bringUp (l : Nat) (f : Launch → Launch) : (d.modLaunch l f).bringUp = d.bringUp := by
  unfold Device.modLaunch; split <;> simp
@[simp] theorem Device.modLaunch_parts (l : Nat) (f : Launch → Launch) : (d.modLaunch l f).parts = d.parts := by
  unfold Device.modLaunch; split <;> simp
@[simp] theorem Device.modLaunch_dies (l : Nat) (f : Launch → Launch) : (d.modLaunch l f).dies = d.dies := by
  unfold Device.modLaunch; split <;> simp
@[simp] theorem Device.modLaunch_cores (l : Nat) (f : Launch → Launch) : (d.modLaunch l f).cores = d.cores := by
  unfold Device.modLaunch; split <;> simp
@[simp] theorem Device.modLaunch_teams (l : Nat) (f : Launch → Launch) : (d.modLaunch l f).teams = d.teams := by
  unfold Device.modLaunch; split <;> simp
@[simp] theorem Device.modLaunch_groups (l : Nat) (f : Launch → Launch) : (d.modLaunch l f).groups = d.groups := by
  unfold Device.modLaunch; split <;> simp
@[simp] theorem Device.modLaunch_fw (l : Nat) (f : Launch → Launch) : (d.modLaunch l f).fw = d.fw := by
  unfold Device.modLaunch; split <;> simp
@[simp] theorem Device.modLaunch_ports (l : Nat) (f : Launch → Launch) : (d.modLaunch l f).ports = d.ports := by
  unfold Device.modLaunch; split <;> simp
@[simp] theorem Device.modLaunch_mem (l : Nat) (f : Launch → Launch) : (d.modLaunch l f).mem = d.mem := by
  unfold Device.modLaunch; split <;> simp
@[simp] theorem Device.modLaunch_pfLog (l : Nat) (f : Launch → Launch) : (d.modLaunch l f).pfLog = d.pfLog := by
  unfold Device.modLaunch; split <;> simp
@[simp] theorem Device.modLaunch_tracing (l : Nat) (f : Launch → Launch) : (d.modLaunch l f).tracing = d.tracing := by
  unfold Device.modLaunch; split <;> simp
@[simp] theorem Device.modLaunch_trace (l : Nat) (f : Launch → Launch) : (d.modLaunch l f).trace = d.trace := by
  unfold Device.modLaunch; split <;> simp
@[simp] theorem Device.modLaunch_msgs (l : Nat) (f : Launch → Launch) : (d.modLaunch l f).msgs = d.msgs := by
  unfold Device.modLaunch; split <;> simp
@[simp] theorem Device.modLaunch_hits (l : Nat) (f : Launch → Launch) : (d.modLaunch l f).hits = d.hits := by
  unfold Device.modLaunch; split <;> simp
@[simp] theorem Device.modLaunch_slewDie (l : Nat) (f : Launch → Launch) : (d.modLaunch l f).slewDie = d.slewDie := by
  unfold Device.modLaunch; split <;> simp
@[simp] theorem Device.modLaunch_drawn (l : Nat) (f : Launch → Launch) : (d.modLaunch l f).drawn = d.drawn := by
  unfold Device.modLaunch; split <;> simp
@[simp] theorem Device.modLaunch_nextTeam (l : Nat) (f : Launch → Launch) : (d.modLaunch l f).nextTeam = d.nextTeam := by
  unfold Device.modLaunch; split <;> simp
@[simp] theorem Device.modLaunch_nextLaunch (l : Nat) (f : Launch → Launch) : (d.modLaunch l f).nextLaunch = d.nextLaunch := by
  unfold Device.modLaunch; split <;> simp
@[simp] theorem Device.modLaunch_nextGroup (l : Nat) (f : Launch → Launch) : (d.modLaunch l f).nextGroup = d.nextGroup := by
  unfold Device.modLaunch; split <;> simp
@[simp] theorem Device.modLaunch_nextReq (l : Nat) (f : Launch → Launch) : (d.modLaunch l f).nextReq = d.nextReq := by
  unfold Device.modLaunch; split <;> simp

-- accessors after updates

@[simp] theorem Device.core_setDie (i : Nat) (x : Die) (k : Nat) : (d.setDie i x).core k = d.core k := by simp [Device.core]
@[simp] theorem Device.core_setPart (p : Nat) (x : Part) (k : Nat) : (d.setPart p x).core k = d.core k := by simp [Device.core]
@[simp] theorem Device.core_setPort (p : Nat) (x : Port) (k : Nat) : (d.setPort p x).core k = d.core k := by simp [Device.core]
@[simp] theorem Device.core_setTeam (t : Nat) (x : Team) (k : Nat) : (d.setTeam t x).core k = d.core k := by simp [Device.core]
@[simp] theorem Device.core_setLaunch (l : Nat) (x : Launch) (k : Nat) : (d.setLaunch l x).core k = d.core k := by simp [Device.core]
@[simp] theorem Device.core_modMem (f : Mem → Mem) (k : Nat) : (d.modMem f).core k = d.core k := by simp [Device.core]
@[simp] theorem Device.core_modDie (i : Nat) (f : Die → Die) (k : Nat) : (d.modDie i f).core k = d.core k := by simp [Device.core]
@[simp] theorem Device.core_modPart (p : Nat) (f : Part → Part) (k : Nat) : (d.modPart p f).core k = d.core k := by simp [Device.core]
@[simp] theorem Device.core_modPort (p : Nat) (f : Port → Port) (k : Nat) : (d.modPort p f).core k = d.core k := by simp [Device.core]
@[simp] theorem Device.core_setGroup (g : Gid) (x : Group) (k : Nat) : (d.setGroup g x).core k = d.core k := by simp [Device.core]
@[simp] theorem Device.core_modGroup (g : Gid) (f : Group → Group) (k : Nat) : (d.modGroup g f).core k = d.core k := by simp [Device.core]
@[simp] theorem Device.core_modTeam (t : Nat) (f : Team → Team) (k : Nat) : (d.modTeam t f).core k = d.core k := by simp [Device.core]
@[simp] theorem Device.core_modLaunch (l : Nat) (f : Launch → Launch) (k : Nat) : (d.modLaunch l f).core k = d.core k := by simp [Device.core]

@[simp] theorem Device.die_setCore (c : Nat) (x : Core) (k : Nat) : (d.setCore c x).die k = d.die k := by simp [Device.die]
@[simp] theorem Device.die_setPart (p : Nat) (x : Part) (k : Nat) : (d.setPart p x).die k = d.die k := by simp [Device.die]
@[simp] theorem Device.die_setPort (p : Nat) (x : Port) (k : Nat) : (d.setPort p x).die k = d.die k := by simp [Device.die]
@[simp] theorem Device.die_setTeam (t : Nat) (x : Team) (k : Nat) : (d.setTeam t x).die k = d.die k := by simp [Device.die]
@[simp] theorem Device.die_setLaunch (l : Nat) (x : Launch) (k : Nat) : (d.setLaunch l x).die k = d.die k := by simp [Device.die]
@[simp] theorem Device.die_modMem (f : Mem → Mem) (k : Nat) : (d.modMem f).die k = d.die k := by simp [Device.die]
@[simp] theorem Device.die_modCore (c : Nat) (f : Core → Core) (k : Nat) : (d.modCore c f).die k = d.die k := by simp [Device.die]
@[simp] theorem Device.die_modPart (p : Nat) (f : Part → Part) (k : Nat) : (d.modPart p f).die k = d.die k := by simp [Device.die]
@[simp] theorem Device.die_modPort (p : Nat) (f : Port → Port) (k : Nat) : (d.modPort p f).die k = d.die k := by simp [Device.die]
@[simp] theorem Device.die_setGroup (g : Gid) (x : Group) (k : Nat) : (d.setGroup g x).die k = d.die k := by simp [Device.die]
@[simp] theorem Device.die_modGroup (g : Gid) (f : Group → Group) (k : Nat) : (d.modGroup g f).die k = d.die k := by simp [Device.die]
@[simp] theorem Device.die_modTeam (t : Nat) (f : Team → Team) (k : Nat) : (d.modTeam t f).die k = d.die k := by simp [Device.die]
@[simp] theorem Device.die_modLaunch (l : Nat) (f : Launch → Launch) (k : Nat) : (d.modLaunch l f).die k = d.die k := by simp [Device.die]

@[simp] theorem Device.part_setCore (c : Nat) (x : Core) (k : Nat) : (d.setCore c x).part k = d.part k := by simp [Device.part]
@[simp] theorem Device.part_setDie (i : Nat) (x : Die) (k : Nat) : (d.setDie i x).part k = d.part k := by simp [Device.part]
@[simp] theorem Device.part_setPort (p : Nat) (x : Port) (k : Nat) : (d.setPort p x).part k = d.part k := by simp [Device.part]
@[simp] theorem Device.part_setTeam (t : Nat) (x : Team) (k : Nat) : (d.setTeam t x).part k = d.part k := by simp [Device.part]
@[simp] theorem Device.part_setLaunch (l : Nat) (x : Launch) (k : Nat) : (d.setLaunch l x).part k = d.part k := by simp [Device.part]
@[simp] theorem Device.part_modMem (f : Mem → Mem) (k : Nat) : (d.modMem f).part k = d.part k := by simp [Device.part]
@[simp] theorem Device.part_modCore (c : Nat) (f : Core → Core) (k : Nat) : (d.modCore c f).part k = d.part k := by simp [Device.part]
@[simp] theorem Device.part_modDie (i : Nat) (f : Die → Die) (k : Nat) : (d.modDie i f).part k = d.part k := by simp [Device.part]
@[simp] theorem Device.part_modPort (p : Nat) (f : Port → Port) (k : Nat) : (d.modPort p f).part k = d.part k := by simp [Device.part]
@[simp] theorem Device.part_setGroup (g : Gid) (x : Group) (k : Nat) : (d.setGroup g x).part k = d.part k := by simp [Device.part]
@[simp] theorem Device.part_modGroup (g : Gid) (f : Group → Group) (k : Nat) : (d.modGroup g f).part k = d.part k := by simp [Device.part]
@[simp] theorem Device.part_modTeam (t : Nat) (f : Team → Team) (k : Nat) : (d.modTeam t f).part k = d.part k := by simp [Device.part]
@[simp] theorem Device.part_modLaunch (l : Nat) (f : Launch → Launch) (k : Nat) : (d.modLaunch l f).part k = d.part k := by simp [Device.part]

@[simp] theorem Device.port_setCore (c : Nat) (x : Core) (k : Nat) : (d.setCore c x).port k = d.port k := by simp [Device.port]
@[simp] theorem Device.port_setDie (i : Nat) (x : Die) (k : Nat) : (d.setDie i x).port k = d.port k := by simp [Device.port]
@[simp] theorem Device.port_setPart (p : Nat) (x : Part) (k : Nat) : (d.setPart p x).port k = d.port k := by simp [Device.port]
@[simp] theorem Device.port_setTeam (t : Nat) (x : Team) (k : Nat) : (d.setTeam t x).port k = d.port k := by simp [Device.port]
@[simp] theorem Device.port_setLaunch (l : Nat) (x : Launch) (k : Nat) : (d.setLaunch l x).port k = d.port k := by simp [Device.port]
@[simp] theorem Device.port_modMem (f : Mem → Mem) (k : Nat) : (d.modMem f).port k = d.port k := by simp [Device.port]
@[simp] theorem Device.port_modCore (c : Nat) (f : Core → Core) (k : Nat) : (d.modCore c f).port k = d.port k := by simp [Device.port]
@[simp] theorem Device.port_modDie (i : Nat) (f : Die → Die) (k : Nat) : (d.modDie i f).port k = d.port k := by simp [Device.port]
@[simp] theorem Device.port_modPart (p : Nat) (f : Part → Part) (k : Nat) : (d.modPart p f).port k = d.port k := by simp [Device.port]
@[simp] theorem Device.port_setGroup (g : Gid) (x : Group) (k : Nat) : (d.setGroup g x).port k = d.port k := by simp [Device.port]
@[simp] theorem Device.port_modGroup (g : Gid) (f : Group → Group) (k : Nat) : (d.modGroup g f).port k = d.port k := by simp [Device.port]
@[simp] theorem Device.port_modTeam (t : Nat) (f : Team → Team) (k : Nat) : (d.modTeam t f).port k = d.port k := by simp [Device.port]
@[simp] theorem Device.port_modLaunch (l : Nat) (f : Launch → Launch) (k : Nat) : (d.modLaunch l f).port k = d.port k := by simp [Device.port]

@[simp] theorem Device.team_setCore (c : Nat) (x : Core) (k : Nat) : (d.setCore c x).team k = d.team k := by simp [Device.team]
@[simp] theorem Device.team_setDie (i : Nat) (x : Die) (k : Nat) : (d.setDie i x).team k = d.team k := by simp [Device.team]
@[simp] theorem Device.team_setPart (p : Nat) (x : Part) (k : Nat) : (d.setPart p x).team k = d.team k := by simp [Device.team]
@[simp] theorem Device.team_setPort (p : Nat) (x : Port) (k : Nat) : (d.setPort p x).team k = d.team k := by simp [Device.team]
@[simp] theorem Device.team_setLaunch (l : Nat) (x : Launch) (k : Nat) : (d.setLaunch l x).team k = d.team k := by simp [Device.team]
@[simp] theorem Device.team_modMem (f : Mem → Mem) (k : Nat) : (d.modMem f).team k = d.team k := by simp [Device.team]
@[simp] theorem Device.team_modCore (c : Nat) (f : Core → Core) (k : Nat) : (d.modCore c f).team k = d.team k := by simp [Device.team]
@[simp] theorem Device.team_modDie (i : Nat) (f : Die → Die) (k : Nat) : (d.modDie i f).team k = d.team k := by simp [Device.team]
@[simp] theorem Device.team_modPart (p : Nat) (f : Part → Part) (k : Nat) : (d.modPart p f).team k = d.team k := by simp [Device.team]
@[simp] theorem Device.team_modPort (p : Nat) (f : Port → Port) (k : Nat) : (d.modPort p f).team k = d.team k := by simp [Device.team]
@[simp] theorem Device.team_setGroup (g : Gid) (x : Group) (k : Nat) : (d.setGroup g x).team k = d.team k := by simp [Device.team]
@[simp] theorem Device.team_modGroup (g : Gid) (f : Group → Group) (k : Nat) : (d.modGroup g f).team k = d.team k := by simp [Device.team]
@[simp] theorem Device.team_modLaunch (l : Nat) (f : Launch → Launch) (k : Nat) : (d.modLaunch l f).team k = d.team k := by simp [Device.team]

@[simp] theorem Device.launch_setCore (c : Nat) (x : Core) (k : Nat) : (d.setCore c x).launch k = d.launch k := by simp [Device.launch]
@[simp] theorem Device.launch_setDie (i : Nat) (x : Die) (k : Nat) : (d.setDie i x).launch k = d.launch k := by simp [Device.launch]
@[simp] theorem Device.launch_setPart (p : Nat) (x : Part) (k : Nat) : (d.setPart p x).launch k = d.launch k := by simp [Device.launch]
@[simp] theorem Device.launch_setPort (p : Nat) (x : Port) (k : Nat) : (d.setPort p x).launch k = d.launch k := by simp [Device.launch]
@[simp] theorem Device.launch_setTeam (t : Nat) (x : Team) (k : Nat) : (d.setTeam t x).launch k = d.launch k := by simp [Device.launch]
@[simp] theorem Device.launch_modMem (f : Mem → Mem) (k : Nat) : (d.modMem f).launch k = d.launch k := by simp [Device.launch]
@[simp] theorem Device.launch_modCore (c : Nat) (f : Core → Core) (k : Nat) : (d.modCore c f).launch k = d.launch k := by simp [Device.launch]
@[simp] theorem Device.launch_modDie (i : Nat) (f : Die → Die) (k : Nat) : (d.modDie i f).launch k = d.launch k := by simp [Device.launch]
@[simp] theorem Device.launch_modPart (p : Nat) (f : Part → Part) (k : Nat) : (d.modPart p f).launch k = d.launch k := by simp [Device.launch]
@[simp] theorem Device.launch_modPort (p : Nat) (f : Port → Port) (k : Nat) : (d.modPort p f).launch k = d.launch k := by simp [Device.launch]
@[simp] theorem Device.launch_setGroup (g : Gid) (x : Group) (k : Nat) : (d.setGroup g x).launch k = d.launch k := by simp [Device.launch]
@[simp] theorem Device.launch_modGroup (g : Gid) (f : Group → Group) (k : Nat) : (d.modGroup g f).launch k = d.launch k := by simp [Device.launch]
@[simp] theorem Device.launch_modTeam (t : Nat) (f : Team → Team) (k : Nat) : (d.modTeam t f).launch k = d.launch k := by simp [Device.launch]

@[simp] theorem Device.group_setCore (c : Nat) (x : Core) (k : Gid) : (d.setCore c x).group k = d.group k := by cases k <;> simp [Device.group]
@[simp] theorem Device.group_setDie (i : Nat) (x : Die) (k : Gid) : (d.setDie i x).group k = d.group k := by cases k <;> simp [Device.group]
@[simp] theorem Device.group_setPart (p : Nat) (x : Part) (k : Gid) : (d.setPart p x).group k = d.group k := by cases k <;> simp [Device.group]
@[simp] theorem Device.group_setPort (p : Nat) (x : Port) (k : Gid) : (d.setPort p x).group k = d.group k := by cases k <;> simp [Device.group]
@[simp] theorem Device.group_setTeam (t : Nat) (x : Team) (k : Gid) : (d.setTeam t x).group k = d.group k := by cases k <;> simp [Device.group]
@[simp] theorem Device.group_setLaunch (l : Nat) (x : Launch) (k : Gid) : (d.setLaunch l x).group k = d.group k := by cases k <;> simp [Device.group]
@[simp] theorem Device.group_modMem (f : Mem → Mem) (k : Gid) : (d.modMem f).group k = d.group k := by cases k <;> simp [Device.group]
@[simp] theorem Device.group_modCore (c : Nat) (f : Core → Core) (k : Gid) : (d.modCore c f).group k = d.group k := by cases k <;> simp [Device.group]
@[simp] theorem Device.group_modDie (i : Nat) (f : Die → Die) (k : Gid) : (d.modDie i f).group k = d.group k := by cases k <;> simp [Device.group]
@[simp] theorem Device.group_modPart (p : Nat) (f : Part → Part) (k : Gid) : (d.modPart p f).group k = d.group k := by cases k <;> simp [Device.group]
@[simp] theorem Device.group_modPort (p : Nat) (f : Port → Port) (k : Gid) : (d.modPort p f).group k = d.group k := by cases k <;> simp [Device.group]
@[simp] theorem Device.group_modTeam (t : Nat) (f : Team → Team) (k : Gid) : (d.modTeam t f).group k = d.group k := by cases k <;> simp [Device.group]
@[simp] theorem Device.group_modLaunch (l : Nat) (f : Launch → Launch) (k : Gid) : (d.modLaunch l f).group k = d.group k := by cases k <;> simp [Device.group]

theorem Device.core_setCore (c k : Nat) (x : Core) : (d.setCore c x).core k = if c = k then x else d.core k :=
  tgetD_tputD d.cores c k x Core.reset
theorem Device.die_setDie (i k : Nat) (x : Die) : (d.setDie i x).die k = if i = k then x else d.die k :=
  tgetD_tputD d.dies i k x Die.reset
theorem Device.part_setPart (p k : Nat) (x : Part) : (d.setPart p x).part k = if p = k then x else d.part k :=
  tgetD_tputD d.parts p k x Part.reset
theorem Device.port_setPort (p k : Nat) (x : Port) : (d.setPort p x).port k = if p = k then x else d.port k :=
  tgetD_tputD d.ports p k x Port.reset
theorem Device.team_setTeam (t k : Nat) (x : Team) : (d.setTeam t x).team k = if t = k then some x else d.team k :=
  tget_tput d.teams t k x
theorem Device.launch_setLaunch (l k : Nat) (x : Launch) : (d.setLaunch l x).launch k = if l = k then some x else d.launch k :=
  tget_tput d.launches l k x

theorem Device.group_setGroup (g k : Gid) (x : Group) : (d.setGroup g x).group k = if g = k then some x else d.group k := by
  cases g <;> cases k <;> simp [Device.group, Device.setGroup, tget_tput] <;> split <;> simp_all

theorem Device.group_modGroup_same (g : Gid) (f : Group → Group) : (d.modGroup g f).group g = (d.group g).map f := by
  unfold Device.modGroup
  split <;> simp_all [Device.group_setGroup]

theorem Device.group_modGroup_other (g k : Gid) (f : Group → Group) (h : g ≠ k) : (d.modGroup g f).group k = d.group k := by
  unfold Device.modGroup
  split <;> simp [Device.group_setGroup, h]

theorem Device.modGroup_of (g : Gid) (f : Group → Group) {x : Group} (h : d.group g = some x) :
    d.modGroup g f = d.setGroup g (f x) := by simp [Device.modGroup, h]

@[simp] theorem Device.core_modCore_same (c : Nat) (f : Core → Core) : (d.modCore c f).core c = f (d.core c) := by
  simp [Device.modCore, Device.core_setCore]
@[simp] theorem Device.part_modPart_same (p : Nat) (f : Part → Part) : (d.modPart p f).part p = f (d.part p) := by
  simp [Device.modPart, Device.part_setPart]
@[simp] theorem Device.die_modDie_same (i : Nat) (f : Die → Die) : (d.modDie i f).die i = f (d.die i) := by
  simp [Device.modDie, Device.die_setDie]
@[simp] theorem Device.port_modPort_same (p : Nat) (f : Port → Port) : (d.modPort p f).port p = f (d.port p) := by
  simp [Device.modPort, Device.port_setPort]

theorem Device.core_modCore_other (c k : Nat) (f : Core → Core) (h : c ≠ k) : (d.modCore c f).core k = d.core k := by
  simp [Device.modCore, Device.core_setCore, h]
theorem Device.part_modPart_other (p k : Nat) (f : Part → Part) (h : p ≠ k) : (d.modPart p f).part k = d.part k := by
  simp [Device.modPart, Device.part_setPart, h]
theorem Device.die_modDie_other (i k : Nat) (f : Die → Die) (h : i ≠ k) : (d.modDie i f).die k = d.die k := by
  simp [Device.modDie, Device.die_setDie, h]
theorem Device.port_modPort_other (p k : Nat) (f : Port → Port) (h : p ≠ k) : (d.modPort p f).port k = d.port k := by
  simp [Device.modPort, Device.port_setPort, h]
theorem Device.team_modTeam_same (t : Nat) (f : Team → Team) : (d.modTeam t f).team t = (d.team t).map f := by
  unfold Device.modTeam
  split <;> simp_all [Device.team_setTeam]
theorem Device.launch_modLaunch_same (l : Nat) (f : Launch → Launch) : (d.modLaunch l f).launch l = (d.launch l).map f := by
  unfold Device.modLaunch
  split <;> simp_all [Device.launch_setLaunch]

@[simp] theorem Device.mem_modMem (f : Mem → Mem) : (d.modMem f).mem = f d.mem := rfl

-- a group's registers

variable (c : GCore)

@[simp] theorem GCore.setV_p (n l : Nat) (w : Word) : (c.setV n l w).p = c.p := rfl
@[simp] theorem GCore.setV_s (n l : Nat) (w : Word) : (c.setV n l w).s = c.s := rfl
@[simp] theorem GCore.setV_q (n l : Nat) (w : Word) : (c.setV n l w).q = c.q := rfl
@[simp] theorem GCore.setV_b (n l : Nat) (w : Word) : (c.setV n l w).b = c.b := rfl
@[simp] theorem GCore.setV_x (n l : Nat) (w : Word) : (c.setV n l w).x = c.x := rfl
@[simp] theorem GCore.setV_acc (n l : Nat) (w : Word) : (c.setV n l w).acc = c.acc := rfl
@[simp] theorem GCore.setV_slotA (n l : Nat) (w : Word) : (c.setV n l w).slotA = c.slotA := rfl
@[simp] theorem GCore.setV_slotB (n l : Nat) (w : Word) : (c.setV n l w).slotB = c.slotB := rfl
@[simp] theorem GCore.setV_turnB (n l : Nat) (w : Word) : (c.setV n l w).turnB = c.turnB := rfl
@[simp] theorem GCore.setV_stack (n l : Nat) (w : Word) : (c.setV n l w).stack = c.stack := rfl
@[simp] theorem GCore.setV_live (n l : Nat) (w : Word) : (c.setV n l w).live = c.live := rfl
@[simp] theorem GCore.setV_perf (n l : Nat) (w : Word) : (c.setV n l w).perf = c.perf := rfl
@[simp] theorem GCore.setV_pop (n l : Nat) (w : Word) : (c.setV n l w).pop = c.pop := rfl
@[simp] theorem GCore.setV_pend (n l : Nat) (w : Word) : (c.setV n l w).pend = c.pend := rfl
@[simp] theorem GCore.setV_tiles (n l : Nat) (w : Word) : (c.setV n l w).tiles = c.tiles := rfl
@[simp] theorem GCore.setV_pushes (n l : Nat) (w : Word) : (c.setV n l w).pushes = c.pushes := rfl
@[simp] theorem GCore.setV_pops (n l : Nat) (w : Word) : (c.setV n l w).pops = c.pops := rfl
@[simp] theorem GCore.setV_handler (n l : Nat) (w : Word) : (c.setV n l w).handler = c.handler := rfl
@[simp] theorem GCore.setV_shadowS (n l : Nat) (w : Word) : (c.setV n l w).shadowS = c.shadowS := rfl
@[simp] theorem GCore.setV_shadowQ (n l : Nat) (w : Word) : (c.setV n l w).shadowQ = c.shadowQ := rfl

@[simp] theorem GCore.setS_v (n : Nat) (w : Word) : (c.setS n w).v = c.v := rfl
@[simp] theorem GCore.setS_p (n : Nat) (w : Word) : (c.setS n w).p = c.p := rfl
@[simp] theorem GCore.setS_q (n : Nat) (w : Word) : (c.setS n w).q = c.q := rfl
@[simp] theorem GCore.setS_b (n : Nat) (w : Word) : (c.setS n w).b = c.b := rfl
@[simp] theorem GCore.setS_x (n : Nat) (w : Word) : (c.setS n w).x = c.x := rfl
@[simp] theorem GCore.setS_acc (n : Nat) (w : Word) : (c.setS n w).acc = c.acc := rfl
@[simp] theorem GCore.setS_slotA (n : Nat) (w : Word) : (c.setS n w).slotA = c.slotA := rfl
@[simp] theorem GCore.setS_slotB (n : Nat) (w : Word) : (c.setS n w).slotB = c.slotB := rfl
@[simp] theorem GCore.setS_turnB (n : Nat) (w : Word) : (c.setS n w).turnB = c.turnB := rfl
@[simp] theorem GCore.setS_stack (n : Nat) (w : Word) : (c.setS n w).stack = c.stack := rfl
@[simp] theorem GCore.setS_live (n : Nat) (w : Word) : (c.setS n w).live = c.live := rfl
@[simp] theorem GCore.setS_perf (n : Nat) (w : Word) : (c.setS n w).perf = c.perf := rfl
@[simp] theorem GCore.setS_pop (n : Nat) (w : Word) : (c.setS n w).pop = c.pop := rfl
@[simp] theorem GCore.setS_pend (n : Nat) (w : Word) : (c.setS n w).pend = c.pend := rfl
@[simp] theorem GCore.setS_tiles (n : Nat) (w : Word) : (c.setS n w).tiles = c.tiles := rfl
@[simp] theorem GCore.setS_pushes (n : Nat) (w : Word) : (c.setS n w).pushes = c.pushes := rfl
@[simp] theorem GCore.setS_pops (n : Nat) (w : Word) : (c.setS n w).pops = c.pops := rfl
@[simp] theorem GCore.setS_handler (n : Nat) (w : Word) : (c.setS n w).handler = c.handler := rfl
@[simp] theorem GCore.setS_shadowS (n : Nat) (w : Word) : (c.setS n w).shadowS = c.shadowS := rfl
@[simp] theorem GCore.setS_shadowQ (n : Nat) (w : Word) : (c.setS n w).shadowQ = c.shadowQ := rfl

@[simp] theorem GCore.setBWord_v (n k : Nat) (w : Word) : (c.setBWord n k w).v = c.v := rfl
@[simp] theorem GCore.setBWord_p (n k : Nat) (w : Word) : (c.setBWord n k w).p = c.p := rfl
@[simp] theorem GCore.setBWord_s (n k : Nat) (w : Word) : (c.setBWord n k w).s = c.s := rfl
@[simp] theorem GCore.setBWord_q (n k : Nat) (w : Word) : (c.setBWord n k w).q = c.q := rfl
@[simp] theorem GCore.setBWord_x (n k : Nat) (w : Word) : (c.setBWord n k w).x = c.x := rfl
@[simp] theorem GCore.setBWord_acc (n k : Nat) (w : Word) : (c.setBWord n k w).acc = c.acc := rfl
@[simp] theorem GCore.setBWord_slotA (n k : Nat) (w : Word) : (c.setBWord n k w).slotA = c.slotA := rfl
@[simp] theorem GCore.setBWord_slotB (n k : Nat) (w : Word) : (c.setBWord n k w).slotB = c.slotB := rfl
@[simp] theorem GCore.setBWord_turnB (n k : Nat) (w : Word) : (c.setBWord n k w).turnB = c.turnB := rfl
@[simp] theorem GCore.setBWord_stack (n k : Nat) (w : Word) : (c.setBWord n k w).stack = c.stack := rfl
@[simp] theorem GCore.setBWord_live (n k : Nat) (w : Word) : (c.setBWord n k w).live = c.live := rfl
@[simp] theorem GCore.setBWord_perf (n k : Nat) (w : Word) : (c.setBWord n k w).perf = c.perf := rfl
@[simp] theorem GCore.setBWord_pop (n k : Nat) (w : Word) : (c.setBWord n k w).pop = c.pop := rfl
@[simp] theorem GCore.setBWord_pend (n k : Nat) (w : Word) : (c.setBWord n k w).pend = c.pend := rfl
@[simp] theorem GCore.setBWord_tiles (n k : Nat) (w : Word) : (c.setBWord n k w).tiles = c.tiles := rfl
@[simp] theorem GCore.setBWord_pushes (n k : Nat) (w : Word) : (c.setBWord n k w).pushes = c.pushes := rfl
@[simp] theorem GCore.setBWord_pops (n k : Nat) (w : Word) : (c.setBWord n k w).pops = c.pops := rfl
@[simp] theorem GCore.setBWord_handler (n k : Nat) (w : Word) : (c.setBWord n k w).handler = c.handler := rfl
@[simp] theorem GCore.setBWord_shadowS (n k : Nat) (w : Word) : (c.setBWord n k w).shadowS = c.shadowS := rfl
@[simp] theorem GCore.setBWord_shadowQ (n k : Nat) (w : Word) : (c.setBWord n k w).shadowQ = c.shadowQ := rfl

@[simp] theorem GCore.setX_v (n : Nat) (w : DWord) : (c.setX n w).v = c.v := rfl
@[simp] theorem GCore.setX_p (n : Nat) (w : DWord) : (c.setX n w).p = c.p := rfl
@[simp] theorem GCore.setX_s (n : Nat) (w : DWord) : (c.setX n w).s = c.s := rfl
@[simp] theorem GCore.setX_q (n : Nat) (w : DWord) : (c.setX n w).q = c.q := rfl
@[simp] theorem GCore.setX_b (n : Nat) (w : DWord) : (c.setX n w).b = c.b := rfl
@[simp] theorem GCore.setX_acc (n : Nat) (w : DWord) : (c.setX n w).acc = c.acc := rfl
@[simp] theorem GCore.setX_slotA (n : Nat) (w : DWord) : (c.setX n w).slotA = c.slotA := rfl
@[simp] theorem GCore.setX_slotB (n : Nat) (w : DWord) : (c.setX n w).slotB = c.slotB := rfl
@[simp] theorem GCore.setX_turnB (n : Nat) (w : DWord) : (c.setX n w).turnB = c.turnB := rfl
@[simp] theorem GCore.setX_stack (n : Nat) (w : DWord) : (c.setX n w).stack = c.stack := rfl
@[simp] theorem GCore.setX_live (n : Nat) (w : DWord) : (c.setX n w).live = c.live := rfl
@[simp] theorem GCore.setX_perf (n : Nat) (w : DWord) : (c.setX n w).perf = c.perf := rfl
@[simp] theorem GCore.setX_pop (n : Nat) (w : DWord) : (c.setX n w).pop = c.pop := rfl
@[simp] theorem GCore.setX_pend (n : Nat) (w : DWord) : (c.setX n w).pend = c.pend := rfl
@[simp] theorem GCore.setX_tiles (n : Nat) (w : DWord) : (c.setX n w).tiles = c.tiles := rfl
@[simp] theorem GCore.setX_pushes (n : Nat) (w : DWord) : (c.setX n w).pushes = c.pushes := rfl
@[simp] theorem GCore.setX_pops (n : Nat) (w : DWord) : (c.setX n w).pops = c.pops := rfl
@[simp] theorem GCore.setX_handler (n : Nat) (w : DWord) : (c.setX n w).handler = c.handler := rfl
@[simp] theorem GCore.setX_shadowS (n : Nat) (w : DWord) : (c.setX n w).shadowS = c.shadowS := rfl
@[simp] theorem GCore.setX_shadowQ (n : Nat) (w : DWord) : (c.setX n w).shadowQ = c.shadowQ := rfl

@[simp] theorem GCore.setAcc_v (n r k : Nat) (w : Word) : (c.setAcc n r k w).v = c.v := rfl
@[simp] theorem GCore.setAcc_p (n r k : Nat) (w : Word) : (c.setAcc n r k w).p = c.p := rfl
@[simp] theorem GCore.setAcc_s (n r k : Nat) (w : Word) : (c.setAcc n r k w).s = c.s := rfl
@[simp] theorem GCore.setAcc_q (n r k : Nat) (w : Word) : (c.setAcc n r k w).q = c.q := rfl
@[simp] theorem GCore.setAcc_b (n r k : Nat) (w : Word) : (c.setAcc n r k w).b = c.b := rfl
@[simp] theorem GCore.setAcc_x (n r k : Nat) (w : Word) : (c.setAcc n r k w).x = c.x := rfl
@[simp] theorem GCore.setAcc_slotA (n r k : Nat) (w : Word) : (c.setAcc n r k w).slotA = c.slotA := rfl
@[simp] theorem GCore.setAcc_slotB (n r k : Nat) (w : Word) : (c.setAcc n r k w).slotB = c.slotB := rfl
@[simp] theorem GCore.setAcc_turnB (n r k : Nat) (w : Word) : (c.setAcc n r k w).turnB = c.turnB := rfl
@[simp] theorem GCore.setAcc_stack (n r k : Nat) (w : Word) : (c.setAcc n r k w).stack = c.stack := rfl
@[simp] theorem GCore.setAcc_live (n r k : Nat) (w : Word) : (c.setAcc n r k w).live = c.live := rfl
@[simp] theorem GCore.setAcc_perf (n r k : Nat) (w : Word) : (c.setAcc n r k w).perf = c.perf := rfl
@[simp] theorem GCore.setAcc_pop (n r k : Nat) (w : Word) : (c.setAcc n r k w).pop = c.pop := rfl
@[simp] theorem GCore.setAcc_pend (n r k : Nat) (w : Word) : (c.setAcc n r k w).pend = c.pend := rfl
@[simp] theorem GCore.setAcc_tiles (n r k : Nat) (w : Word) : (c.setAcc n r k w).tiles = c.tiles := rfl
@[simp] theorem GCore.setAcc_pushes (n r k : Nat) (w : Word) : (c.setAcc n r k w).pushes = c.pushes := rfl
@[simp] theorem GCore.setAcc_pops (n r k : Nat) (w : Word) : (c.setAcc n r k w).pops = c.pops := rfl
@[simp] theorem GCore.setAcc_handler (n r k : Nat) (w : Word) : (c.setAcc n r k w).handler = c.handler := rfl
@[simp] theorem GCore.setAcc_shadowS (n r k : Nat) (w : Word) : (c.setAcc n r k w).shadowS = c.shadowS := rfl
@[simp] theorem GCore.setAcc_shadowQ (n r k : Nat) (w : Word) : (c.setAcc n r k w).shadowQ = c.shadowQ := rfl

@[simp] theorem GCore.setPop_v (l : Nat) (p : PopState) : (c.setPop l p).v = c.v := rfl
@[simp] theorem GCore.setPop_p (l : Nat) (p : PopState) : (c.setPop l p).p = c.p := rfl
@[simp] theorem GCore.setPop_s (l : Nat) (p : PopState) : (c.setPop l p).s = c.s := rfl
@[simp] theorem GCore.setPop_q (l : Nat) (p : PopState) : (c.setPop l p).q = c.q := rfl
@[simp] theorem GCore.setPop_b (l : Nat) (p : PopState) : (c.setPop l p).b = c.b := rfl
@[simp] theorem GCore.setPop_x (l : Nat) (p : PopState) : (c.setPop l p).x = c.x := rfl
@[simp] theorem GCore.setPop_acc (l : Nat) (p : PopState) : (c.setPop l p).acc = c.acc := rfl
@[simp] theorem GCore.setPop_slotA (l : Nat) (p : PopState) : (c.setPop l p).slotA = c.slotA := rfl
@[simp] theorem GCore.setPop_slotB (l : Nat) (p : PopState) : (c.setPop l p).slotB = c.slotB := rfl
@[simp] theorem GCore.setPop_turnB (l : Nat) (p : PopState) : (c.setPop l p).turnB = c.turnB := rfl
@[simp] theorem GCore.setPop_stack (l : Nat) (p : PopState) : (c.setPop l p).stack = c.stack := rfl
@[simp] theorem GCore.setPop_live (l : Nat) (p : PopState) : (c.setPop l p).live = c.live := rfl
@[simp] theorem GCore.setPop_perf (l : Nat) (p : PopState) : (c.setPop l p).perf = c.perf := rfl
@[simp] theorem GCore.setPop_pend (l : Nat) (p : PopState) : (c.setPop l p).pend = c.pend := rfl
@[simp] theorem GCore.setPop_tiles (l : Nat) (p : PopState) : (c.setPop l p).tiles = c.tiles := rfl
@[simp] theorem GCore.setPop_pushes (l : Nat) (p : PopState) : (c.setPop l p).pushes = c.pushes := rfl
@[simp] theorem GCore.setPop_pops (l : Nat) (p : PopState) : (c.setPop l p).pops = c.pops := rfl
@[simp] theorem GCore.setPop_handler (l : Nat) (p : PopState) : (c.setPop l p).handler = c.handler := rfl
@[simp] theorem GCore.setPop_shadowS (l : Nat) (p : PopState) : (c.setPop l p).shadowS = c.shadowS := rfl
@[simp] theorem GCore.setPop_shadowQ (l : Nat) (p : PopState) : (c.setPop l p).shadowQ = c.shadowQ := rfl

@[simp] theorem GCore.setP_v (n : Nat) (m : LaneMask) : (c.setP n m).v = c.v := by unfold GCore.setP; split <;> rfl
@[simp] theorem GCore.setP_s (n : Nat) (m : LaneMask) : (c.setP n m).s = c.s := by unfold GCore.setP; split <;> rfl
@[simp] theorem GCore.setP_q (n : Nat) (m : LaneMask) : (c.setP n m).q = c.q := by unfold GCore.setP; split <;> rfl
@[simp] theorem GCore.setP_b (n : Nat) (m : LaneMask) : (c.setP n m).b = c.b := by unfold GCore.setP; split <;> rfl
@[simp] theorem GCore.setP_x (n : Nat) (m : LaneMask) : (c.setP n m).x = c.x := by unfold GCore.setP; split <;> rfl
@[simp] theorem GCore.setP_acc (n : Nat) (m : LaneMask) : (c.setP n m).acc = c.acc := by unfold GCore.setP; split <;> rfl
@[simp] theorem GCore.setP_slotA (n : Nat) (m : LaneMask) : (c.setP n m).slotA = c.slotA := by unfold GCore.setP; split <;> rfl
@[simp] theorem GCore.setP_slotB (n : Nat) (m : LaneMask) : (c.setP n m).slotB = c.slotB := by unfold GCore.setP; split <;> rfl
@[simp] theorem GCore.setP_turnB (n : Nat) (m : LaneMask) : (c.setP n m).turnB = c.turnB := by unfold GCore.setP; split <;> rfl
@[simp] theorem GCore.setP_stack (n : Nat) (m : LaneMask) : (c.setP n m).stack = c.stack := by unfold GCore.setP; split <;> rfl
@[simp] theorem GCore.setP_live (n : Nat) (m : LaneMask) : (c.setP n m).live = c.live := by unfold GCore.setP; split <;> rfl
@[simp] theorem GCore.setP_perf (n : Nat) (m : LaneMask) : (c.setP n m).perf = c.perf := by unfold GCore.setP; split <;> rfl
@[simp] theorem GCore.setP_pop (n : Nat) (m : LaneMask) : (c.setP n m).pop = c.pop := by unfold GCore.setP; split <;> rfl
@[simp] theorem GCore.setP_pend (n : Nat) (m : LaneMask) : (c.setP n m).pend = c.pend := by unfold GCore.setP; split <;> rfl
@[simp] theorem GCore.setP_tiles (n : Nat) (m : LaneMask) : (c.setP n m).tiles = c.tiles := by unfold GCore.setP; split <;> rfl
@[simp] theorem GCore.setP_pushes (n : Nat) (m : LaneMask) : (c.setP n m).pushes = c.pushes := by unfold GCore.setP; split <;> rfl
@[simp] theorem GCore.setP_pops (n : Nat) (m : LaneMask) : (c.setP n m).pops = c.pops := by unfold GCore.setP; split <;> rfl
@[simp] theorem GCore.setP_handler (n : Nat) (m : LaneMask) : (c.setP n m).handler = c.handler := by unfold GCore.setP; split <;> rfl
@[simp] theorem GCore.setP_shadowS (n : Nat) (m : LaneMask) : (c.setP n m).shadowS = c.shadowS := by unfold GCore.setP; split <;> rfl
@[simp] theorem GCore.setP_shadowQ (n : Nat) (m : LaneMask) : (c.setP n m).shadowQ = c.shadowQ := by unfold GCore.setP; split <;> rfl

@[simp] theorem GCore.setQ_v (n : Nat) (b : Bool) : (c.setQ n b).v = c.v := by unfold GCore.setQ; split <;> rfl
@[simp] theorem GCore.setQ_p (n : Nat) (b : Bool) : (c.setQ n b).p = c.p := by unfold GCore.setQ; split <;> rfl
@[simp] theorem GCore.setQ_s (n : Nat) (b : Bool) : (c.setQ n b).s = c.s := by unfold GCore.setQ; split <;> rfl
@[simp] theorem GCore.setQ_b (n : Nat) (b : Bool) : (c.setQ n b).b = c.b := by unfold GCore.setQ; split <;> rfl
@[simp] theorem GCore.setQ_x (n : Nat) (b : Bool) : (c.setQ n b).x = c.x := by unfold GCore.setQ; split <;> rfl
@[simp] theorem GCore.setQ_acc (n : Nat) (b : Bool) : (c.setQ n b).acc = c.acc := by unfold GCore.setQ; split <;> rfl
@[simp] theorem GCore.setQ_slotA (n : Nat) (b : Bool) : (c.setQ n b).slotA = c.slotA := by unfold GCore.setQ; split <;> rfl
@[simp] theorem GCore.setQ_slotB (n : Nat) (b : Bool) : (c.setQ n b).slotB = c.slotB := by unfold GCore.setQ; split <;> rfl
@[simp] theorem GCore.setQ_turnB (n : Nat) (b : Bool) : (c.setQ n b).turnB = c.turnB := by unfold GCore.setQ; split <;> rfl
@[simp] theorem GCore.setQ_stack (n : Nat) (b : Bool) : (c.setQ n b).stack = c.stack := by unfold GCore.setQ; split <;> rfl
@[simp] theorem GCore.setQ_live (n : Nat) (b : Bool) : (c.setQ n b).live = c.live := by unfold GCore.setQ; split <;> rfl
@[simp] theorem GCore.setQ_perf (n : Nat) (b : Bool) : (c.setQ n b).perf = c.perf := by unfold GCore.setQ; split <;> rfl
@[simp] theorem GCore.setQ_pop (n : Nat) (b : Bool) : (c.setQ n b).pop = c.pop := by unfold GCore.setQ; split <;> rfl
@[simp] theorem GCore.setQ_pend (n : Nat) (b : Bool) : (c.setQ n b).pend = c.pend := by unfold GCore.setQ; split <;> rfl
@[simp] theorem GCore.setQ_tiles (n : Nat) (b : Bool) : (c.setQ n b).tiles = c.tiles := by unfold GCore.setQ; split <;> rfl
@[simp] theorem GCore.setQ_pushes (n : Nat) (b : Bool) : (c.setQ n b).pushes = c.pushes := by unfold GCore.setQ; split <;> rfl
@[simp] theorem GCore.setQ_pops (n : Nat) (b : Bool) : (c.setQ n b).pops = c.pops := by unfold GCore.setQ; split <;> rfl
@[simp] theorem GCore.setQ_handler (n : Nat) (b : Bool) : (c.setQ n b).handler = c.handler := by unfold GCore.setQ; split <;> rfl
@[simp] theorem GCore.setQ_shadowS (n : Nat) (b : Bool) : (c.setQ n b).shadowS = c.shadowS := by unfold GCore.setQ; split <;> rfl
@[simp] theorem GCore.setQ_shadowQ (n : Nat) (b : Bool) : (c.setQ n b).shadowQ = c.shadowQ := by unfold GCore.setQ; split <;> rfl

@[simp] theorem GCore.setSlot_v (b : Bool) (x : PcSlot) : (c.setSlot b x).v = c.v := by cases b <;> rfl
@[simp] theorem GCore.setSlot_p (b : Bool) (x : PcSlot) : (c.setSlot b x).p = c.p := by cases b <;> rfl
@[simp] theorem GCore.setSlot_s (b : Bool) (x : PcSlot) : (c.setSlot b x).s = c.s := by cases b <;> rfl
@[simp] theorem GCore.setSlot_q (b : Bool) (x : PcSlot) : (c.setSlot b x).q = c.q := by cases b <;> rfl
@[simp] theorem GCore.setSlot_b (b : Bool) (x : PcSlot) : (c.setSlot b x).b = c.b := by cases b <;> rfl
@[simp] theorem GCore.setSlot_x (b : Bool) (x : PcSlot) : (c.setSlot b x).x = c.x := by cases b <;> rfl
@[simp] theorem GCore.setSlot_acc (b : Bool) (x : PcSlot) : (c.setSlot b x).acc = c.acc := by cases b <;> rfl
@[simp] theorem GCore.setSlot_turnB (b : Bool) (x : PcSlot) : (c.setSlot b x).turnB = c.turnB := by cases b <;> rfl
@[simp] theorem GCore.setSlot_stack (b : Bool) (x : PcSlot) : (c.setSlot b x).stack = c.stack := by cases b <;> rfl
@[simp] theorem GCore.setSlot_live (b : Bool) (x : PcSlot) : (c.setSlot b x).live = c.live := by cases b <;> rfl
@[simp] theorem GCore.setSlot_perf (b : Bool) (x : PcSlot) : (c.setSlot b x).perf = c.perf := by cases b <;> rfl
@[simp] theorem GCore.setSlot_pop (b : Bool) (x : PcSlot) : (c.setSlot b x).pop = c.pop := by cases b <;> rfl
@[simp] theorem GCore.setSlot_pend (b : Bool) (x : PcSlot) : (c.setSlot b x).pend = c.pend := by cases b <;> rfl
@[simp] theorem GCore.setSlot_tiles (b : Bool) (x : PcSlot) : (c.setSlot b x).tiles = c.tiles := by cases b <;> rfl
@[simp] theorem GCore.setSlot_pushes (b : Bool) (x : PcSlot) : (c.setSlot b x).pushes = c.pushes := by cases b <;> rfl
@[simp] theorem GCore.setSlot_pops (b : Bool) (x : PcSlot) : (c.setSlot b x).pops = c.pops := by cases b <;> rfl
@[simp] theorem GCore.setSlot_handler (b : Bool) (x : PcSlot) : (c.setSlot b x).handler = c.handler := by cases b <;> rfl
@[simp] theorem GCore.setSlot_shadowS (b : Bool) (x : PcSlot) : (c.setSlot b x).shadowS = c.shadowS := by cases b <;> rfl
@[simp] theorem GCore.setSlot_shadowQ (b : Bool) (x : PcSlot) : (c.setSlot b x).shadowQ = c.shadowQ := by cases b <;> rfl

/-- A v register's element reads as last written. -/
theorem GCore.vAt_setV (n l m k : Nat) (w : Word) (hl : l < 32) (hk : k < 32) :
    (c.setV n l w).vAt m k = if n = m ∧ l = k then w else c.vAt m k := by
  unfold GCore.vAt GCore.setV
  rw [tgetD_tputD]
  by_cases h : n = m ∧ l = k
  · rw [if_pos (by omega), if_pos h]
  · rw [if_neg (by omega), if_neg h]

theorem GCore.sAt_setS (n m : Nat) (w : Word) : (c.setS n w).sAt m = if n = m then w else c.sAt m := tgetD_tputD c.s n m w 0
theorem GCore.xAt_setX (n m : Nat) (w : DWord) : (c.setX n w).xAt m = if n = m then w else c.xAt m := tgetD_tputD c.x n m w 0

/-- p15 reads as 1 whatever is written to it (01 R10). -/
theorem GCore.pAt_setP (n m : Nat) (w : LaneMask) :
    (c.setP n w).pAt m = if m = 15 then allLanes else if n = m then w else c.pAt m := by
  unfold GCore.pAt GCore.setP
  by_cases h : m = 15
  · simp [h]
  · by_cases hn : n = 15
    · simp [h, hn, show ¬15 = m from fun h2 => h h2.symm]
    · simp only [h, hn, if_false]; exact tgetD_tputD c.p n m w 0

@[simp] theorem GCore.slot_setSlot_same (b : Bool) (x : PcSlot) : (c.setSlot b x).slot b = x := by cases b <;> rfl
@[simp] theorem GCore.slot_setSlot_other (b : Bool) (x : PcSlot) : (c.setSlot b x).slot (!b) = c.slot (!b) := by cases b <;> rfl

end Sys2Proof.Machine
end

