-- ==== Sys2Proof/Laws/Slots.lean ====
section
/-!
SUPPORT. What a slot operation comes to: the one lemma of each shared shape (runSlot, ctlSlot, vecSlot, memSlot, memNow, engSlot,
accSlot), and what a class S result writes.
-/
namespace Sys2Proof.Machine

open Host

/-- What the answer of a slot operation's body makes of the state. -/
def slotOutcome (slot : Nat) (s : State) (b : OpenBundle) : SlotRes → Outcome State Fault Refusal
  | .ok w => .next { s with dev := w.dev, opn := some w.b }
  | .trap c => .next { s with dev := takeTrap (issueBundle (b.undo s.dev) b) b.gid (b.trap slot c), opn := none }
  | .wait held => .next { s with dev := holdBack b s.dev held, opn := none }

variable {s : State} {b : OpenBundle}

theorem runSlot_open (slot : Nat) (f : Work → SlotRes) (h : s.opn = some b) :
    runSlot slot s f = slotOutcome slot s b (f { dev := s.dev, b }) := by
  unfold runSlot
  rw [h]
  dsimp only
  split <;> simp_all [slotOutcome]

/-- A slot operation's only stop is that no bundle is open. -/
theorem runSlot_next (slot : Nat) (f : Work → SlotRes) (h : s.opn = some b) : ∃ t, runSlot slot s f = .next t := by
  rw [runSlot_open slot f h]
  cases f { dev := s.dev, b } <;> exact ⟨_, rfl⟩

theorem runSlot_closed (slot : Nat) (f : Work → SlotRes) (h : s.opn = none) : runSlot slot s f = .fault .noBundle := by
  unfold runSlot; rw [h]

/-- A slot operation leaves the steps to come and the count of steps alone. -/
theorem runSlot_frame (slot : Nat) (f : Work → SlotRes) {t : State} (h : runSlot slot s f = .next t) :
    t.agenda = s.agenda ∧ t.tick = s.tick := by
  unfold runSlot at h
  split at h
  · cases h
  · split at h <;> cases h <;> exact ⟨rfl, rfl⟩

/-- A body that changes nothing leaves the state as it is. -/
@[simp] theorem slotOutcome_same (slot : Nat) (h : s.opn = some b) : slotOutcome slot s b (.ok { dev := s.dev, b }) = .next s := by
  simp [slotOutcome, ← h]

-- control

theorem ctlSlot_off (o : COp) (f : Work → SlotRes) (h : s.opn = some b)
    (ha : ctlActive (Work.group { dev := s.dev, b }) b o = false) : ctlSlot o s f = .next s := by
  simp [ctlSlot, runSlot_open _ _ h, ha, h]

theorem ctlSlot_absent (o : COp) (f : Work → SlotRes) (h : s.opn = some b)
    (ha : ctlActive (Work.group { dev := s.dev, b }) b o = true) (hl : litMissing b.lits o.sa = true) :
    ctlSlot o s f = slotOutcome 0 s b (.trap (causeOf 0x07)) := by
  simp [ctlSlot, runSlot_open _ _ h, ha, hl]

theorem ctlSlot_runs (o : COp) (f : Work → SlotRes) (h : s.opn = some b)
    (ha : ctlActive (Work.group { dev := s.dev, b }) b o = true) (hl : litMissing b.lits o.sa = false) :
    ctlSlot o s f = slotOutcome 0 s b (f { dev := s.dev, b }) := by
  simp [ctlSlot, runSlot_open _ _ h, ha, hl]

-- barriers

/-- A barrier instruction in a handler takes cause 0x09, one on a diverged group 0x0A (04 R127). -/
theorem barrierSlot_handler (o : COp) (f : Work → Nat → Team → SlotRes) (h : s.opn = some b)
    (ha : ctlActive (Work.group { dev := s.dev, b }) b o = true) (hl : litMissing b.lits o.sa = false)
    (hh : Work.inHandler { dev := s.dev, b } = true) : barrierSlot o s f = slotOutcome 0 s b (.trap (causeOf 0x09)) := by
  unfold barrierSlot; rw [ctlSlot_runs o _ h ha hl]; simp [hh]

theorem barrierSlot_diverged (o : COp) (f : Work → Nat → Team → SlotRes) (h : s.opn = some b)
    (ha : ctlActive (Work.group { dev := s.dev, b }) b o = true) (hl : litMissing b.lits o.sa = false)
    (hh : Work.inHandler { dev := s.dev, b } = false) (hd : (b.regs.slot (!b.slotB)).st ≠ .idle) :
    barrierSlot o s f = slotOutcome 0 s b (.trap (causeOf 0x0A)) := by
  unfold barrierSlot; rw [ctlSlot_runs o _ h ha hl]; simp [hh, hd]

/-- Otherwise it waits for its release, completes after a kill, or does its own part. -/
theorem barrierSlot_runs (o : COp) (f : Work → Nat → Team → SlotRes) (h : s.opn = some b)
    (ha : ctlActive (Work.group { dev := s.dev, b }) b o = true) (hl : litMissing b.lits o.sa = false)
    (hh : Work.inHandler { dev := s.dev, b } = false) (hd : (b.regs.slot (!b.slotB)).st = .idle) :
    barrierSlot o s f = slotOutcome 0 s b (
      let w : Work := { dev := s.dev, b }
      if w.mayRelease false = false then .wait none
      else
        let w := w.noteZero
        if w.group.abandon then .ok (w.mod (fun g => { g with abandon := false, core := g.core.setQ6 true }))
        else match w.dev.teamOf w.b.gid with
          | some (team, t) => f w team t
          | none => .ok (w.modCore (fun c => c.setQ6 false))) := by
  unfold barrierSlot; rw [ctlSlot_runs o _ h ha hl]; simp [hh, hd] <;> rfl

-- vectors

theorem vecSlot_off (o : VOp) (f : Work → LaneMask → SlotRes) (h : s.opn = some b) (ha : activeLanes b.regs b.lanes o.guard = 0) :
    vecSlot o s f = .next s := by
  simp [vecSlot, runSlot_open _ _ h, ha, h]

theorem vecSlot_absent (o : VOp) (f : Work → LaneMask → SlotRes) (h : s.opn = some b) (ha : activeLanes b.regs b.lanes o.guard ≠ 0)
    (hl : (litMissing b.lits o.sa || litMissing b.lits o.sb || litMissing b.lits o.sc) = true) :
    vecSlot o s f = slotOutcome (if o.slot = .v0 then 1 else 2) s b (.trap (causeOf 0x07)) := by
  unfold vecSlot; rw [runSlot_open _ _ h]; simp only [ha, hl, if_true, if_false]

theorem vecSlot_runs (o : VOp) (f : Work → LaneMask → SlotRes) (h : s.opn = some b) (ha : activeLanes b.regs b.lanes o.guard ≠ 0)
    (hl : (litMissing b.lits o.sa || litMissing b.lits o.sb || litMissing b.lits o.sc) = false) :
    vecSlot o s f =
      slotOutcome (if o.slot = .v0 then 1 else 2) s b (f { dev := s.dev, b } (activeLanes b.regs b.lanes o.guard)) := by
  unfold vecSlot; rw [runSlot_open _ _ h]; simp only [ha, hl, if_false, Bool.false_eq_true]

-- memory

theorem memSlot_off (o : MOp) (f : Work → LaneMask → SlotRes) (h : s.opn = some b) (ha : activeLanes b.regs b.lanes o.guard = 0) :
    memSlot o s f = .next s := by
  simp [memSlot, runSlot_open _ _ h, ha, h]

theorem memSlot_absent (o : MOp) (f : Work → LaneMask → SlotRes) (h : s.opn = some b) (ha : activeLanes b.regs b.lanes o.guard ≠ 0)
    (hl : (litMissing b.lits o.aa || litMissing b.lits o.ab || litMissing b.lits o.da || litMissing b.lits o.db) = true) :
    memSlot o s f = slotOutcome 3 s b (.trap (causeOf 0x07)) := by
  unfold memSlot; rw [runSlot_open _ _ h]; simp only [ha, hl, if_true, if_false]

theorem memSlot_runs (o : MOp) (f : Work → LaneMask → SlotRes) (h : s.opn = some b) (ha : activeLanes b.regs b.lanes o.guard ≠ 0)
    (hl : (litMissing b.lits o.aa || litMissing b.lits o.ab || litMissing b.lits o.da || litMissing b.lits o.db) = false) :
    memSlot o s f = slotOutcome 3 s b (f { dev := s.dev, b } (activeLanes b.regs b.lanes o.guard)) := by
  unfold memSlot; rw [runSlot_open _ _ h]; simp only [ha, hl, if_false, Bool.false_eq_true]

theorem memAccess_runs (o : MOp) (f : Work → LaneMask → SlotRes) (h : s.opn = some b) (ha : activeLanes b.regs b.lanes o.guard ≠ 0)
    (hl : (litMissing b.lits o.aa || litMissing b.lits o.ab || litMissing b.lits o.da || litMissing b.lits o.db) = false) :
    memAccess o s f = slotOutcome 3 s b (f ((Work.mk s.dev b).noteClass o) (activeLanes b.regs b.lanes o.guard)) := by
  unfold memAccess; rw [memSlot_runs o _ h ha hl]

theorem memNow_runs (o : MOp) (f : Work → LaneMask → SlotRes) (h : s.opn = some b) (ha : activeLanes b.regs b.lanes o.guard ≠ 0)
    (hl : (litMissing b.lits o.aa || litMissing b.lits o.ab || litMissing b.lits o.da || litMissing b.lits o.db) = false)
    (hq : (Work.group ((Work.mk s.dev b).noteClass o)).acquireOp = none) :
    memNow o s f = slotOutcome 3 s b (f ((Work.mk s.dev b).noteClass o) (activeLanes b.regs b.lanes o.guard)) := by
  unfold memNow; rw [memAccess_runs o _ h ha hl]; simp [hq]

-- engines

theorem engSlot_off (o : EOp) (f : Work → SlotRes) (h : s.opn = some b) (ha : Guard.holds o.guard b.regs 0 = false) :
    engSlot o s f = .next s := by
  simp [engSlot, runSlot_open _ _ h, ha, h]

theorem engSlot_absent (o : EOp) (f : Work → SlotRes) (h : s.opn = some b) (ha : Guard.holds o.guard b.regs 0 = true)
    (hl : litMissing b.lits o.src = true) : engSlot o s f = slotOutcome 4 s b (.trap (causeOf 0x07)) := by
  simp [engSlot, runSlot_open _ _ h, ha, hl]

theorem engSlot_runs (o : EOp) (f : Work → SlotRes) (h : s.opn = some b) (ha : Guard.holds o.guard b.regs 0 = true)
    (hl : litMissing b.lits o.src = false) : engSlot o s f = slotOutcome 4 s b (f { dev := s.dev, b }) := by
  simp [engSlot, runSlot_open _ _ h, ha, hl]

/-- The check of the accumulator tile comes before the guard (11 R240). -/
theorem accSlot_noTile (o : EOp) (f : Work → SlotRes) (h : s.opn = some b) {lid : Nat} {l : Launch}
    (hl : s.dev.launchOf b.gid = some (lid, l)) (ht : l.spine.tiles ≤ o.acc.toNat) :
    accSlot o s f = slotOutcome 4 s b (.trap (causeOf 0x60)) := by
  simp [accSlot, runSlot_open _ _ h, hl, ht]

theorem accSlot_tile (o : EOp) (f : Work → SlotRes) (h : s.opn = some b) {lid : Nat} {l : Launch}
    (hl : s.dev.launchOf b.gid = some (lid, l)) (ht : o.acc.toNat < l.spine.tiles) : accSlot o s f = engSlot o s f := by
  unfold accSlot engSlot; rw [runSlot_open _ _ h, runSlot_open _ _ h]
  simp [hl, Nat.not_le.mpr ht]

-- steps of the machine around its bundles

/-- A step that changes only the device. -/
theorem devStep_next (f : Device → Device) : devStep s f = .next { s with dev := f s.dev } := rfl

/-- A packet of a stream that may not run does nothing (25 R445). -/
theorem cpPacket_idle (st : Stream) (n : Nat) (f : Device → Device) (h : cpMayRun s.dev st = false) : cpPacket st n s f = .next s := by
  simp [cpPacket, devStep, h]

/-- A packet of a stream that runs does its work on the device with its length noted. -/
theorem cpPacket_runs (st : Stream) (n : Nat) (f : Device → Device) (h : cpMayRun s.dev st = true) :
    cpPacket st n s f = .next { s with dev := f (s.dev.setStream st { s.dev.stream st with len := 4 * n, wait := .none }) } := by
  simp [cpPacket, devStep, h]

/-- A step of the host is none while the module is held in reset (24 R444). -/
theorem hostStep_down (f : Device → Device) (h : s.dev.bringUp < 4) : hostStep s f = .next s := by simp [hostStep, devStep, h]

theorem hostStep_up (f : Device → Device) (h : 4 ≤ s.dev.bringUp) : hostStep s f = .next { s with dev := f s.dev } := by
  simp [hostStep, devStep, Nat.not_lt.mpr h]

/-- An MMIO write of a function has its effect, but while a turnover runs only the completion is counted (26 R469). -/
theorem mmioWrite_done (d : Device) (part : Nat) (f : Device → Device) (h : (d.part part).state ≠ 4) : mmioWrite d part f = f d := by
  simp [mmioWrite, h]

theorem mmioWrite_dropped (d : Device) (part : Nat) (f : Device → Device) (h : (d.part part).state = 4) :
    mmioWrite d part f = d.modPart part Part.refuse := by simp [mmioWrite, h]

/-- A command of a partition: refused it only sets RES, else its work is done and RES is clear (26 R461, R462). -/
theorem command_refused (d : Device) (part cmd : Nat) (health : List Nat) (hp : isFunction part = true)
    (h : commandRefused d part cmd = true) : command d part cmd health = d.modPart part (fun p => { p with res := true }) := by
  simp [command, hp, h]

theorem command_done (d : Device) (part cmd : Nat) (health : List Nat) (hp : isFunction part = true)
    (h : commandRefused d part cmd = false) :
    command d part cmd health = (commandEffect d part cmd health).modPart part (fun p => { p with res := false }) := by
  simp [command, hp, h]

-- class S results

/-- A class S result is a trap with cause 0x0D, or it changes the group's registers and its list of written registers (20 R393). -/
theorem shortResult_cases (w : Work) (dst : Dst) (k : Nat) (pd pc2 : PredRef) (act : LaneMask) (val : Nat → Nat) (prim : Nat → Bool) :
    let sp := addSpan w.group.spanV ((List.range (Dst.vSpan dst k).2).map ((Dst.vSpan dst k).1 + ·))
    (48 < sp.length ∧ shortResult w dst k pd pc2 act val prim = .trap (causeOf 0x0D)) ∨
      (sp.length ≤ 48 ∧ shortResult w dst k pd pc2 act val prim =
        .ok ((w.mod (fun g => { g with spanV := sp })).modCore (fun c => writeShort c dst k pd pc2 act val prim))) := by
  intro sp
  by_cases h : 48 < sp.length
  · left; refine ⟨h, ?_⟩
    have : w.noteSpan (Dst.vSpan dst k).1 (Dst.vSpan dst k).2 = none := by simp only [Work.noteSpan]; rw [if_pos h]
    simp [shortResult, this]
  · right; refine ⟨Nat.not_lt.mp h, ?_⟩
    have : w.noteSpan (Dst.vSpan dst k).1 (Dst.vSpan dst k).2 = some (w.mod (fun g => { g with spanV := sp })) := by
      simp only [Work.noteSpan]; rw [if_neg h]
    simp [shortResult, this]

-- registers written by results

variable (c : GCore)

theorem GCore.vAt_setVWords (ws : List Word) (n l m k : Nat) (hl : l < 32) (hk : k < 32) :
    (c.setVWords n l ws).vAt m k = if n ≤ m ∧ m < n + ws.length ∧ l = k then ws.getD (m - n) 0 else c.vAt m k := by
  induction ws generalizing c n with
  | nil => rw [if_neg (by simp only [List.length_nil]; omega)]; rfl
  | cons w t ih =>
    simp only [GCore.setVWords, ih, c.vAt_setV n l m k w hl hk, List.length_cons]
    by_cases hm : m = n
    · subst hm; rw [if_neg (by omega)]; by_cases hlk : l = k <;> simp [hlk]
    · by_cases hn : n + 1 ≤ m ∧ m < n + 1 + t.length ∧ l = k
      · rw [if_pos hn, if_pos (by omega), show m - n = (m - (n + 1)) + 1 by omega]; rfl
      · rw [if_neg hn, if_neg (by omega), if_neg (by omega)]

theorem GCore.sAt_setSWords (ws : List Word) (n m : Nat) :
    (c.setSWords n ws).sAt m = if n ≤ m ∧ m < n + ws.length then ws.getD (m - n) 0 else c.sAt m := by
  induction ws generalizing c n with
  | nil => rw [if_neg (by simp only [List.length_nil]; omega)]; rfl
  | cons w t ih =>
    simp only [GCore.setSWords, ih, c.sAt_setS n m w, List.length_cons]
    by_cases hm : m = n
    · subst hm; rw [if_neg (by omega)]; simp
    · by_cases hn : n + 1 ≤ m ∧ m < n + 1 + t.length
      · rw [if_pos hn, if_pos (by omega), show m - n = (m - (n + 1)) + 1 by omega]; rfl
      · rw [if_neg hn, if_neg (by omega), if_neg (by omega)]

/-- q7 reads as 1 whatever is written to it (01 R10). -/
theorem GCore.qAt_setQ (n m : Nat) (v : Bool) (hm : m < 8) :
    (c.setQ n v).qAt m = if m = 7 then true else if n = m then v else c.qAt m := by
  unfold GCore.setQ GCore.qAt
  have one (k : Nat) (hk : k < 8) : (BitVec.ofNat 8 (2 ^ n)).getLsbD k = decide (n = k) := by
    simp only [BitVec.getLsbD_ofNat, Nat.testBit_two_pow, hk, decide_true, Bool.true_and]
  by_cases h7 : m = 7
  · simp [h7]
  · have h7' : (m == 7) = false := by simp [h7]
    simp only [h7, h7', Bool.false_or, if_false]
    split
    · have : n ≠ m := by omega
      simp [this]
    · cases v <;> simp only [Bool.false_eq_true, if_false, if_true, BitVec.getLsbD_and, BitVec.getLsbD_or, BitVec.getLsbD_not, one m hm] <;>
        by_cases hnm : n = m <;> simp [hnm, hm]

end Sys2Proof.Machine
end

