-- ==== Sys2Proof/Tests/Slice0.lean ====
section
/-!
SUPPORT. Tests: ill-formed terms that the checks refuse, words of the manual's encodings, values that the manual prints, and states that meet
the hypotheses of the statements. Expected results come from the spec's text and tables.
-/
namespace Sys2Proof.Tests

open Sys2Proof Sys2Proof.Machine Sys2Proof.Claims Host

set_option Elab.async false

-- operands for the tests

def always : Guard := { neg := false, sel := .none }
def noDrive : Drive := { en := false, bus := 0 }

/-- A control leaf's fields at their null values. -/
def cNull : COp := { guard := always, d := .none, pd := .none, pa := .none, pb := .none, sa := .v 0, imm := 0 }

/-- A vector leaf v4 := f(v1, v2) of 32 bits in V0. -/
def vNull : VOp :=
  { slot := .v0, guard := always, type := .n32, rm := .near, dst := .v 4, sa := .v 1, sb := .v 2, sc := .v 0
    drv1 := { en := true, bus := 0 }, drv2 := noDrive, pd := .none, pc2 := .none, imm8 := 0, look := 0, sat := false, sub := 0 }

/-- A memory leaf's fields at their null values. -/
def mNull : MOp :=
  { guard := always, size := .n8, cls := 0, scope := .grp, order := .relaxed, cpol := .normal, dst := .null, aa := .v 0, ab := .v 0
    da := .v 0, db := .v 0, buf := 0, drv := noDrive, ofs := 0 }

/-- An engine leaf's fields at their null values. -/
def eNull : EOp := { guard := always, acc := 0, ka := 0, kb := 0, xb := 0, src := .v 0, dst := .null, drv := noDrive, cmd := 0 }

def stCtx : Stream := { part := 1, idx := 0 }
def stCtl : Stream := { part := 1, idx := 4 }

-- what the hazard filter refuses (02 R50), one ill-formed term for each check

theorem test_wf_admits : [Instr.nop cNull, .iadd vNull, .fence { mNull with order := .acquire }, .accZero eNull].all Instr.wf = true := by decide

theorem test_wf_c_lane_guard : (Instr.nop { cNull with guard := { neg := false, sel := .p 3 } }).wf = false := by decide
theorem test_wf_c_guarded_barrier : (Instr.barTeam { cNull with guard := { neg := false, sel := .q 1 } }).wf = false := by decide
theorem test_wf_c_destination : (Instr.nop { cNull with d := .s 5 }).wf = false := by decide
theorem test_wf_c_odd_pair : (Instr.call { cNull with d := .s 3, sa := .zero }).wf = false := by decide
theorem test_wf_c_pd : (Instr.nop { cNull with pd := .q 1 }).wf = false := by decide
theorem test_wf_c_pa : (Instr.qand { cNull with pd := .q 1, pa := .p 1, pb := .q 1 }).wf = false := by decide
theorem test_wf_c_pb : (Instr.qnot { cNull with pd := .q 1, pa := .q 2, pb := .q 1 }).wf = false := by decide
theorem test_wf_c_selector : (Instr.setfmt { cNull with sa := .lane }).wf = false := by decide
theorem test_wf_c_imm : (Instr.nop { cNull with imm := 1 }).wf = false := by decide
theorem test_wf_c_count : (Instr.barWait { cNull with imm := 33 * 16 }).wf = false := by decide
theorem test_wf_c_displacement : (Instr.bra { cNull with sa := .s 4, imm := 2 }).wf = false := by decide

theorem test_wf_v_type : (Instr.iadd { vNull with type := .f32 }).wf = false := by decide
theorem test_wf_v_rounding : (Instr.iadd { vNull with rm := .up }).wf = false := by decide
theorem test_wf_v_source : (Instr.readl { vNull with sa := .s 1, sb := .zero }).wf = false := by decide
theorem test_wf_v_unused : (Instr.bitNot vNull).wf = false := by decide
theorem test_wf_v_odd_pair : (Instr.iadd { vNull with type := .n64, sa := .v 1, sb := .v 2 }).wf = false := by decide
theorem test_wf_v_imm : (Instr.iadd { vNull with imm8 := 1 }).wf = false := by decide
theorem test_wf_v_sub : (Instr.icmp { vNull with dst := .null, drv1 := noDrive, drv2 := { en := true, bus := 0 }, pd := .p 1, sub := 6 }).wf =
    false := by decide
theorem test_wf_v_look : (Instr.iadd { vNull with look := 1 }).wf = false := by decide
theorem test_wf_v_sat : (Instr.bitAnd { vNull with sat := true }).wf = false := by decide
theorem test_wf_v_destination : (Instr.bmix { vNull with type := .n64, sa := .v 2, dst := .v 5 }).wf = false := by decide
theorem test_wf_v_packed_predicate :
    (Instr.iadd { vNull with type := .i16x2, pd := .p 1, drv2 := { en := true, bus := 1 } }).wf = false := by decide
theorem test_wf_v_no_result : (Instr.iadd { vNull with dst := .null, drv1 := noDrive }).wf = false := by decide
theorem test_wf_v_no_drive : (Instr.iadd { vNull with drv1 := noDrive }).wf = false := by decide
/-- A disabled drive that the function uses may name a bus of its slot, and only one of its slot (02 R47, R50). -/
theorem test_wf_v_idle_drive : (Instr.iadd { vNull with drv2 := { en := false, bus := 2 } }).wf = true ∧
    (Instr.iadd { vNull with drv2 := { en := false, bus := 3 } }).wf = false ∧
    (Instr.iadd { vNull with type := .i16x2, drv2 := { en := false, bus := 1 } }).wf = false := by decide
theorem test_wf_v_bus : (Instr.iadd { vNull with drv1 := { en := true, bus := 3 } }).wf = false := by decide
theorem test_wf_v_same_bus :
    (Instr.iadd { vNull with pd := .p 1, drv2 := { en := true, bus := 0 } }).wf = false := by decide

theorem test_wf_m_size : (Instr.stG { mNull with size := .i8 }).wf = false := by decide
theorem test_wf_m_class : (Instr.fence { mNull with order := .acquire, cls := 1 }).wf = false := by decide
theorem test_wf_m_scope : (Instr.stG { mNull with scope := .dev }).wf = false := by decide
theorem test_wf_m_order : (Instr.fence mNull).wf = false := by decide
theorem test_wf_m_policy : (Instr.fence { mNull with order := .acquire, cpol := .bypass }).wf = false := by decide
theorem test_wf_m_destination : (Instr.ldG mNull).wf = false := by decide
theorem test_wf_m_address : (Instr.fence { mNull with order := .acquire, aa := .v 1 }).wf = false := by decide
theorem test_wf_m_base : (Instr.stS { mNull with ab := .v 1 }).wf = false := by decide
theorem test_wf_m_data : (Instr.recMk { mNull with size := .b128, da := .v 4, drv := { en := true, bus := 6 } }).wf = false := by decide
theorem test_wf_m_compare : (Instr.atomGAdd { mNull with size := .b32, db := .v 1 }).wf = false := by decide
theorem test_wf_m_record : (Instr.fence { mNull with order := .acquire, buf := 1 }).wf = false := by decide
theorem test_wf_m_offset : (Instr.recMk { mNull with size := .b128, da := .s 4, drv := { en := true, bus := 6 }, ofs := 32 }).wf = false := by
  decide
theorem test_wf_m_drive : (Instr.ldG { mNull with dst := .v 4, drv := { en := true, bus := 7 } }).wf = false := by decide

theorem test_wf_e_lane_guard : (Instr.accZero { eNull with guard := { neg := false, sel := .p 0 } }).wf = false := by decide
theorem test_wf_e_acc : (Instr.uintArm { eNull with acc := 1 }).wf = false := by decide
theorem test_wf_e_ka : (Instr.uintArm { eNull with ka := 1 }).wf = false := by decide
theorem test_wf_e_kb : (Instr.uintArm { eNull with kb := 1 }).wf = false := by decide
theorem test_wf_e_xb : (Instr.uintArm { eNull with xb := 1 }).wf = false := by decide
theorem test_wf_e_source : (Instr.uintArm { eNull with src := .s 1 }).wf = false := by decide
theorem test_wf_e_destination : (Instr.uintArm { eNull with dst := .v 0 }).wf = false := by decide
theorem test_wf_e_command : (Instr.uintArm { eNull with cmd := 2 }).wf = false := by decide
theorem test_wf_e_queue : (Instr.sqCfg { eNull with ka := 4 }).wf = false := by decide
theorem test_wf_e_staging : (Instr.rsmp { eNull with xb := 15, src := .v 1 }).wf = false := by decide
theorem test_wf_e_drive : (Instr.ringStat { eNull with dst := .s 2 }).wf = false := by decide

theorem test_wf_packet_stream : (Instr.ctxsw stCtx 1).wf = false := by decide
theorem test_wf_packet_length : (Instr.cpNop stCtx 0).wf = false := by decide
theorem test_wf_packet_address : (Instr.write stCtx 2 [0]).wf = false := by decide
theorem test_wf_packet_loop : (Instr.cpLoop stCtx 1 126).wf = false := by decide
theorem test_wf_packet_copy : (Instr.copy stCtx [0]).wf = false := by decide

-- words written out bit by bit from the manual's encodings (02 R33 to R47; 25 R447): a leaf of each slot, a packet, what is refused

theorem test_decode_leaves : leafWords.all (fun x => (decodeLeaf x.1 x.2.1).toOption == some x.2.2) = true := by decide +kernel
theorem test_decode_packets : packetWords.all (fun x => (decodePacket x.1 x.2.1).toOption == some x.2.2) = true := by decide +kernel
theorem test_encode_leaves : leafWords.all (fun x => encodeLeaf x.2.2 == some x.2.1) = true := by decide +kernel

/-- 02 R50: guard code 24 is reserved. -/
theorem test_decode_reserved_guard : (decodeLeaf .v0 0x600200030040200203ff0000).toOption = none := by decide +kernel

-- a small machine: one user group at its first bundle, with a bundle open on it

/-- Its team: pages 0 to 2 are resident in frames 0 to 2. -/
def wTeam : Team :=
  let page (k : Nat) : SptEntry := { SptEntry.zeroOut with state := .resident, frame := k }
  (((({ launch := 0, index := 0, place := some (0, 0), saved := false, groups := [0], entry := 0x200000, inits := [], seed := true
        spt := [], fifo := [], rings := [], bars := [], retired := false, frames := [], starved := false, home := 0
        heldBy := false, last := [], pageIns := [] } : Team).setPage 0 (page 0)).setPage 1 (page 1)).setPage 2 (page 2))

def wDev : Device := (loadLeaf { State.reset.dev with bringUp := 4 } .c 0 none).setTeam 0 wTeam
def wCore : GCore := GCore.start 0x200000 0 allLanes
def wGroup (c : GCore) : Group := Group.start (.user 0) 0 true 0 0 c

/-- The machine with a group of these registers. -/
def wPut (c : GCore) : Device := wDev.setGroup (.user 0) (wGroup c)

/-- A bundle open on group 0 of a device, with literals. -/
def wOpen (d : Device) (c : GCore) (lits : List Word) : OpenBundle :=
  { start := d
    gid := .user 0
    slotB := false
    pc := 0x200000
    npc := 0x200004
    lits := lits
    lookM := 0
    lookE := 0
    ew := 0
    regs := c
    lanes := allLanes
    fmt := 0
    redirect := .next
    leave := none
    hold := none
    demand := []
    ckAfter := false
    parkAs := .none
    idx := []
    cycle := 0 }

def wState (d : Device) (c : GCore) (lits : List Word) : State := { State.reset with dev := d, opn := some (wOpen d c lits) }

/-- The registers of group 0 after an instruction on registers c with literals. -/
def after (c : GCore) (lits : List Word) (i : Instr) : Option GCore :=
  match exec i (wState (wPut c) c lits) with
  | .next t => (t.dev.group (.user 0)).map (fun g => g.core)
  | _ => none

/-- The cause in group 0's trap record after an instruction. -/
def trapped (c : GCore) (lits : List Word) (i : Instr) : Option Nat :=
  match exec i (wState (wPut c) c lits) with
  | .next t => (t.dev.group (.user 0)).map (fun g => if g.trapSet then recordCause g.trapRec else 0)
  | _ => none

/-- v4 of lane 0 after a vector operation with these values in v1, v2 and v3. -/
def lane0 (x y z : Word) (i : Instr) : Option Nat :=
  (after (((wCore.setV 1 0 x).setV 2 0 y).setV 3 0 z) [] i).map (fun c => (c.vAt 4 0).toNat)

def v1 : VOp := { vNull with sb := .v 0 }
def v3 : VOp := { vNull with sc := .v 3 }

-- values that the manual prints: 05 R142 to R147, the tables of R147

theorem test_bmix : lane0 0xFF00FF00 0x12345678 0xABCDEF01 (.bmix { v3 with imm8 := 0xD8 }) = some 0x12CD5601 := by decide +kernel
theorem test_clz_zero : lane0 0 0 0 (.clz v1) = some 32 := by decide +kernel
theorem test_ctz_zero : lane0 0 0 0 (.ctz v1) = some 32 := by decide +kernel
theorem test_popc : lane0 0x88776655 0 0 (.popc v1) = some 16 := by decide +kernel
theorem test_sar_wide : lane0 0x80000000 40 0 (.sar vNull) = some 0xFFFFFFFF := by decide +kernel
theorem test_shr_wide : lane0 0x80000000 40 0 (.shr vNull) = some 0 := by decide +kernel
theorem test_rot_wide : lane0 0x80000000 33 0 (.rot vNull) = some 0x40000000 := by decide +kernel
theorem test_bfx_signed : lane0 0xF0F0F0F0 0x0404 0 (.bfx { vNull with type := .i32 }) = some 0xFFFFFFFF := by decide +kernel
theorem test_bfx_unsigned : lane0 0xF0F0F0F0 0x0404 0 (.bfx vNull) = some 0xF := by decide +kernel
theorem test_bfx_above : lane0 0xF0F0F0F0 0x081C 0 (.bfx vNull) = some 0x0F := by decide +kernel
theorem test_bfi_dropped : lane0 0xAB 0 0x081C (.bfi v3) = some 0xB0000000 := by decide +kernel
theorem test_bperm : lane0 0x88776655 0x44332211 0x8705 (.bperm v3) = some 0x00445522 := by decide +kernel
theorem test_bperm_fill : lane0 0x88776655 0x44332211 0x7B05 (.bperm v3) = some 0x44FF5522 := by decide +kernel
theorem test_bperm_reversed : lane0 0x88776655 0x44332211 0x7805 (.bperm { v3 with sub := 1 }) = some 0x22550044 := by decide +kernel
theorem test_iadd_saturates : lane0 0x7FFFFFFF 1 0 (.iadd { vNull with type := .i32, sat := true }) = some 0x7FFFFFFF := by decide +kernel
theorem test_iadd_wraps : lane0 0x7FFFFFFF 1 0 (.iadd { vNull with type := .i32 }) = some 0x80000000 := by decide +kernel
theorem test_iabs_wraps : lane0 0x80000000 0 0 (.iabs { v1 with type := .i32 }) = some 0x80000000 := by decide +kernel
theorem test_iabs_saturates : lane0 0x80000000 0 0 (.iabs { v1 with type := .i32, sat := true }) = some 0x7FFFFFFF := by decide +kernel

/-- 1.0 + 2⁻²⁴ is a tie and goes to even (06, IEEE 754). -/
theorem test_fadd_tie : lane0 0x3F800000 0x33800000 0 (.fadd { vNull with type := .f32 }) = some 0x3F800000 := by decide +kernel
/-- Rounded up it is the next value. -/
theorem test_fadd_up : lane0 0x3F800000 0x33800000 0 (.fadd { vNull with type := .f32, rm := .up }) = some 0x3F800001 := by decide +kernel
/-- A product of 0 and an infinity is the quiet NaN (06 R156). -/
theorem test_fmul_nan : lane0 0 0x7F800000 0 (.fmul { vNull with type := .f32 }) = some 0x7FC00000 := by decide +kernel

-- 04 R112: the counted loop's register, and a trap's cause (04 R114)

theorem test_lend_counts : (after (wCore.setS 5 3) [] (.lend { cNull with d := .s 5, imm := 0x7FFE })).map (fun c => c.sAt 5) = some 2 := by
  decide +kernel
theorem test_loop_copies : (after (wCore.setS 6 3) [] (.loop { cNull with d := .s 5, sa := .s 6, imm := 6 })).map (fun c => c.sAt 5) = some 3 :=
  by decide +kernel
theorem test_trap_cause : trapped wCore [] (.trap { cNull with imm := 7 }) = some 0x01 := by decide +kernel
theorem test_iret_outside : trapped wCore [] (.iret cNull) = some 0x09 := by decide +kernel
theorem test_setfmt_forbidden : trapped (wCore.setS 1 0xFFFFFFFF) [] (.setfmt { cNull with sa := .s 1 }) = some 0x41 := by decide +kernel
theorem test_qxor_clears : (after (wCore.setQ 1 true) [] (.qxor { cNull with pd := .q 1, pa := .q 1, pb := .q 1 })).map (fun c => c.qAt 1) =
    some false := by decide +kernel
theorem test_xmov_extends : (after wCore [] (.xmov { cNull with d := .x 3, sa := .const 59 })).map (fun c => c.xAt 3) =
    some 0xFFFFFFFFFFFFFFFB := by decide +kernel
theorem test_xli : (after wCore [0x80000000, 4] (.xli { cNull with d := .x 3, sa := .k0 })).map (fun c => c.xAt 3) = some 0x480000000 := by
  decide +kernel
theorem test_write_p15 : (after wCore [] (.icmp { vNull with dst := .null, pd := .p 15 })).map (fun c => c.pAt 15) = some allLanes := by
  decide +kernel

-- 07 R186: a split with slot B idle; its example in R193

def splitCore : GCore := (wCore.setP 1 0xFFFF).setSlot false (issuingSlot 0x1000 allLanes 0)

theorem test_split_taken : ((splitCore.split false 0x1018 0x1004 0xFFFF).slotB.pc, (splitCore.split false 0x1018 0x1004 0xFFFF).slotB.lanes) =
    (0x1018, 0xFFFF) := by decide +kernel
theorem test_split_fall : ((splitCore.split false 0x1018 0x1004 0xFFFF).slotA.pc, (splitCore.split false 0x1018 0x1004 0xFFFF).slotA.lanes) =
    (0x1004, 0xFFFF0000) := by decide +kernel

-- 13 R278 and 14 R303: a store stands in the hamper and not in memory; 24 R439: the cap

theorem test_cap : ((match exec (.partitionCapWrite 1 9) { State.reset with dev := wDev } with | .next t => some (t.dev.part 1).cap | _ => none)) =
    some 9 := by decide +kernel

/-- Reset: nothing is listed in memory (log entry 5) and partition 1 is not created (26 R461). -/
theorem test_reset_memory : State.reset.dev.mem.hbm = [] := by decide
theorem test_reset_partition : (State.reset.dev.part 1).state = 0 := by decide

-- a word is fetched and run as the first step (the load of log entry 3)

theorem test_fetch_leaf : (match step (State.reset.withFetchWord 64 0x7C0945FFFE007FFE) with
    | .next t => (t.dev.group (.user 0)).map (fun g => g.core.sAt 5) | _ => none) = some 0xFFFFFFFF := by decide +kernel
theorem test_fetch_packet : (match step (State.reset.withFetchWord 32 0x00000001) with
    | .next t => some (t.dev.stream stCtx).top.pos | _ => none) = some 4 := by decide +kernel

-- states that meet the hypotheses of the statements: the machine and the vector operations

/-- An answer that is there. -/
theorem ok_of {ε α : Type} {x : Except ε α} (h : x.toOption.isSome = true) : ∃ a, x = .ok a := by
  cases x with
  | error e => exact absurd h Bool.false_ne_true
  | ok a => exact ⟨a, rfl⟩

theorem error_of {ε α : Type} {x : Except ε α} (h : x.toOption.isSome = false) : ∃ c, x = .error c := by
  cases x with
  | error e => exact ⟨e, rfl⟩
  | ok a => exact absurd h (Bool.noConfusion ·)

theorem some_of {α : Type} {x : Option α} (h : x.isSome = true) : ∃ a, x = some a := Option.isSome_iff_exists.mp h

def isRun : Opened → Bool
  | .run _ _ _ => true
  | .done _ => false

def fetchKind : PacketFetch → Nat
  | .idle => 0
  | .moved _ => 1
  | .run _ _ => 2

/-- StepKeepsSoundness: the reset state is sound and steps. -/
theorem test_meets_StepKeepsSoundness : State.sound State.reset ∧ ∃ t, step { State.reset with agenda := [.event (.issuePick 0)] } = .next t :=
  ⟨⟨rfl, rfl⟩, _, rfl⟩

/-- StepGoesOn: no bundle is open and the agenda names no slot operation. -/
theorem test_meets_StepGoesOn :
    State.betweenBundles State.reset ∧ ∀ i, Turn.event i ∈ [Turn.event (.issuePick 0)] → i.slotClass = none :=
  ⟨rfl, fun i h => by simp only [List.mem_cons, Turn.event.injEq, List.not_mem_nil, or_false] at h; subst h; rfl⟩

/-- A ring whose next packet is to be skipped. -/
def skipping : Device :=
  let d := (State.reset.withFetchWord 32 1).dev
  let x := d.stream stCtx
  d.setStream stCtx (x.setTop { x.top with skip := 1 })

/-- StepRunsTheInstruction: an event; a stream with nothing to read, one whose packet is skipped or refused, one whose packet runs. -/
theorem test_meets_StepRunsTheInstruction :
    fetchKind (fetchPacket State.reset.dev stCtx) = 0 ∧ fetchKind (fetchPacket skipping stCtx) = 1 ∧
      fetchKind (fetchPacket (State.reset.withFetchWord 32 1).dev stCtx) = 2 := by decide +kernel

/-- BundlesRunTheirSlots: no bundle is open; group 0 is picked or not, may issue or not, and its bundle opens. -/
theorem test_meets_BundlesRunTheirSlots :
    State.reset.opn = none ∧ wDev.coreOf (.user 0) = some 0 ∧ (wDev.core 0).picked.contains 0 = true ∧
      ((wDev.modCore 0 (fun x => { x with picked := [] })).core 0).picked.contains 0 = false ∧
      (let d0 := (State.reset.withFetchWord 64 0x7C0945FFFE007FFE).dev.modCore 0 (fun x => { x with picked := x.picked.filter (· != 0) })
       ableToIssue d0 0 = true ∧ inFront d0 0 = true ∧ isRun (openUser d0 0) = true ∧
        ableToIssue (d0.modGroup (.user 0) (fun g => { g with stopped := true })) 0 = false) := by decide +kernel

/-- A firmware context with a credit, and one without. -/
theorem test_meets_BundlesRunTheirSlots_firmware :
    let d := wDev.modCore 0 (fun x => x.setSeq 0 { x.seq 0 with credits := 1 })
    ((d.core 0).fwFault = false ∧ 0 < ((d.core 0).seq 0).credits ∧ (d.core 0).fwPicked.contains 0 = false ∧
      ((d.core 0).seq 0).lastIssue = none ∧ (d.core 0).fwPorts = [] ∧
      (match d.group (.fw 0) with | some g => !g.waitsData | none => false) = true) ∧ ((wDev.core 0).seq 0).credits = 0 := by decide +kernel

/-- LeavesDecodeAsEncoded and PacketsDecodeAsEncoded. -/
theorem test_meets_LeavesDecodeAsEncoded :
    leafWords.all (fun x => x.2.2.wf && x.2.2.slotClass == some x.1 && encodeLeaf x.2.2 == some x.2.1) = true := by decide +kernel
theorem test_meets_PacketsDecodeAsEncoded : packetWords.all (fun x => x.2.2.wf && streamOf x.2.2 == some x.1) = true := by decide +kernel

def wS : State := wState (wPut wCore) wCore []
def wB : OpenBundle := wOpen (wPut wCore) wCore []
def wG : Group := wGroup wCore

theorem wOpens : Open wS wB wG := ⟨rfl, rfl⟩

/-- VectorOperationsComplete, IntegerArithmeticValues, CompareAndSelectValues, LogicAndShiftValues, BitManipulationValues and
LaneCrossingValues: a vector operation of every type is ready on the small machine. -/
theorem test_meets_vector (t : VType) : VecReady wS wB wG { vNull with type := t } (.v 4) t.words :=
  ⟨wOpens, (by decide +kernel : vActive wB vNull ≠ 0), ⟨rfl, rfl, rfl⟩, by cases t <;> decide +kernel⟩

/-- IMADW's pair, and results of one word and with no destination. -/
theorem test_meets_vector_pair : VecReady wS wB wG { vNull with type := .i32 } (.v 4) 2 :=
  ⟨wOpens, (by decide +kernel : vActive wB vNull ≠ 0), ⟨rfl, rfl, rfl⟩, by decide +kernel⟩
theorem test_meets_vector_null (t : VType) : VecReady wS wB wG { vNull with type := t, dst := .null, pd := .p 1 } .null t.words :=
  ⟨wOpens, (by decide +kernel : vActive wB vNull ≠ 0), ⟨rfl, rfl, rfl⟩, by cases t <;> decide +kernel⟩
theorem test_meets_exchange : ({ vNull with imm8 := 5 } : VOp).imm8.toNat % 8 ≤ 5 ∧ VecReady wS wB wG { vNull with imm8 := 5 } (.v 4) 1 :=
  ⟨by decide, wOpens, (by decide +kernel : vActive wB vNull ≠ 0), ⟨rfl, rfl, rfl⟩, by decide +kernel⟩

/-- LateOpsComplete: lookahead 15. -/
theorem test_meets_LateOpsComplete : Open wS wB wG ∧ vActive wB { vNull with look := 15 } ≠ 0 ∧ litsPresent wB { vNull with look := 15 } :=
  ⟨wOpens, (by decide +kernel : vActive wB vNull ≠ 0), rfl, rfl, rfl⟩

/-- CompareAndSelectValues and LateOpsComplete: conversions at their last elements, FP32 and packed operands (test_meets_vector), an open launch for
RAND; a block scale of 0xFF and one of 0. -/
theorem test_meets_conversions :
    (∀ o ∈ [({ vNull with type := .e2m1, imm8 := 0x72 } : VOp), { vNull with type := .lg6, imm8 := 0x42 }, { vNull with type := .f32, imm8 := 0x0D, sub := 4 }],
        ∃ src, o.cvtSrc = some src ∧ converts src o.type = true ∧ convertsScaled src o.type = true ∧ elementsFit o src) ∧
      (∃ src, ({ vNull with type := .i64, imm8 := 2 } : VOp).cvtSrc = some src ∧ converts src .i64 = true ∧ src.elems = 1) ∧
      formatMode wB = some .near ∧ opC wB { vNull with sc := .const 63 } 1 0 % 2 ^ 8 = 0xFF ∧ opC wB { vNull with sc := .zero } 1 0 % 2 ^ 8 = 0 ∧
      (wS.dev.teamOf wB.gid).isSome = true ∧ (wS.dev.launchOf wB.gid).isSome = true :=
  ⟨by
    intro o ho
    simp only [List.mem_cons, List.not_mem_nil, or_false] at ho
    rcases ho with rfl | rfl | rfl
    · exact ⟨.f32, rfl, rfl, rfl, by decide, by decide⟩
    · exact ⟨.f32, rfl, rfl, rfl, by decide, by decide⟩
    · exact ⟨.lg6, rfl, rfl, rfl, by decide, by decide⟩,
   ⟨.f32, rfl, rfl, rfl⟩, by decide +kernel⟩

/-- The values of FADD, FMUL and FFMA by hand: 1.5 + 2.25 = 3.75, 2^-149 × 0.5 rounds to even, 3 × 3 − 9 = +0. -/
theorem test_float_values :
    fp32.add .near 0x3FC00000 0x40100000 = 0x40700000 ∧ fp32.mul .near 1 0x3F000000 = 0 ∧ fp32.fma .near 0x40400000 0x40400000 0xC1100000 = 0 := by
  decide +kernel

def never : Guard := { neg := true, sel := .none }

/-- A launch with four accumulator tiles a group. -/
def fewTiles : Spine := { loadSpine with pool := 0x010103 }

/-- InactiveOperationsDoNothing: guards that hold nowhere; a tile at the launch's count and one below it. -/
theorem test_meets_InactiveOperationsDoNothing :
    vActive wB { vNull with guard := never } = 0 ∧ Guard.holds never wB.regs 0 = false ∧ mActive wB { mNull with guard := never } = 0 ∧
      (wDev.launchOf (.user 0)).map (fun l => l.2.spine.tiles) = some 16 ∧ fewTiles.tiles = 4 ∧ (3#4).toNat < fewTiles.tiles ∧
      fewTiles.tiles ≤ (4#4).toNat := by decide +kernel

/-- AbsentLiteralsTrap: a first literal named with none there, a second with one; a span of 48 registers that a 49th joins. -/
theorem test_meets_AbsentLiteralsTrap :
    litMissing [] .k0 = true ∧ litMissing [0] .k1 = true ∧ vActive wB { vNull with sa := .k0 } ≠ 0 ∧ mActive wB { mNull with aa := .k0 } ≠ 0 ∧
      Guard.holds always wB.regs 0 = true ∧ wG.past = none ∧
      (addSpan (List.range 48) [100]).length = 49 ∧ (addSpan (List.range 47) [100]).length = 48 := by decide +kernel

/-- SystemValueInstructions: group 0's own place. -/
theorem test_meets_SystemValueInstructions :
    wB.start.group wB.gid = some wG ∧ (wB.start.teamOf wB.gid).isSome = true ∧ (wB.start.launchOf wB.gid).isSome = true ∧
      (wB.start.teamOf wB.gid).bind (fun t => t.2.place) = some (0, 0) :=
  ⟨rfl, by decide +kernel, by decide +kernel, by decide +kernel⟩

def fwBundle : OpenBundle := { wB with gid := .fw 0 }

/-- RDSYS and WRSYS in the firmware context; shares and selectors that are taken and that are not. -/
theorem test_meets_SystemValueInstructions_firmware :
    Open { wS with opn := some fwBundle } fwBundle (Group.firmware 0 0) ∧ vActive fwBundle { vNull with type := .n64, imm8 := 8 } ≠ 0 ∧
      litsPresent fwBundle { vNull with type := .n64, imm8 := 8 } ∧
      VecReady { wS with opn := some fwBundle } fwBundle (Group.firmware 0 0) { vNull with imm8 := 0x40 } .null 1 ∧
      fwBundle.start.group fwBundle.gid = some (Group.firmware 0 0) ∧ shareAllowed 0x110 = true ∧ shareAllowed 0x90F = false ∧
      (selectedGroup fwBundle.start 0 0).isSome = true ∧ selectedGroup fwBundle.start 0 127 = none :=
  ⟨⟨rfl, by decide +kernel⟩, (by decide +kernel : vActive wB vNull ≠ 0), ⟨rfl, rfl, rfl⟩,
    ⟨⟨rfl, by decide +kernel⟩, (by decide +kernel : vActive wB vNull ≠ 0), ⟨rfl, rfl, rfl⟩, by decide +kernel⟩,
    by decide +kernel, by decide +kernel, by decide +kernel, by decide +kernel, by decide +kernel⟩

-- control operations

/-- BranchesAndLoops, DivergentPaths, PathEndsTrapsAndLevels and UniformPredicatesAndStaging: a control operation is ready on the small
machine, whatever its fields but for its guard and literals. -/
theorem test_meets_control (d : CDst) (pd pa pb : PredRef) (imm : BitVec 15) :
    CtlReady wS wB wG { cNull with d := d, pd := pd, pa := pa, pb := pb, imm := imm } :=
  ⟨wOpens, (by decide +kernel : Guard.holds always wCore 0 = true), (by decide : (none : Option DWord) ≠ some wB.pc), rfl⟩

/-- BranchesAndLoops: the highest valid target and the lowest that is not, for the relative and the register forms; counts 0 and 1. -/
theorem test_meets_BranchesAndLoops :
    goodTarget (relTarget { wB with pc := 0x1FFFFFFFFFFFFFC } { cNull with sa := .zero, imm := 1 }) ∧
      ¬ goodTarget (relTarget { wB with pc := 0x1FFFFFFFFFFFFFE } { cNull with sa := .zero, imm := 1 }) ∧
      goodTarget (cPair { wB with regs := wCore.setSWords 4 [0xFFFFFFFE, 0x01FFFFFF] } { cNull with sa := .s 4 }) ∧
      ¬ goodTarget (cPair { wB with regs := wCore.setSWords 4 [1, 0] } { cNull with sa := .s 4 }) ∧
      goodTarget (skipTarget wB { cNull with imm := 0x7FFE }) ∧ ¬ goodTarget (skipTarget { wB with pc := 0 } { cNull with imm := 0x7FFF }) ∧
      cWord { wB with regs := wCore.setS 4 1 } { cNull with sa := .s 4 } ≠ 0 ∧ cWord wB { cNull with sa := .s 4 } = 0 ∧
      (wCore.setS 5 1).sAt 5 = 1 := by
  simp only [goodTarget]; decide +kernel

/-- DivergentPaths: no lane, some and all lanes take the branch; a live other slot and a full stack; a handler. -/
theorem test_meets_DivergentPaths :
    let taken (m : LaneMask) := maskOf (fun l => (slotLanes wB).getLsbD l && predBit { wB with regs := wCore.setP 1 m } (.p 1) l)
    taken 0 = 0 ∧ taken 1 ≠ 0 ∧ taken 1 ≠ slotLanes wB ∧ taken allLanes = slotLanes wB ∧ wB.regs.handler = none ∧
      (wB.regs.slot (!wB.slotB)).st = .idle ∧
      ((wCore.setSlot true (issuingSlot 0x3000 1 0)).slot (!false)).st ≠ .idle ∧
      (List.replicate 256 ({ w := false, fmt := 0, lanes := 0, pc := 0 } : StackEntry)).length = 256 := by decide +kernel

def someHandler : Handler := { slotA := idleSlot, slotB := idleSlot, turnB := false, stack := [], firstOp := 0 }

theorem test_meets_handler : ({ wB with regs := { wCore with handler := some someHandler } } : OpenBundle).regs.handler ≠ none := by decide +kernel

/-- PathEndsTrapsAndLevels: formats that are allowed and one that is not; the group's place; a debugger. -/
theorem test_meets_PathEndsTrapsAndLevels :
    fmtAllowed (cWord wB { cNull with sa := .s 4 }) = true ∧ fmtAllowed (cWord { wB with regs := wCore.setS 4 0xFFFFFFFF } { cNull with sa := .s 4 }) = false ∧
      (wS.dev.teamOf (.user 0)).bind (fun t => t.2.place) = some (0, 0) ∧ (wS.dev.part (wS.dev.partOf (.user 0))).debugger = false ∧
      ((wDev.modPart 1 (fun p => { p with debugger := true })).part 1).debugger = true := by decide +kernel

/-- SysRequestsAndAnswers: a request waits for its answer in s5. -/
theorem test_meets_SysRequestsAndAnswers :
    let d := wDev.setGroup (.user 0) { wG with park := .sys 3 0 (.s 5) }
    (d.group (.user 0)).map (fun g => g.park) = some (.sys 3 0 (.s 5)) ∧ (d.teamOf (.user 0)).isSome = true ∧
      (d.launchOf (.user 0)).isSome = true ∧ (3#15).toNat % 256 = 3 := by decide +kernel

/-- WaitbWaitsForPhase: a sound object in page 0, which is resident, with phase bit 0; a misaligned one; one past the space. -/
theorem test_meets_WaitbWaitsForPhase :
    (cWord wB { cNull with sa := .const 0x50 }).toNat = 16 ∧ (cWord wB { cNull with sa := .const 0x41 }).toNat % 16 ≠ 0 ∧
      (slotScratch (workOf wS wB) 16 false true).toOption.isSome = true ∧
      (slotScratch (workOf wS wB) (2 ^ 24) false true).toOption.isSome = false ∧
      scratchPoisoned wS.dev wTeam 24 = false ∧ phaseBit wS.dev wG wTeam 16 = false := by decide +kernel

def wLaunch : Launch := ((wDev.launch 0).getD
  { part := 1, stream := 0, spine := loadSpine, grants := [], leaves := [], replicas := [], counter := 0, rgrid := false, declared := 0
    spawned := 0, grid := Barrier.reset, releasing := [], placement := none, completion := 0, status := 0, code := 0, cause := 0, seq := none
    done := false, pops := [], reserved := [], slew := none })

/-- NamedBarriers and TeamAndGridBarriers: group 0 is alone in its team. -/
theorem test_meets_barriers : BarReady wS wB wG cNull 0 0 wTeam ∧ wS.dev.launch wTeam.launch = some wLaunch ∧ wLaunch.rgrid = false ∧
    Released wS wB true :=
  ⟨⟨test_meets_control .none .none .none .none 0, rfl, rfl, by decide +kernel, by decide +kernel, rfl, by decide +kernel⟩, by decide +kernel,
    by decide +kernel, by decide +kernel⟩

/-- Arrivals with the counts 0 and 1 fit a team of one group; 2 does not, and no second arrival of the group does. -/
theorem test_meets_arrivals :
    arrivalFits wS wG wTeam wLaunch cNull 0 ∧ arrivalFits wS wG wTeam wLaunch { cNull with imm := 16 } 0 ∧
      ¬ arrivalFits wS wG wTeam wLaunch { cNull with imm := 32 } 0 ∧
      ¬ arrivalFits wS wG (wTeam.setBar 0 { Barrier.reset with arrived := [0] }) wLaunch cNull 0 := by
  refine ⟨⟨by decide +kernel, ?_, by decide +kernel⟩, ⟨by decide +kernel, ?_, by decide +kernel⟩, fun h => absurd h.1 (by decide +kernel),
    fun h => absurd h.2.2.1 (by decide +kernel)⟩
  · intro e h; exact absurd h (by decide +revert +kernel)
  · intro e h; exact absurd h (by decide +revert +kernel)

/-- A phase of one expected arrival, with it and without. -/
theorem test_meets_phase :
    ({ Barrier.reset with expected := some 1, arrived := [0] } : Barrier).full = true ∧
      ({ Barrier.reset with expected := some 1 } : Barrier).full = false ∧ wS.dev.team 0 = some wTeam := by decide +kernel

-- memory operations

/-- A buffer record: base, element size 2^e, extent, and rights read, write and atomic (11 R241). -/
def bufRecord (base e extent : Nat) : List Word :=
  natWords 4 (base + 2 ^ 57 * e + 2 ^ 60 * extent + 2 ^ 121 * 7)

/-- Registers with record 0 over 128 elements of 4 bytes at the segment's start, a record of one element in b1, no rights in b2, and p1 set
in lane 0. -/
def mCore : GCore :=
  (((wCore.setBWords 0 0 (bufRecord 0x200000 2 128)).setBWords 1 0 (bufRecord 0x200000 2 1)).setBWords 3 0 (bufRecord 0x200000 4 32)).setP 1 1
def mS : State := wState (wPut mCore) mCore []
def mB : OpenBundle := wOpen (wPut mCore) mCore []
def mG : Group := wGroup mCore

def onlyLane0 : Guard := { neg := false, sel := .p 1 }

/-- Lane 0's element, 4 bytes. -/
def mLane : MOp := { mNull with guard := onlyLane0, size := .b32, dst := .v 4, aa := .lane, da := .v 1 }

theorem mReady (i : MOp) (hg : i.guard = onlyLane0) (ha : litMissing [] i.aa = false) (hb : litMissing [] i.ab = false)
    (hc : litMissing [] i.da = false) (hd : litMissing [] i.db = false) : MemReady mS mB mG i :=
  ⟨⟨rfl, rfl⟩, by unfold mActive; rw [hg]; decide +kernel, ha, hb, hc, hd⟩

/-- LoadInstructionsIssue and StoresEnterTheHamper: records whose checks pass, and one that a lane overruns; no TST is pending. -/
theorem test_meets_global :
    MemReady mS mB mG mLane ∧ (∃ as, globalAccs mS mB mLane readNeeds false = .ok as) ∧ (∃ as, globalAccs mS mB mLane writeNeeds false = .ok as) ∧
      (∃ as, globalAccs mS mB mLane bothNeeds true = .ok as) ∧ (∃ c, globalAccs mS mB { mLane with aa := .const 65, buf := 1 } readNeeds false = .error c) ∧
      (∃ c, globalAccs mS mB { mLane with buf := 2 } writeNeeds false = .error c) ∧
      (∃ as, recAccs mS mB { mLane with size := .b128, buf := 3 } = .ok as) ∧ (∃ c, recAccs mS mB mLane = .error c) ∧
      mG.acquireOp = none ∧ ∀ va size, mG.outPending va size = false :=
  ⟨mReady _ rfl rfl rfl rfl rfl, ok_of (by decide +kernel), ok_of (by decide +kernel), ok_of (by decide +kernel), error_of (by decide +kernel),
    error_of (by decide +kernel), ok_of (by decide +kernel), error_of (by decide +kernel), rfl, fun _ _ => rfl⟩

/-- The lanes' bytes fit into the hamper, and 65 entries do not. -/
theorem test_meets_hamper :
    (match globalAccs mS mB mLane writeNeeds false with
      | .ok as => decide ((hamperEntries (mG.hamper ++ globalBytes mS mB mG mLane as)).length ≤ 64)
      | .error _ => false) = true ∧
      (match globalAccs mS mB mLane writeNeeds false with
      | .ok as => decide (64 < (hamperEntries ((List.range 65).map (fun k =>
          ({ op := 0, glob := false, addr := 128 * k, pa := 0, val := 0, bpc := 0, slotB := false, lane := 0, tst := false } : ByteWrite)) ++
          globalBytes mS mB mG mLane as)).length)
      | .error _ => false) = true := by decide +kernel

/-- Scratchpad lanes: a word of page 0 for each lane; an address past the space. -/
theorem test_meets_scratch :
    mG.acquireOp = none ∧ (∃ x, scratchLanes (workOf mS mB) { mLane with size := .n8 } 1 false (mActive mB mLane) = .ok x) ∧
      (∃ x, scratchLanes (workOf mS mB) { mLane with aa := .zero } 4 true (mActive mB mLane) = .ok x) ∧
      (∃ c, scratchLanes (workOf mS mB) { mLane with aa := .const 0 } 4 false (mActive mB mLane) = .error c) ∧
      (mS.dev.part (workOf mS mB).part).inj.en = false ∧ scratchBad mS.dev mG wTeam mG.nextOp 0 4 = false :=
  ⟨rfl, ok_of (by decide +kernel), ok_of (by decide +kernel), error_of (by decide +kernel), by decide +kernel, by decide +kernel⟩

/-- LoadInstructionsIssue: a group that stands behind an acquire that waits for its line. -/
theorem test_meets_behind :
    Group.behindAcquire { mG with core := { mCore with pend :=
      [{ Work.pending (workOf mS mB) 0 0 allLanes .none false with lines := [0x8000], acq := true, arrived := false }] } } 1 = true ∧
      mG.behindAcquire mG.nextOp = false ∧ mG.behindRelease mG.nextOp = false ∧ mG.storesOut = true := by decide +kernel

/-- FencesAndHintsComplete: releases that are ready and not; records sound and malformed; an s register for REC.MK. -/
theorem test_meets_FencesAndHintsComplete :
    releaseReady mS.dev (.user 0) true 0 = true ∧ mG.loadsRead mG.nextOp = true ∧ mG.core.fences ++ mG.ck.fences = [] ∧
      Group.loadsRead { wG with core := { wCore with pend :=
        [{ Work.pending (workOf wS wB) 0 0 allLanes .none false with lines := [0x8000], arrived := false }] } } 9 = false ∧ (recOf mS mB { mNull with buf := 0 }).bad = false ∧ 0 < (recOf mS mB { mNull with buf := 0 }).span ∧
      (rcdOf (2 ^ 124)).bad = true ∧
      releaseReady (wDev.setGroup (.user 0) { wG with core := { wCore with pend :=
        [{ Work.pending (workOf wS wB) 0 0 allLanes .none false with lines := [0x8000], arrived := false }] } }) (.user 0) true 9 = false := by
  decide +kernel

/-- Accumulator tile 0, a row of 32 elements for lane 0. -/
def mTile : MOp := { mNull with aa := .zero, ofs := 16, guard := onlyLane0 }

def allReady : Except Cause (List Acc) → Bool
  | .ok as => as.all (fun a => !a.waiting)
  | .error _ => false

/-- TileTransfersComplete: a tile of the launch, its row's elements; a ring that is not configured; a busy tile. -/
theorem test_meets_TileTransfersComplete :
    tilePlace (workOf mS mB) mTile = .ok (0, wTeam, .acc 0) ∧ (∃ c, tilePlace (workOf mS mB) { mTile with ofs := 0 } = .error c) ∧
      allReady (tileAccs (workOf mS mB) mTile (mActive mB mTile) readNeeds 128) = true ∧
      allReady (tileAccs (workOf mS mB) mTile (mActive mB mTile) writeNeeds 128) = true ∧
      (match tileAccs (workOf mS mB) mTile (mActive mB mTile) readNeeds 128 with
        | .ok as => as.all (fun a => match a.at_ with
            | some (va, pa) => !lineAwaited mG 0 va pa && (tagCause mS.dev 1 (lineOf pa)).isNone &&
                (tget (mS.dev.core 0).l1 (l1Key 1 va)).isNone
            | none => true)
        | .error _ => false) = true ∧
      tileBusy mS.dev (workOf mS mB).coreNo mG 0 0 = false ∧
      tileBusy mS.dev 0 { mG with core := { mCore with tiles :=
        [{ op := 0, tile := 0, load := true, rows := [], outs := [], bpc := 0, slotB := false }] } } 0 0 = true :=
  ⟨by rfl, error_of (by decide +kernel), by decide +kernel, by decide +kernel, by decide +kernel, by decide +kernel, by decide +kernel⟩

theorem wQuiet (s : State) (h1 : s.dev.mem.planted = []) (h2 : (s.dev.part 1).inj.en = false) (h3 : coreGids s.dev 0 = [.user 0])
    (h4 : (s.dev.group (.user 0)).map (fun g => g.flight) = some []) : Quiet s 0 1 := by
  refine ⟨h1, h2, fun x hx y hy => ?_⟩
  rw [h3, List.mem_singleton] at hx
  subst hx
  rw [hy] at h4
  exact Option.some.inj h4

/-- TileTransfersComplete, AtomicsComplete and MemoryEventsComplete: no error, no injection, no store on its way; every line is sound. -/
theorem test_meets_quiet : Quiet mS 0 1 ∧ mS.dev.coreOf mB.gid = some 0 ∧ tagCause mS.dev 1 (lineOf loadPa) = none :=
  ⟨wQuiet mS (by decide +kernel) (by decide +kernel) (by decide +kernel) (by decide +kernel), by decide +kernel, by decide +kernel⟩

/-- AtomicsComplete: one lane's word in memory, and in page 0; the widths of the functions. -/
theorem test_meets_AtomicsComplete :
    (match globalAccs mS mB mLane bothNeeds true with
      | .ok as => as == [{ lane := 0, at_ := some (0x200000, loadPa) }]
      | .error _ => false) = true ∧ orderReleases MOrder.relaxed = false ∧ orderReleases MOrder.acqRel = true ∧
      (2 ^ 64 - 1 < 2 ^ 64 ∧ 0 < 2 ^ 32) := by decide +kernel

/-- A load of lane 0's word on its way, and one whose data were read at issue. -/
def loadOut : Pending :=
  { Work.pending (workOf mS mB) 5 0 1 (.v 4 1) false with
      loads := [{ lane := 0, va := 0x200000, pa := loadPa, size := 4, fwd := [] }], lines := [0x8000], arrived := false }
def dataOut : Pending := { Work.pending (workOf mS mB) 6 0 1 (.v 4 1) false with vals := [(0, [7])], arrived := false }

/-- MemoryEventsComplete: group 0 waits for a line and for data; nothing stands before them; the line's tag is sound; a store on its way. -/
def eG : Group :=
  { wGroup mCore with core := { mCore with pend := [loadOut, dataOut] } }
def eDev : Device := wDev.setGroup (.user 0) eG

theorem test_meets_MemoryEventsComplete :
    settleFences eDev (gidOf 0) = eDev ∧ eDev.group (gidOf 0) = some eG ∧ eG.core.pend.find? (fun p => p.op == 5 && p.lines.contains 0x8000) = some loadOut ∧
      loadOut.loads.find? (fun l => l.va / 64 == 0x8000) = some { lane := 0, va := 0x200000, pa := loadPa, size := 4, fwd := [] } ∧
      mayAnswer eG loadOut loadPa = true ∧ loadPa ≠ noPa ∧ loadOut.acq = false ∧ eG.waitsData = false ∧ eDev.coreOf (gidOf 0) = some 0 ∧
      tget (eDev.core 0).l1 (l1Key (eDev.partOf (gidOf 0)) 0x200000) = none ∧
      (eG.core.pend.any (fun p => p.op == 6 && !p.arrived && !p.unread && !p.vals.isEmpty && !p.isRsmp)) = true ∧
      (settleChecks eDev 1 0 [(0x200000, true, false, wB.trap 3 (causeOf 0x2A))]).isNone = true ∧
      (settleChecks eDev 1 0 [(0x400000, true, false, wB.trap 3 (causeOf 0x2A))]).isSome = true := by decide +kernel

theorem test_meets_MemoryEventsComplete_quiet : Quiet { State.reset with dev := eDev } 0 1 :=
  wQuiet _ (by decide +kernel) (by decide +kernel) (by decide +kernel) (by decide +kernel)

-- engine operations

/-- Two rings of two tiles of 128 bytes. -/
def wConf (base : Nat) : RingConf := { base := base, tsize := 64, tcount := 4 }

/-- The team with rings k0 and k1 configured, each with a tile pushed, and sparsity queue sq0. -/
def eTeam : Team :=
  let ring (base : Nat) : Ring := { Ring.reset with conf := some (wConf base), tail := 1, rtail := 1 }
  ((wTeam.setRing 0 (ring 0)).setRing 1 (ring 0)).setRing 16 { Ring.reset with conf := some { base := 0, tsize := 4, tcount := 1 } }

/-- x0 addresses page 0, x2 is a ring's parameters, x3 is none; s1 is 1. -/
def eCore : GCore := (((((wCore.setX 0 0).setX 1 0x200).setX 2 (BitVec.ofNat 64 (2 ^ 32 * 4 + 2 ^ 24 * 64))).setX 3 0xFFFFFFFFFFFFFFFF).setX 4 0x200000).setS 1 1
def eD : Device := (wDev.setTeam 0 eTeam).setGroup (.user 0) (wGroup eCore)
def eS : State := wState eD eCore []
def eB : OpenBundle := wOpen eD eCore []
def eOp : EOp := { eNull with src := .s 1, kb := 1 }

theorem eReady (o : EOp) (hg : o.guard = always) (hl : litMissing [] o.src = false) : EngReady eS eB (wGroup eCore) o 0 0 eTeam 0 wLaunch :=
  ⟨⟨rfl, rfl⟩, rfl, by rw [hg]; decide +kernel, hl, by decide +kernel, by decide +kernel⟩

theorem eCalm : Calm eS (coreNo eS eB) (wGroup eCore) := by
  refine ⟨by decide +kernel, rfl, fun x hx y hy => ?_⟩
  rw [show coreGids eS.dev (coreNo eS eB) = [.user 0] by decide +kernel, List.mem_singleton] at hx
  subst hx
  exact (Option.some.inj hy) ▸ rfl

/-- MatrixCommandsPassThePort: an MMA of one K-step whose rings fit, counts of 0 and 256 that do not, a sparse one on its queue; a calm port. -/
theorem test_meets_MatrixCommandsPassThePort :
    EngReady eS eB (wGroup eCore) eOp 0 0 eTeam 0 wLaunch ∧ Calm eS (coreNo eS eB) (wGroup eCore) ∧ eOp.acc.toNat < wLaunch.spine.tiles :=
  ⟨eReady _ rfl rfl, eCalm, by decide +kernel⟩

theorem test_meets_mma :
    engWord (workOf eS eB) eOp = 1 ∧ mmaCause (workOf eS eB) eTeam false 0 1 32 1 = none ∧ mmaCause (workOf eS eB) eTeam false 0 1 32 0 = some 0x64 ∧
      mmaCause (workOf eS eB) eTeam false 2 3 32 1 = some 0x61 ∧ mmaCause (workOf eS eB) eTeam true 0 1 17 1 = some 0x62 ∧
      (eS.dev.core (coreNo eS eB)).mq.length < 16 ∧ RingsFree eTeam 0 1 [0, 1] := by
  unfold RingsFree mine; decide +kernel

/-- RingCommandsComplete: parameters that are valid and that are not; no result waits. -/
theorem test_meets_RingCommandsComplete :
    ringParams (engX (workOf eS eB) { eOp with xb := 2 } 0) false = some (wConf 0) ∧
      ringParams (engX (workOf eS eB) { eOp with xb := 3 } 0) false = none ∧ ringParams (2 ^ 32 * 64 + 2 ^ 24 * 4) true ≠ none ∧
      ringParams (2 ^ 32 * 65 + 2 ^ 24 * 4) true = none ∧ (wGroup eCore).waitsData = false := by decide +kernel

/-- The only command of core 0's port. -/
def cmdOf (k : MxKind) : MxCmd :=
  { group := 0, team := 0, kind := k, tile := 0, rows := allLanes, fmt := 0, step := 0, resA := some 0, resB := some 0, resQ := none
    zero := false, bpc := 0, slotB := false, op := 0 }
def mxS (k : MxKind) : State := { eS with dev := eD.modCore 0 (fun c => { c with mq := [cmdOf k] }), opn := none }

theorem mxOne (k : MxKind) : OneCommand (mxS k) 0 (cmdOf k) := by
  refine ⟨rfl, fun g hg => ?_, fun x hx y hy => ?_⟩
  · exact (Option.some.inj hg) ▸ rfl
  · rw [show coreGids (mxS k).dev 0 = coreGids eD 0 from rfl, show coreGids eD 0 = [.user 0] by decide +kernel, List.mem_singleton] at hx
    subst hx
    exact (Option.some.inj hy) ▸ rfl

/-- MatrixPortEvents: a ring command whose ring nobody owns, and a K-step whose tiles are there. -/
theorem test_meets_MatrixPortEvents :
    OneCommand (mxS (.ringCfg 0 (wConf 0))) 0 (cmdOf (.ringCfg 0 (wConf 0))) ∧ (mxS (.ringRst 0)).dev.team 0 = some eTeam ∧
      (eTeam.ring 0).pushOwner = none ∧ (eTeam.ring 0).popOwner = none ∧ copyQueued (mxS (.ringRst 0)).dev 0 0 = false ∧
      (eTeam.ring 0).conf = some (wConf 0) :=
  ⟨mxOne _, by rfl, by decide +kernel, by decide +kernel, by decide +kernel, by decide +kernel⟩

theorem test_meets_kstep :
    kstepPops eTeam (cmdOf (.mma false 0 1 32 1)) = some [(0, 0, wConf 0), (1, 0, wConf 0)] ∧
      popsReady eTeam [(0, 0, wConf 0), (1, 0, wConf 0)] = true ∧
      (match fetchTiles eD 0 [(0, 0, wConf 0), (1, 0, wConf 0)] with | some (_, _, bad) => bad.isNone | none => false) = true ∧
      (eD.part (eD.partOf (.user 0))).prot = false ∧ (fmtA 0).isSome = true ∧ (fmtB 0).isSome = true := by decide +kernel

theorem tget_mem {α : Type} (t : Tbl α) (k : Nat) (v : α) (h : tget t k = some v) : (k, v) ∈ t := by
  induction t with
  | nil => cases h
  | cons x t ih =>
    obtain ⟨i, w⟩ := x
    simp only [tget] at h
    split at h
    · cases h; subst_vars; exact List.mem_cons_self
    · exact List.mem_cons_of_mem _ (ih h)

theorem tgetD_all {α : Type} (t : Tbl α) (p : Nat) (d : α) (f : α → Bool) (hd : f d = true) (h : t.all (fun x => f x.2) = true) :
    f (tgetD t p d) = true := by
  unfold tgetD
  cases e : tget t p with
  | none => exact hd
  | some v => exact List.all_eq_true.mp h _ (tget_mem _ _ _ e)

/-- Whether an entry's page is mapped. -/
def mapped (x : DWord) : Bool := decide ((SptEntry.ofBits x).state ≠ .unmapped)

/-- No page of the team is unmapped, so no byte of a tile stands in one. -/
theorem eTeam_mapped (p : Nat) : (eTeam.page p).state ≠ .unmapped :=
  of_decide_eq_true (tgetD_all eTeam.spt p SptEntry.zeroOut.bits mapped (by decide +kernel) (by decide +kernel))

/-- The pages of a tile of the rings are resident. -/
theorem test_meets_kstep_resident : ∀ x ∈ rangePages ((wConf 0).tileAddr 0) (wConf 0).bytes, (eTeam.page x).state = .resident := by
  decide +kernel

theorem test_meets_kstep_pages (ps : List (Nat × Nat × RingConf)) :
    popAddr ps (fun a => decide ((eTeam.page (a / pageSize)).state = .unmapped)) = none := by
  simp [popAddr, eTeam_mapped]

/-- A group with a completion in its queue. -/
def armedG : Group := { wGroup eCore with armed := true, uq := [{ record := 0, cause := 0 }] }
def armedDev : Device := eD.setGroup (.user 0) armedG

/-- KicksAndInterrupts: a record in page 0 and one that is misaligned; an empty queue; a group that may enter its handler. -/
theorem test_meets_KicksAndInterrupts :
    blockCause eTeam (engX (workOf eS eB) eOp 0) 0x66 = none ∧ blockCause eTeam 0x20 0x66 = some 0x66 ∧ blockCause eTeam (2 ^ 24) 0x66 = some 0x23 ∧
      blockCause eTeam stackBase 0x66 = some 0x24 ∧ blockCause eTeam 0x2000 0x66 = some 0x28 ∧ (eS.dev.core 0).kicks.length < 32 ∧
      Released eS eB true ∧ mayEnterHandler armedDev 0 armedG = true ∧ armedDev.group (.user 0) = some armedG ∧
      ((checkpoint armedDev (.user 0)).group (.user 0)).isSome = true ∧ mayEnterHandler eD 0 (wGroup eCore) = false := by decide +kernel

/-- A record of 64 bytes from memory to memory (17 R355). -/
def recBytes : List Byte := natBytes 64 (2 ^ 32 * 64 + 2 ^ 64 * 0x200000 + 2 ^ 128 * 0x200040 + 2 ^ 192 * 1 + 2 ^ 208 * 1)
def aKick : Kick := { group := 0, team := 0, record := 0, bytes := some recBytes, bpc := 0, slotB := false }

/-- CopyEngineSteps: a sound record, a request that reads, and one with a line in hand. -/
theorem test_meets_CopyEngineSteps :
    (bringRange eD 0 0 64 false).isSome = true ∧ objectBad eTeam (copyRecOf recBytes) = false ∧ (copyRecOf recBytes).uint = false ∧
      copyValid (copyRecOf recBytes) (copyReserved recBytes) = true ∧ touchesMoving eD 1 0 (copyRecOf recBytes) = false ∧
      (copyRecOf recBytes).skind = 0 ∧ (copyRecOf recBytes).dkind = 0 ∧ (copyRecOf recBytes).ring = none ∧
      (copyRecOf recBytes).total = 64 ∧ 0 < (copyRecOf recBytes).pieceLen 0 ∧
      (newReq eD (some aKick) none 1 (copyRecOf recBytes)).ready eD = true ∧
      copyXlate (cacheSegment eD 1 0 0x200000) 1 0 0x200000 readNeeds = .local_ loadPa ∧
      (tagOf eD (lineOf loadPa)).world = 1 ∧ (tagOf eD (lineOf loadPa)).poison = false := by decide +kernel

/-- CipherOperations: operands of SEAL that pass and that do not; ranges that are mapped. -/
theorem test_meets_CipherOperations :
    (cipherCause (workOf eS eB) { eOp with xb := 3, src := .s 1 } eTeam (cipherArgs (workOf eS eB) { eOp with xb := 3 })).isSome = true ∧
      rangeUnmapped eTeam 0 4096 = false := by decide +kernel

/-- SpawnEnqueuesTeams: a descriptor of zeros in page 0, one team; one team too many; a descriptor that is misaligned. -/
theorem test_meets_SpawnEnqueuesTeams :
    blockCause eTeam (engX (workOf eS eB) eOp 0) 0x13 = none ∧ blockCause eTeam 0x20 0x13 = some 0x13 ∧
      spawnCause wLaunch (teamDescOf (natBytes 64 (2 ^ 144 * 0xFF))) 1 = none ∧
      spawnCause wLaunch (teamDescOf (natBytes 64 (2 ^ 144 * 0xFF))) 65537 = some 0x13 ∧
      spawnCause { wLaunch with counter := 2 ^ 24 - 1 } (teamDescOf (natBytes 64 (2 ^ 144 * 0xFF))) 1 = some 0x12 := by decide +kernel

/-- PopulationInstructions: a descriptor that is there and readable; a population that is not live; no result of a round is due. -/
theorem test_meets_PopulationInstructions :
    portGood eS eB (engX (workOf eS eB) { eOp with xb := 4 } 0) ∧ (livePop (portDev eS eB 0x200000) 1 0x200000).isNone = true ∧
      (activateCause (portDev eS eB 0x200000) 1 0x200000 1).isSome = true ∧ (wGroup eCore).rsmpPending = false := by decide +kernel

/-- No word of the team's scratchpad is poisoned. -/
theorem test_meets_unpoisoned (a : Nat) : scratchPoisoned eD eTeam a = false := by
  have h : ((eD.core 0).bank 0).poison = [] := by decide +kernel
  have place : eTeam.place = some (0, 0) := by decide +kernel
  unfold scratchPoisoned
  rw [place]
  cases scratchTranslate eTeam a false false <;> simp [h]

/-- SEAL of the tile at 0 in place, its object at 4096 and its tag at 4112, under key 0 (CipherOperations). -/
def sealDev : Device := eD.modPart 1 (fun p => { p with keys := [(0, 0)] })
def sealCore : GCore := (eCore.setX 6 0).setX 7 (BitVec.ofNat 64 (4096 + 2 ^ 32 * 4112))
def sealOp : EOp := { eOp with xb := 6 }

theorem test_meets_CipherOperations_pass :
    let w : Work := { dev := sealDev, b := wOpen sealDev sealCore [] }
    cipherCause w sealOp eTeam (cipherArgs w sealOp) = none ∧
      (cipherInput sealDev { group := 0, team := 0, isSeal := true, src := 0, dst := 0, obj := 4096, tag := 4112, iv := [], key := 0, bpc := 0
                             slotB := false }).isSome = true ∧
      rangeUnmapped eTeam 4112 16 = false ∧ rangeUnmapped eTeam 4096 16 = false := by decide +kernel

/-- A descriptor of 2 members (18 R365), not yet active and active, and its population. -/
def popBytes (state : Nat) : List Byte := natBytes 128 (popMagic + 2 ^ 32 * state + 2 ^ 64 * 2 + 2 ^ 256 * 8)
def popDev (state : Nat) (c : GCore) : Device :=
  let d := ((wDev.setTeam 0 eTeam).setGroup (.user 0) (wGroup c)).modMem (fun m => { m with hbm := writeBytes m.hbm loadPa (popBytes state) })
  if state = 0 then d
  else d.modPart 1 (fun p => { p with pops := [(0x200000,
    { launch := some 0, desc := 0, held := { live := 0, reserve := 0, round := 0, nextId := 8, lastStat := 0, logPos := 0 }, current := none
      rounds := [], nextRound := 0 })] })

/-- Registers of a group whose lane 0 is member 1 and issues alone. -/
def popCore : GCore := { eCore.setPop 0 (.member 0x200000 1 0 0) with live := 1 }

/-- PopulationInstructions: a descriptor that may be activated; a live population that a group joins; a member that arrives. -/
theorem test_meets_population_init : activateCause (popDev 0 eCore) 1 0x200000 1 = none := by decide +kernel

theorem test_meets_population_join :
    let c : GCore := { eCore with live := 1 }
    let d := popDev 1 c
    let w := workAt d (wOpen d c [])
    let o : EOp := { eOp with xb := 4 }
    (match livePop d 1 0x200000 with
      | some x => !joinViolates w 0x200000 x && !idsViolate w 0x200000 x (joinIds w o)
      | none => false) = true := by decide +kernel

theorem test_meets_population_rsmp :
    let d := popDev 1 popCore
    let w := workAt d (wOpen d popCore [])
    let o : EOp := { eOp with xb := 4, src := .zero }
    (livePop d 1 0x200000).isSome = true ∧ (popLanesIn d 1 0x200000).any (fun m => m.1 == 0) = true ∧
      engX w o 1 % 2 ^ 32 ≤ descField (readDesc d 1 0x200000) 8 4 ∧ (wGroup popCore).rsmpPending = false ∧
     
      ((arrivalsOf w o 0x200000 0 256).all (fun a => a.id.isSome && !weightBad a.weight)) = true ∧ w.mayRelease true = true := by
  decide +kernel

/-- A round whose members have all arrived. -/
theorem test_meets_population_round :
    ({ desc := 0, members := [], reserves := [], errdep := false, outcome := none, short := false, landed := [], copies := []
       arrived := [{ group := 0, lane := 0, id := some 1, gen := 0, weight := 0, n := 0, image := imageOf eCore 0 256, window := [], place := (0, 0)
                     gone := false, ready := true }] } : Round).complete = true := by
  decide +kernel

/-- CopyEngineSteps: a request on ring k0, and a request with a line in hand. -/
def ringReq : CopyReq := newReq eD (some aKick) none 1 { copyRecOf recBytes with x0 := 4096, dkind := 4 }
def lineReq : CopyReq := { newReq eD (some aKick) none 1 { copyRecOf recBytes with x0 := 128 } with buf := List.replicate 64 (7#8) }

theorem test_meets_copy_line :
    lineReq.ready eD = true ∧ lineReq.rcd.pieceLen 0 ≤ lineReq.buf.length ∧ lineReq.n + lineReq.buf.length < lineReq.rcd.total ∧
      (match copyXlate (cacheSegment eD 1 0 0x200040) 1 0 0x200040 writeNeeds with | .local_ pa => pa == loadPa + 64 | _ => false) = true ∧
      (eD.core 0).mq = [] := by decide +kernel

theorem test_meets_copy_ring :
    ringReq.rcd.ring.isSome = true ∧ ringReq.owner = false ∧ ringReq.rcd.total % (wConf 0).bytes = 0 := by decide +kernel

-- the machine's services

/-- BinderInstalls: group 0 waits for a control leaf and a vector leaf. -/
def bindG : Group := { wGroup wCore with park := .quire [(.c, 0), (.v0, 0)] }
def bindS : State := { State.reset with dev := wDev.setGroup (.user 0) bindG }

theorem test_meets_BinderInstalls : Missing bindS 0 bindG wTeam 0 wLaunch 0 0 [(.c, 0), (.v0, 0)] :=
  ⟨rfl, ⟨0, rfl⟩, rfl, rfl, rfl⟩

theorem test_meets_BinderInstalls_places :
    wLaunch.replicas.contains (dieOf 0) = true ∧ (([(.c, 0), (.v0, 0)] : List (SlotClass × Nat)).map (fun x => x.1)).Nodup ∧
      ([(.c, 0), (.v0, 0)] : List (SlotClass × Nat)).all (fun x =>
        (entryPlace (tableFor (bindS.dev.core 0) 0 0 0 x.1) (wLaunch.grants.getD (clsNum x.1) 0) x.2).isSome) = true ∧
      runsOn wDev 0 0 = true ∧ wLaunch.done = false ∧
      ({ wLaunch with replicas := [] } : Launch).replicas.contains 0 = false := by decide +kernel

/-- CyclesPickGroups: over the budget and not; a group that is picked; a credit that is due and one that is not. -/
theorem test_meets_CyclesPickGroups :
    (Machine.Core.reset.budget < windowSum { Machine.Core.reset with weights := [(10, 4000)] } 20) ∧ windowSum Machine.Core.reset 20 ≤ Machine.Core.reset.budget ∧
      eligible wDev 5 0 = true ∧ (wDev.core 0).age (wDev.core 0).frontBank 0 = [0] ∧ (wDev.core 0).age (wDev.core 0).frontBank 1 = [] ∧
      (wDev.group (.user 0)).map (fun g => g.quad / 2) = some 0 ∧
      ((wDev.core 0).now < ((wDev.core 0).seq 0).creditAt + ((wDev.core 0).seq 0).interval) ∧
      (let c : Machine.Core := { wDev.core 0 with now := 5000 }; (c.seq 0).creditAt + (c.seq 0).interval ≤ c.now) := by decide +kernel

/-- TrapsFillTheRecord: a page fault of group 0. -/
theorem test_meets_TrapsFillTheRecord :
    let x := wB.trap 3 { causeOf 0x28 with addr := 0x4000, lane := some 7 }
    x.defer = false ∧ causeKind x.cause (wDev.part (wDev.partOf (.user 0))).debugger = .repair ∧ x.cause < 256 ∧ x.code < 256 ∧
      (wGroup wCore).index < 32 ∧ x.lane = some 7 ∧ x.slot < 8 ∧ x.addr < 2 ^ 64 ∧ x.bpc.toNat < 2 ^ 57 ∧ (wGroup wCore).ck.pend = [] ∧
      (wGroup wCore).ck.slotA.st ≠ .idle ∧ wDev.teamOf (.user 0) = some (0, wTeam) ∧ 0 ∈ wTeam.groups ∧
      (wDev.launchOf (.user 0)).isSome = true := by decide +kernel

/-- TrapsLeadOn, kind G: an uncorrectable error in group 0's bundle; a firmware context is another group, and a team-mate that waits at a
barrier is told. -/
theorem test_meets_TrapsFillTheRecord_group :
    causeKind (wB.trap 3 (causeOf 0xC1)).cause (wDev.part (wDev.partOf (.user 0))).debugger = .group ∧ wTeam.groups.Nodup ∧
      (wDev.groups.map (fun y => y.1)).Pairwise (· < ·) ∧ (wDev.group (.fw 0)).isSome = true ∧ wLaunch.done = false ∧
      wDev.launchOf (.user 0) = some (0, wLaunch) ∧
      (afterKill wTeam (.user 0) { wGroup wCore with waits := .barrier 3 0 }).core.qAt 6 = true ∧
      (afterKill wTeam (.user 1) (wGroup wCore)) = wGroup wCore := by decide +kernel

/-- A machine whose group 0 has trapped with a cause at an address. -/
def faultDev (cause addr : Nat) : Device :=
  takeTrap (wPut wCore) (.user 0) (wB.trap 3 { causeOf cause with addr })
def faultG (cause addr : Nat) : Group := ((faultDev cause addr).group (.user 0)).getD (wGroup wCore)
def faultS (cause addr : Nat) : State := { State.reset with dev := faultDev cause addr }

/-- RepairsAnswerTraps: page 2 is resident, so its fault is repaired; no frame is left for another; a segment that is present again. -/
theorem test_meets_RepairsAnswerTraps :
    (faultDev 0x28 0x2000).group (.user 0) = some (faultG 0x28 0x2000) ∧ (faultG 0x28 0x2000).trapSet = true ∧
      (faultG 0x28 0x2000).halted = false ∧ recordsTurn (faultDev 0x28 0x2000) 0 = true ∧
      ((faultDev 0x28 0x2000).teamOf (.user 0)).isSome = true ∧ recordCause (faultG 0x28 0x2000).trapRec = 0x28 ∧
      recordAddr (faultG 0x28 0x2000).trapRec = 0x2000 ∧
      (repairPage (faultDev 0x28 0x2000) 0 (spuOf (faultDev 0x28 0x2000) 0) 2 false).isSome = true ∧
      ((faultDev 0x28 0x2000).launchOf (.user 0)).isSome = true := by decide +kernel

theorem test_meets_RepairsAnswerTraps_unrepaired :
    let d := (faultDev 0x28 0x4000).modLaunch 0 (fun l => { l with spine := { l.spine with pool := 0 } })
    let d := d.modTeam 0 (fun t => t.setPage 4 { SptEntry.zeroOut with state := .out })
    (repairPage d 0 (spuOf d 0) 4 false).isNone = true := by decide +kernel

theorem test_meets_RepairsAnswerTraps_segment :
    recordCause (faultG 0x2A 0x200000).trapRec = 0x2A ∧ recordAddr (faultG 0x2A 0x200000).trapRec = 0x200000 ∧
      segAbsent (walkSegment (faultDev 0x2A 0x200000) ((faultDev 0x2A 0x200000).partOf (.user 0)) 0x200000) = false := by decide +kernel

/-- GroupControlCommands: a debugger is attached; quadrant 0's sequencer selects group 0, which has trapped with TRAP. -/
def debugDev : Device :=
  takeTrap ((wPut wCore).modPart 1 (fun p => { p with debugger := true })) (.user 0) (wB.trap 3 (causeOf 0x01))

theorem test_meets_GroupControlCommands :
    (selectedGroup debugDev 0 ((debugDev.core 0).seq 0).gsel).map (fun x => x.1) = some 0 ∧ (debugDev.team 0).isSome = true ∧
      (debugDev.team 0).map (fun t => t.groups) = some [0] ∧
      (debugDev.group (.user 0)).map (fun g => (g.kind, g.trapSet, recordCause g.trapRec, g.halted)) =
        some (.user 0, true, 0x01, false) ∧
      (debugDev.launchOf (.user 0)).map (fun x => x.2.done) = some false ∧ rselSpace 0x2000 = 1 := by decide +kernel

/-- BanksFlipDrainAndFill: core 0's front bank has an able group; swapped about, its back bank has; a saved team that may be taken. -/
def savedDev : Device :=
  (wDev.setTeam 0 { wTeam with place := none, saved := true }).modPart 1 (fun p => { p with bankCtx := [] })

theorem test_meets_BanksFlipDrainAndFill :
    (wDev.core 0).drain = .idle ∧ ableGroups wDev 0 (wDev.core 0).frontBank ≠ [] ∧
      (let d := wDev.modCore 0 (fun c => { c with front := !c.front })
       ableGroups d 0 (d.core 0).frontBank = [] ∧ ableGroups d 0 (d.core 0).backBank ≠ [] ∧ bankTeams d 0 (d.core 0).backBank ≠ []) ∧
      bankTeams savedDev 0 (savedDev.core 0).frontBank = [] ∧ bankTeams savedDev 0 (savedDev.core 0).backBank = [] ∧
      (List.range 5).find? (fun k => !(savedTeams savedDev (dieOf 0) k).isEmpty) = some 0 ∧ savedTeams savedDev (dieOf 0) 0 = [0] ∧
      canTake savedDev 0 0 (savedDev.core 0).backBank = true := by decide +kernel

/-- TeamsMoveAndRetire: group 0 moves to another core; it is stopped and its team has its save frames; it has retired. -/
def stillDev : Device := wDev.setGroup (.user 0) { wGroup wCore with stopped := true }
def exitDev : Device := wDev.setGroup (.user 0) { wGroup wCore with retired := true }

theorem test_meets_TeamsMoveAndRetire :
    wTeam.place ≠ some (1, 0) ∧ mayDepart wDev 0 = true ∧ canTake wDev 0 1 0 = true ∧ teamStopped stillDev wTeam = true ∧
      mayDepart stillDev 0 = true ∧
      (gatherFrames (stillDev.modPart 1 (fun p => { p with saveHead := 5, saveCount := 99 })) 1 0 1).2 = true ∧
      wDev.partOfDie (homeDie (5 * 4096)) = 1 ∧ teamFinished exitDev 0 wTeam = true ∧ wLaunch.counter ≤ 1 ∧ wLaunch.done = false := by
  decide +kernel

/-- DispatchersPlaceTeams: a team of the global queue and a die with room; a seed and a place; cores to release. -/
def queueDev : Device :=
  (wDev.setTeam 0 { wTeam with place := none }).modPart 1 (fun p =>
    { p with gq := [0], streams := [(0, { StreamSt.reset with wait := .seed 0 })] })

theorem test_meets_DispatchersPlaceTeams :
    (queueDev.teams.filter (fun t => savedRunnable queueDev 1 t.2)) = [] ∧ (queueDev.part 1).gq = [0] ∧
      (bestDie ((eligibleDies queueDev wLaunch wTeam).map (fun k => (k, dieRoom queueDev 0 k wLaunch)))).isSome = true ∧
      (seedOf queueDev 0).map (fun x => x.1) = some 0 ∧ ((queueDev.part 1).stream 0).wait = .seed 0 ∧
      contextRuns (queueDev.part 1) wLaunch = true ∧ (choosePlace queueDev 0 (queueDev.part 1).lead).isSome = true ∧
      ({ wLaunch with releasing := [0, 1] } : Launch).releasing ≠ [] := by decide +kernel

/-- PowerEvents: a level below its target, a change in progress, a cap that is taken and one that is not, a die of no partition. -/
theorem test_meets_PowerEvents :
    (let d : Die := { Die.reset with level := 3, target := 9, changing := none }; d.changing = none ∧ d.level < d.target) ∧
      ({ Die.reset with changing := some 4 } : Die).changing = some 4 ∧ (9 : DWord).toNat < 16 ∧ 16 ≤ (16 : DWord).toNat ∧
      wDev.partOfDie 1 = 0 := by decide +kernel

/-- SegmentEvents: no invalidation is in progress; a segment's entry is present; one that migrates, with nothing out. -/
def moveDev : Device :=
  (wDev.modMem (fun m => { m with hbm := writeBytes m.hbm 0x400010 (natBytes 16 (loadPa + 2 ^ 8 + 0x72)) })).modPart 1 (fun p =>
    { p with moving := [(1, 0xA00000)], inval := some none })

theorem test_meets_SegmentEvents :
    (wDev.part 1).inval = none ∧ segAbsent (walkSegment wDev 1 (1 * segSize)) = false ∧ segLoc (walkSegment wDev 1 (1 * segSize)) = 0 ∧
      segWorld (walkSegment wDev 1 (1 * segSize)) = 1 ∧ segState (walkSegment wDev 1 (1 * segSize)) = 1 ∧
      segEntryAddr wDev 1 (1 * segSize) = some 0x400010 ∧ (wDev.part 1).segBase = 0x200000 ∧
      segState (walkSegment moveDev 1 (1 * segSize)) = 2 ∧ segWorld (walkSegment moveDev 1 (1 * segSize)) = 1 ∧
      (moveDev.part 1).inval = some none ∧ requestsOut moveDev 1 none = false ∧ requestsOut moveDev 1 (some 1) = false ∧
      busyCount moveDev 1 1 = 0 := by decide +kernel

-- command packets

/-- Partition 1 with context stream 0 idle; the lead die caches the segment at 2 MiB; a spine with its leaves stands in it, and a word 7. -/
def spineBytes : List Byte :=
  natBytes 256 (0x51554946 + 2 ^ 32 + (2 ^ 64 + 2 ^ 80 + 2 ^ 96 + 2 ^ 112 + 2 ^ 128) + (2 ^ 144 + 2 ^ 160 + 2 ^ 176 + 2 ^ 192 + 2 ^ 208) +
    2 ^ 320 * 1 + 2 ^ 336 * 1 + 2 ^ 352 * 256 + 2 ^ 368 * 64 + 2 ^ 384 * 256 + 2 ^ 400 * 64 + 2 ^ 416 * 0x040103 + 2 ^ 512 * 0x200000)

def pDev : Device :=
  let d := wDev.modMem (fun m => { m with hbm := writeBytes (writeBytes m.hbm loadPa spineBytes) (loadPa + 0x1000) (natBytes 4 7) })
  let d := d.modPart 1 (fun p => { p with streams := [(0, StreamSt.reset)] })
  d.modDie 0 (fun x => { x with segCache := [(1, walkSegment d 1 0x200000)] })

def pS : State := { State.reset with dev := pDev }

/-- PacketsComplete: a stream that runs; places that may be written and that may not; levels, loops, and tests that hold and do not. -/
theorem test_meets_PacketsComplete :
    PacketRuns pS stCtx ∧ Sound pS 1 ∧ (pDev.stream stCtx).lvls.length < 3 ∧ (pDev.stream stCtx).top.loop = none ∧
      (tget (pDev.die (pDev.part 1).lead).segCache (0x201000 / segSize)).isSome = true ∧
      cpTranslate pDev 1 0x201000 { read := false, write := true, exec := false } = .local_ (loadPa + 0x1000) ∧
      tagCause pDev 1 (lineOf (loadPa + 0x1000)) = none ∧
      cpTranslate pDev 1 0 { read := false, write := true, exec := false } = .fault 0x2A ∧
      (cpRead pDev 1 0x201000 4).toOption = some (natBytes 4 7) ∧ (cpRead pDev 1 0 4).toOption = none := by decide +kernel

theorem test_meets_PacketsComplete_tests :
    testTrue { addr := 0x201000, mask := 0xFF, value := 7, op := .eq } (natBytes 4 7) ∧
      ¬ testTrue { addr := 0x201000, mask := 0xFF, value := 8, op := .notBelow } (natBytes 4 7) :=
  ⟨by show (BitVec.ofNat 32 (bytesNat (natBytes 4 7)) &&& (0xFF : Word)).toNat = (7 : Word).toNat; decide +kernel,
    by show ¬ (8 : Word).toNat ≤ (BitVec.ofNat 32 (bytesNat (natBytes 4 7)) &&& (0xFF : Word)).toNat; decide +kernel⟩

/-- A loop of no words, and of one NOP of one word that has been notified; a stream that waits on a test; three levels. -/
theorem test_meets_PacketsComplete_loop :
    (let x : StreamSt := { StreamSt.reset with wptr := 64 }
     12 + 0 - x.top.pos ≤ x.avail ∧ (measure pDev 1 x false 12 126 12).toOption = some true) ∧
      (let x : StreamSt := { StreamSt.reset with base := 0x200000, wptr := 64 }
       (measure (pDev.modMem (fun m => { m with hbm := writeBytes m.hbm (loadPa + 12) (natBytes 4 1) })) 1 x false 16 126 12).toOption =
         some true) ∧
      waitRuns (pDev.setStream stCtx { StreamSt.reset with wait := .test { addr := 0x201000, mask := 0xFF, value := 7, op := .eq } }) stCtx =
        true ∧
      3 ≤ ({ StreamSt.reset with levels := List.replicate 3 StreamSt.reset.top } : StreamSt).lvls.length := by decide +kernel

def wPacket : LaunchPacket := { spine := 0x200000, completion := 0x202000, declared := 0, args := [1], rgrid := false }

/-- LaunchCompletes: a spine and an image that are taken, and a launch that is refused for its declared teams. -/
theorem test_meets_LaunchCompletes :
    (cpRead pDev 1 0x200000 256).toOption = some spineBytes ∧ refusal pDev stCtx wPacket spineBytes (spineOf spineBytes) = none ∧
      (readImage pDev 1 0x200000 (spineOf spineBytes).counts 256 imageClasses).toOption.isSome = true ∧ (pDev.stream stCtx).pops = [] ∧
      refusal pDev stCtx { wPacket with declared := 1 } spineBytes (spineOf spineBytes) = some 1 ∧
      cpTranslate pDev 1 0x202000 { read := false, write := true, exec := false } = .local_ (loadPa + 0x2000) := by decide +kernel

/-- The words of a copy record. -/
def recWords : List Word := (List.range 16).map (fun i => BitVec.ofNat 32 (bytesNat recBytes / 2 ^ (32 * i)))

/-- EnginePacketsComplete: records that are valid and invalid; descriptors of every kind; a switch to stream 1. -/
theorem test_meets_EnginePacketsComplete :
    wordBytes recWords = recBytes ∧ packetCopyValid (copyRecOf recBytes) (copyReserved recBytes) = true ∧
      touchesMoving pDev 1 (pDev.part 1).lead (copyRecOf recBytes) = false ∧
      packetCopyValid (copyRecOf (wordBytes [])) (copyReserved (wordBytes [])) = false ∧
      descWaits pDev 1 0x200000 = false ∧ descCause pDev 1 0 = some 0x2A ∧ descCause pDev 1 0x200000 = none ∧
      (activateCause pDev 1 0x200000 1).isSome = true ∧ activateCause (popDev 0 eCore) 1 0x200000 1 = none ∧
      (pDev.part 1).active = (0 : BitVec 2).toNat ∧ (pDev.part 1).active ≠ (1 : BitVec 2).toNat := by decide +kernel

-- the hub

/-- A device whose partition 1 is unlocked and has no team. -/
def hDev : Device := ({ pDev with teams := [], launches := [], groups := [], bringUp := 4 } : Device).modPart 1 (fun p => { p with tdi := .unlocked })
def hS : State := { State.reset with dev := hDev }

/-- StreamRegistersTakeWrites: a locked and an unlocked partition; a stream that is idle and one that is not; writes at the bounds. -/
theorem test_meets_StreamRegistersTakeWrites :
    StreamThere pS stCtx ∧ Locked pS 1 ∧ StreamThere hS stCtx ∧ ¬ Locked hS 1 ∧ (hDev.stream stCtx).idle = true ∧
      ({ StreamSt.reset with wptr := 4 } : StreamSt).idle = false ∧ (8 : DWord).toNat < 2 ^ StreamSt.reset.log2 ∧
      2 ^ StreamSt.reset.log2 ≤ (0x1000000 : DWord).toNat ∧ 12 ≤ natBits (20 : DWord).toNat 0 5 ∧ natBits (11 : DWord).toNat 0 5 < 12 := by
  decide +kernel

/-- HostReachesTheModule: a die with no launch; a partition in test mode; an address that may be reached and those that may not. -/
theorem test_meets_HostReachesTheModule :
    hDev.partOfDie 0 = 1 ∧ launchOnDie hDev 0 = false ∧ natBits (0x818 : DWord).toNat 8 5 = 8 ∧ natBits (0x818 : DWord).toNat 0 5 = 24 ∧
      (hDev.part 1).state ≠ 0 ∧ (hDev.part 1).conf = false ∧ ({ Part.reset with conf := true } : Part).conf = true ∧
      ({ Part.reset with test := true } : Part).test = true ∧ Sound hS 1 ∧ ingressCause hDev 1 (loadPa + 63) = none ∧
      ingressCause hDev 1 (2 ^ 40) = some 0x2A ∧ ingressCause State.reset.dev 1 64 = some 0x26 := by decide +kernel

/-- PartitionCommandsComplete: dies that may be given to partition 2 and dies that are taken; the states of a partition. -/
theorem test_meets_PartitionCommandsComplete :
    natBits (2 ^ 49 : DWord).toNat 9 32 = 0 ∧ 4 ≤ hDev.bringUp ∧ (hDev.part 2).state = 0 ∧ (BitVec.ofNat 16 2).getLsbD 1 = true ∧
      (hDev.die 1).absent = false ∧ hDev.partOfDie 1 = 0 ∧ hDev.partOfDie 0 ≠ 0 ∧ (hDev.part 1).state = 1 ∧ switching (hDev.part 1) = false ∧
      ({ hDev.part 1 with state := 2 } : Part).state = 2 ∧ (hDev.part 1).dieList = [0] := by decide +kernel

theorem test_meets_PartitionCommandsComplete_free :
    ¬ ∃ i, i < 16 ∧ (BitVec.ofNat 16 2).getLsbD i = true ∧ ((hDev.die i).absent = true ∨ hDev.partOfDie i ≠ 0) := by
  rintro ⟨i, hi, h, k⟩
  revert h k
  revert i
  decide +kernel

/-- LockAndResetComplete: an unlocked partition that is created, a locked one, and one that is not created. -/
theorem test_meets_LockAndResetComplete :
    (hDev.part 1).tdi = .unlocked ∧ (hDev.part 1).state ≠ 0 ∧ ({ Part.reset with tdi := .locked } : Part).tdi = .locked ∧
      (State.reset.dev.part 1).state = 0 ∧ (pDev.part 1).tdi ≠ .unlocked ∧ (pDev.part 1).tdi ≠ .locked := by decide +kernel

/-- ErrorsStrikeTheirPlace: a group that runs, protected and not; a scratchpad word in page 0; a line of world 1; injector values. -/
theorem test_meets_ErrorsStrikeTheirPlace :
    (wGroup wCore).retired = false ∧ (wGroup wCore).halted = false ∧ (wGroup wCore).trapSet = false ∧ (wGroup wCore).index < 32 ∧
      (wDev.teamOf (.user 0)).isSome = true ∧ (wDev.launchOf (.user 0)).isSome = true ∧ (wDev.part (wDev.partOf (.user 0))).prot = false ∧
      ((wDev.modPart 1 (fun p => { p with prot := true })).part (wDev.partOf (.user 0))).prot = true ∧ wTeam.place = some (0, 0) ∧
      (scratchTranslate wTeam 64 false false).toOption.isSome = true ∧ (tagOf wDev (lineOf loadPa)).world = 1 ∧
      natBits (2 ^ 48 + 2 ^ 4 + 3 : DWord).toNat 8 16 = 0 ∧ natBits (2 ^ 48 + 2 ^ 4 + 3 : DWord).toNat 5 2 = 0 ∧
      natBits (2 ^ 8 : DWord).toNat 8 16 ≠ 0 := by decide +kernel

/-- A port in use, with keys in slot 0 of both directions. -/
def wPort : Port :=
  { Port.reset with up := true, txKeys := [(0, { valid := true, key := 5, salt := 6 })], rxKeys := [(0, { valid := true, key := 7, salt := 8 })] }
def endPort : Port := { wPort with txCtr := 0xF0000000, txKeys := (1, { valid := true, key := 1, salt := 2 }) :: wPort.txKeys }
def sentPort : Port := { wPort with replay := [{ slot := 0, ctr := 3, marker := false, bytes := [] }], naks := 7, nakAt := 4 }

/-- LinkFlitsComplete: a port that receives; flits that fail; a marker due and not due; a flit that is acknowledged and one that is not there;
the first and the eighth request. -/
theorem test_meets_LinkFlitsComplete :
    wPort.up = true ∧ (keyOf wPort.rxKeys wPort.rxSlot).valid = true ∧ wPort.rxSlot < 2 ∧ wPort.rxCtr < 2 ^ 32 ∧
      wPort.judge [] 1 = .asked ∧ wPort.judge [] 2 = .asked ∧ endPort.maySend = true ∧ endPort.markDue = true ∧ wPort.markDue = false ∧
      sentPort.replay.findIdx? (fun f => f.slot == 0 && f.ctr == 3) = some 0 ∧ wPort.queue = [] ∧
      sentPort.replay.findIdx? (fun f => f.slot == 1 && f.ctr == 3) = none ∧ wPort.failed = false ∧ 8 ≤ sentPort.naks + 1 ∧
      4 ≤ hDev.bringUp ∧ Port.reset.up = false := by decide +kernel

/-- A region of an export table at virtual address 200000H, and write and read packets of four bytes to it (27 R474, R476). -/
def exportDev : Device :=
  let region := natBytes 32 (0x201000 + 2 ^ 64 * 4096 + 2 ^ 128 * 99 + 2 ^ 192 * 3)
  (pDev.modMem (fun m => { m with hbm := writeBytes m.hbm loadPa region })).modPart 1 (fun p => { p with exportBase := 0x200000 })
def linkPacket (op akey : Nat) : List Byte :=
  ({ op, len := 4, tag := 0, world := 1, region := 0, offset := 8, akey, status := 0, data := [1, 2, 3, 4] } : Packet).bytes

/-- A copy request that waits for tag 0 of port 3. -/
def tagReq : CopyReq := { ringReq with peerTag := some (3, 0), rcd := { ringReq.rcd with skind := 1 } }
def tagDev : Device := pDev.modCore 0 (fun c => { c with reqs := [tagReq] })

theorem test_meets_LinkTransactionsComplete :
    (packetOf (linkPacket 1 99)).world = 1 ∧ (packetPlaces exportDev (linkPacket 1 99) true).isSome = true ∧
      packetPlaces exportDev (linkPacket 1 98) true = none ∧ (packetPlaces exportDev (linkPacket 2 99) false).isSome = true ∧
      packetPlaces exportDev (linkPacket 2 98) false = none ∧ waitingReq tagDev 3 0 = some (0, tagReq) ∧
      reqOf tagDev 0 tagReq.id = some tagReq ∧ tagReq.buf.length < tagReq.rcd.pieceLen tagReq.n ∧ (packetOf (linkPacket 3 0)).status = 0 ∧
      waitingReq pDev 3 0 = none := by decide +kernel

theorem test_meets_LinkTransactionsComplete_write :
    let r : CopyReq := { lineReq with rcd := { lineReq.rcd with dkind := 1 }, peerTag := some (3, 0) }
    r.rcd.pieceLen r.n ≤ r.buf.length ∧ r.rcd.count = false ∧ r.n + r.buf.length < r.rcd.total ∧ (wDev.core 0).mq = [] ∧
      (wDev.group (.user 0)).map (fun g => g.core.tiles) = some [] := by decide +kernel

-- further states that meet hypotheses

theorem tget_all {α : Type} (t : Tbl α) (k : Nat) (v : α) (f : α → Bool) (h : t.all (fun x => f x.2) = true) (e : tget t k = some v) : f v = true :=
  List.all_eq_true.mp h _ (tget_mem _ _ _ e)

/-- A check of every group that a device lists holds of every group that it has. -/
theorem groups_all (d : Device) (f : Group → Bool) (h1 : d.groups.all (fun x => f x.2) = true) (h2 : d.fw.all (fun x => f x.2) = true)
    (h3 : ∀ c q, f (Group.firmware c q) = true) (k : Gid) (y : Group) (e : d.group k = some y) : f y = true := by
  cases k with
  | user id => exact tget_all _ _ _ _ h1 e
  | fw key =>
    simp only [Device.group, Option.some.injEq] at e
    subst e
    cases e : tget d.fw key with
    | none => exact h3 _ _
    | some v => exact tget_all _ _ _ _ h2 e

/-- NobodyWaits, on the small machine and on one that runs packets. -/
theorem test_meets_NobodyWaits : NobodyWaits { State.reset with dev := wDev } ∧ NobodyWaits pS :=
  ⟨fun k y h => by simpa using groups_all wDev (fun g => !g.waitsFirmware) (by decide +kernel) (by decide +kernel) (fun _ _ => rfl) k y h,
    fun k y h => by simpa using groups_all pDev (fun g => !g.waitsFirmware) (by decide +kernel) (by decide +kernel) (fun _ _ => rfl) k y h⟩

/-- AtRest: group 0 after its last checkpoint. -/
theorem test_meets_AtRest : AtRest (wGroup wCore) := by unfold AtRest; decide +kernel

/-- A store of a line that a copy request writes finds no store and no tile transfer under way (DestinationLinesAreWritten). -/
theorem test_meets_copy_quiet (k : Gid) (y : Group) (h : eD.group k = some y) : y.flight = [] ∧ y.core.tiles = [] := by
  simpa using groups_all eD (fun g => g.flight.isEmpty && g.core.tiles.isEmpty) (by decide +kernel) (by decide +kernel) (fun _ _ => rfl) k y h

/-- A firmware context executes a YIELD, a barrier or a SYS: it has no team. -/
theorem test_meets_control_firmware :
    CtlReady { wS with opn := some fwBundle } fwBundle (Group.firmware 0 0) { cNull with d := .s 5 } ∧ fwBundle.regs.handler = none ∧
      (fwBundle.regs.slot (!fwBundle.slotB)).st = .idle ∧ wS.dev.teamOf fwBundle.gid = none ∧
      Released { wS with opn := some fwBundle } fwBundle false :=
  ⟨⟨⟨rfl, by decide +kernel⟩, (by decide +kernel : Guard.holds always wCore 0 = true), by decide +kernel, rfl⟩, by decide +kernel,
    by decide +kernel, by decide +kernel, by decide +kernel⟩

/-- DivergentPaths: a push whose page is at hand, and one whose page is out; lanes that take the branch and lanes that do not. -/
def pushCore : GCore := (wCore.setP 1 1).setSlot true (issuingSlot 0x3000 1 0)
def pushS (t : Team) : State := wState ((wPut pushCore).setTeam 0 t) pushCore []
def pushB (t : Team) : OpenBundle := wOpen ((wPut pushCore).setTeam 0 t) pushCore []
def pushOp : COp := { cNull with pa := .p 1, sa := .zero, imm := 9 }
def stackTeam : Team := wTeam.setPage 8128 { SptEntry.zeroOut with state := .resident, frame := 3 }

theorem test_meets_DivergentPaths_push :
    takenBy (pushB wTeam) pushOp ≠ 0 ∧ takenBy (pushB wTeam) pushOp ≠ slotLanes (pushB wTeam) ∧ goodTarget (relTarget (pushB wTeam) pushOp) ∧
      (slotScratch (workOf (pushS stackTeam) (splitting (pushB stackTeam) pushOp)) (pushAddr wG (pushB stackTeam)) true false).toOption.isSome =
        true ∧
      (slotScratch (workOf (pushS wTeam) (splitting (pushB wTeam) pushOp)) (pushAddr wG (pushB wTeam)) true false).toOption.isSome = false := by
  simp only [goodTarget]; decide +kernel

/-- WaitbWaitsForPhase: a frame demand that is full and one with room; a poisoned phase word; pages in each state. -/
theorem test_meets_WaitbWaitsForPhase_pages :
    (({ workOf wS wB with b := { wB with demand := List.range 8 } } : Work).addDemand [16]).isNone = true ∧
      ((workOf wS wB).addDemand [0]).isSome = true ∧
      scratchPoisoned (wDev.modCore 0 (fun c => c.setBank 0 { c.bank 0 with poison := [1] })) wTeam 8 = true ∧
      (wTeam.page 0).state = .resident ∧ (wTeam.page 9).state = .out ∧
      ((wTeam.setPage 9 { SptEntry.zeroOut with state := .unmapped }).page 9).state = .unmapped := by decide +kernel

/-- TeamAndGridBarriers: a resident grid; a group of a team that lost one; a store under way that a release waits for. -/
theorem test_meets_barriers_out :
    ({ wLaunch with rgrid := true } : Launch).rgrid = true ∧ ({ wG with abandon := true } : Group).abandon = true ∧
      ¬ Released { wS with dev := wDev.setGroup (.user 0) { wG with core := { wCore with pend :=
        [{ Work.pending (workOf wS wB) 0 0 allLanes .none false with lines := [0x8000], arrived := false }] } } }
        { wB with start := wDev.setGroup (.user 0) { wG with nextOp := 1 } } false := by decide +kernel

/-- LoadInstructionsIssue: a TST that has still to write, and a store that a migrating segment holds back. -/
theorem test_meets_loads_out :
    ({ mG with core := { mCore with tiles := [{ op := 0, tile := 0, load := false, rows := [], outs := [(0, 0x200000, loadPa, 0)], bpc := 0
                                                slotB := false }] } } : Group).outPending 0x200000 4 = true ∧
      (match globalAccs { mS with dev := mS.dev.modMem (fun m => { m with hbm := writeBytes m.hbm 0x400010 (natBytes 16 (loadPa + 2 ^ 8 + 0x72)) }) }
          mB mLane readNeeds false with
        | .ok as => as.any (fun a => a.waiting)
        | .error _ => false) = true := by decide +kernel

/-- MemoryEventsComplete: a store on its way home, to a line that is sound and to one of another partition. -/
def homeG (pa : Nat) : Group :=
  { eG with flight := [{ op := 0, glob := true, addr := 0x200000, pa := pa, val := 7, bpc := 0x200000, slotB := false, lane := 3, tst := false }] }
def homeDev (pa : Nat) : Device := wDev.setGroup (.user 0) (homeG pa)

theorem test_meets_StoreReachesHome :
    ((settleStores (homeDev loadPa) (gidOf 0)).group (gidOf 0)).map (fun g => g.flight.length) = some 1 ∧
      tagCause (settleStores (homeDev loadPa) (gidOf 0)) 1 (lineOf loadPa) = none ∧
      tagCause (settleStores (homeDev (2 ^ 38)) (gidOf 0)) 1 (lineOf (2 ^ 38)) = some 0x26 := by decide +kernel

/-- MatrixCommandsPassThePort: a full port, and a ring whose pops another group owns. -/
theorem test_meets_port_full :
    16 ≤ ((eD.modCore 0 (fun c => { c with mq := List.replicate 16 (cmdOf (.ringRst 0)) })).core 0).mq.length ∧
      ¬ RingsFree (eTeam.setRing 0 { eTeam.ring 0 with popOwner := some (.group 7) }) 0 1 [0, 1] := by
  unfold RingsFree mine; decide +kernel

/-- TileTransfersComplete: ring k0 has room, its tile is at hand and nobody owns it. -/
def ringTile : MOp := { mNull with aa := .zero, guard := onlyLane0 }
def ringCore : GCore := { mCore with x := eCore.x }
def ringDev : Device := (wDev.setTeam 0 eTeam).setGroup (.user 0) (wGroup ringCore)
def ringS : State := wState ringDev ringCore []
def ringB : OpenBundle := wOpen ringDev ringCore []

theorem test_meets_ring_tiles :
    tilePlace (workOf ringS ringB) ringTile = .ok (0, eTeam, .ring 0 (wConf 0)) ∧
      allReady (tileAccs (workOf ringS ringB) ringTile (mActive ringB ringTile) readNeeds 128) = true ∧
      allReady (tileAccs (workOf ringS ringB) ringTile (mActive ringB ringTile) writeNeeds 128) = true ∧
      TileAtHand eTeam ((wConf 0).tileAddr 0) (wConf 0).bytes ∧ mine (eTeam.ring 0).pushOwner 0 ∧
      (eTeam.ring 0).rtail - (eTeam.ring 0).head < 4 ∧ (eTeam.ring 0).rhead < (eTeam.ring 0).tail := by
  unfold TileAtHand mine
  exact ⟨by rfl, by decide +kernel, by decide +kernel, by decide +kernel, by decide +kernel, by decide +kernel, by decide +kernel⟩

/-- CipherOperations: SEAL's pages are at hand. -/
theorem test_meets_CipherOperations_pages : PagesAtHand { eS with dev := sealDev } eTeam [(0, 4096), (0, 4096), (4112, 16), (4096, 16)] := by
  refine ⟨by decide +kernel, by decide +kernel, by decide +kernel, by decide +kernel, by decide +kernel, fun r _ i _ => ?_⟩
  have h : ((sealDev.core 0).bank 0).poison = [] := by decide +kernel
  have place : eTeam.place = some (0, 0) := by decide +kernel
  unfold scratchPoisoned
  rw [place]
  cases scratchTranslate eTeam (r.1 + i : Nat) false false <;> simp [h]

/-- CopyEngineSteps: a request whose turn at ring k0 it is; lines of every kind of source. -/
theorem test_meets_RingsAreGranted :
    let d := eD.modCore 0 (fun c => { c with reqs := [ringReq] })
    reqOf d 0 ringReq.id = some ringReq ∧ ringReq.awaits 0 0 = true ∧ (eTeam.ring 0).pushOwner = none ∧
      d.cores.all (fun c => c.2.reqs.all (fun x => decide (ringReq.id ≤ x.id))) = true ∧ (eTeam.ring 0).conf = some (wConf 0) ∧
      (wConf 0).bytes ≠ 0 := by decide +kernel

theorem test_meets_SourceLinesAreRead :
    stagingGood eD 1 64 = true ∧ stagingGood eD 1 (2 ^ 28) = false ∧ stagingGood eD 1 (-1) = false ∧
      (match copyXlate (walkTables eD 1 0 0) 1 0 0 readNeeds with | .fault c => c == 0x2A | _ => false) = true ∧
      touchesMoving (eD.modMem (fun m => { m with hbm := writeBytes m.hbm 0x400010 (natBytes 16 (loadPa + 2 ^ 8 + 0x72)) })) 1 0
        (copyRecOf recBytes) = true := by decide +kernel

/-- PopulationInstructions: a round of two members of equal weight that asks for three copies. -/
def twoMembers : Round :=
  let a (lane i : Nat) : Arrival :=
    { group := 0, lane, id := some i, gen := 0, weight := 0x3F800000, n := 3, image := imageOf eCore lane 0, window := [], place := (0, 0)
      gone := false, ready := true }
  { desc := 0, members := [], reserves := [], arrived := [a 0 1, a 1 2], errdep := false, outcome := none, short := false
    landed := [], copies := [] }

theorem test_meets_RoundsAreEvaluated :
    (judgeRound eD twoMembers { live := 2, reserve := 0, round := 0, nextId := 3, lastStat := 0, logPos := 0 }).degenerate = false ∧
      twoMembers.complete = true ∧ ({ twoMembers with members := [(0, 2, 3)] } : Round).complete = false := by decide +kernel

/-- A descriptor in a segment that migrates (PopulationAddress and POP.DESC). -/
theorem test_meets_descriptor_waits :
    descWaits (pDev.modMem (fun m => { m with hbm := writeBytes m.hbm 0x400010 (natBytes 16 (loadPa + 2 ^ 8 + 0x72)) }) |>.modDie 0
      (fun x => { x with segCache := [] })) 1 0x200000 = true ∧ (tget (pDev.die (pDev.part 1).lead).segCache (0x200000 / segSize)).isSome = true := by
  decide +kernel

/-- DispatchersPlaceTeams: a saved team that is runnable again; cores and groups that wait for a phase of the grid. -/
def gridDev : Device :=
  (wDev.setLaunch 0 { wLaunch with rgrid := true, releasing := [0], grid := { wLaunch.grid with phase := 1 } }).setGroup (.user 0)
    { wGroup wCore with waits := .grid 0 }

theorem test_meets_DispatchersPlaceTeams_saved :
    (savedDev.teams.filter (fun t => savedRunnable savedDev 1 t.2)).map (fun t => t.1) = [0] ∧ (savedDev.part 1).gq = [] ∧
      (choosePlace savedDev 0 0).isSome = true ∧ waitsGrid gridDev 0 1 (0, { wGroup wCore with waits := .grid 0 }) = true ∧
      (gridDev.launch 0).map (fun l => l.releasing) = some [0] ∧ admitCores [0] 0 16 16 = [0] := by decide +kernel

/-- PowerEvents: a die of a suspended partition whose teams are gone. -/
theorem test_meets_DiesAreGated :
    let d := savedDev.modPart 1 (fun p => { p with susp := true, state := 2 })
    d.partOfDie 0 = 1 ∧ (d.part 1).susp = true ∧ dieDrained d 0 = true ∧ dieDrained wDev 0 = false ∧ (wDev.part 1).susp = false := by decide +kernel

/-- SegmentEvents: the tables of a segment that migrates lie apart and no store waits for it; the target is aligned. -/
theorem test_meets_SegmentsMigrate :
    moveDev.mem.wf = true ∧ moveDev.mem.planted = [] ∧ (partGroups moveDev 1).all (fun x => x.2.waiting.isEmpty) = true ∧
      segEntryAddr moveDev 1 segSize = some 0x400010 ∧ (moveDev.part 1).segBase + 8 ≤ 0x400010 ∧ 0x400010 + 16 ≤ 0xA00000 ∧
      0xA00000 % segSize = 0 ∧ (moveDev.part 1).moving.find? (fun x => x.1 == 1) = some (1, 0xA00000) := by decide +kernel

/-- PacketsComplete: a location in host memory; a switch that no core has still to make; what is cached already is not read again. -/
def hostDev : Device := pDev.modDie 0 (fun x => { x with segCache := [(1, BitVec.ofNat 128 (0x600000 + 2 ^ 8 + 0x75))] })
def switchDev : Device := pDev.setStream stCtl { StreamSt.reset with wait := .switch 1 [] }

theorem test_meets_PacketsComplete_host :
    cpTranslate (cpTouch hostDev 1 0x201000 4) 1 0x201000 { read := false, write := true, exec := false } = .host 0x601000 ∧
      cpMayRun switchDev stCtl = false ∧ (switchDev.stream stCtl).wait = .switch 1 [] ∧ cpMayRun wDev stCtx = false ∧
      (cpRead (cpTouch pDev 1 0x201000 4) 1 0x201000 4).toOption = some (natBytes 4 7) ∧
      (cpRead (cpTouch pDev 1 0 4) 1 0 4).toOption = none ∧
      cpTranslate (cpTouch pDev 1 0x202000 8) 1 0x202000 { read := false, write := true, exec := false } = .local_ (loadPa + 0x2000) ∧
      (readImage (cpTouch pDev 1 0x3FFF00 4096) 1 0x3FFF00 [64, 0, 0, 0, 0] 256 imageClasses).toOption.isSome = false := by decide +kernel

/-- PartitionCommandsComplete and HostReachesTheModule: a control value without a command, one to create partition 2, what create refuses. -/
theorem test_meets_PartitionsAreCreated :
    (natBits (2 ^ 41 : DWord).toNat 9 32 = 0 ∧ (2 ^ 41 : DWord).toNat % 16 = 0 ∧ (7 : DWord).toNat % 16 = 7 ∧ natBits (2 ^ 9 : DWord).toNat 9 32 ≠ 0) ∧
      BitVec.ofNat 16 ((2 ^ 49 : DWord).toNat / 2 ^ 48) = 2 ∧ BitVec.ofNat 16 ((5 : DWord).toNat / 2 ^ 48) = 0 ∧
      (2 ^ 42 + 2 ^ 43 : DWord).toNat.testBit 42 = true ∧ (2 ^ 42 + 2 ^ 43 : DWord).toNat.testBit 43 = true ∧
      partTeams wDev 1 = [(0, wTeam)] ∧ wDev.team 0 = some wTeam ∧ hDev.bringUp = 4 := by decide +kernel

/-- LinkFlitsComplete: the eighth request of a port that no copy request uses; a port that may be trained and one that may not. -/
theorem test_meets_PortsFailAndTrain :
    reqsOn hDev 3 = [] ∧ sentPort.nakAt = 4 ∧ sentPort.naks + 1 = 8 ∧ sentPort.up = true ∧ sentPort.failed = false ∧
      (hDev.port 3).up = false ∧ ({ wPort with failed := true } : Port).failed = true := by decide +kernel

/-- LinkTransactionsComplete: regions behind touched tables; an answer of another status. -/
theorem test_meets_TargetsAnswer :
    (packetPlaces (touchRegion exportDev (linkPacket 1 99)) (linkPacket 1 99) true).isSome = true ∧
      packetPlaces (touchRegion exportDev (linkPacket 1 98)) (linkPacket 1 98) true = none ∧ Sound { pS with dev := exportDev } 1 ∧
      (packetOf ({ packetOf (linkPacket 3 0) with status := 2 } : Packet).bytes).status ≠ 0 := by decide +kernel

/-- TeamsMoveAndRetire: the place of the launch's completion record may be written. -/
theorem test_meets_TeamsRetire :
    wLaunch.completion % segSize + 8 ≤ segSize ∧ (tget (pDev.die (pDev.part 1).lead).segCache (wLaunch.completion / segSize)).isSome = true ∧
      (match cpTranslate pDev 1 wLaunch.completion { read := false, write := true, exec := false } with
        | .local_ pa => (tagCause pDev 1 (lineOf pa)).isNone && (tagCause pDev 1 (lineOf (pa + 7))).isNone
        | _ => false) = true := by decide +kernel

/-- PartitionCommandsComplete: a turnover begins with STATE 4, takes no write of the function, and ends with STATE 2; with a failing die the
die is absent and the partition free (26 R469). -/
def turnDev : Device := command hDev 1 5 [0]

theorem test_meets_PartitionsTurnOver :
    (turnDev.part 1).state = 4 ∧ (turnDev.part 1).turn = some (false, [0]) ∧ turnDev.launches = [] ∧ turnDev.bringUp = 4 ∧
      ((mmioWrite turnDev 1 (fun _ => hDev)).part 1).unsupported = 1 ∧ ((endTurnover turnDev 1).part 1).state = 0 ∧
      ((endTurnover turnDev 1).die 0).absent = true ∧ ((endTurnover (command hDev 1 5 []) 1).part 1).state = 2 ∧
      commandRefused turnDev 1 5 = true ∧ commandRefused hDev 1 5 = false := by decide +kernel

/-- HostReachesTheModule: a vector that is pending leaves when it is unmasked; a copied entry of a confidential log; a suspend that a CTXSW
holds back. -/
theorem test_meets_RegistersTakeWrites :
    (writeMsix (hDev.modPart 1 (fun p => { p with pba := [(2, true)] })) 1 2 3 0).msgs = [{ part := 1, addr := 0, data := 0 }] ∧
      (match (LogEntry.noAddr { plainEntry 0x26 5 1 0 0 none 0 false with trec := some (2 ^ 128 + 7) }).trec with
        | some r => r == 7
        | none => false) = true ∧
      switching (switchDev.part 1) = true ∧ (hDev.part 1).state ≠ 4 ∧ hDev.partOfDie 0 = 1 := by decide +kernel

/-- LinkFlitsComplete: a replay buffer with flits from the counter asked for. -/
theorem test_meets_PortsFailAndTrain_again :
    (({ Port.reset with replay := [{ slot := 0, ctr := 3, marker := false, bytes := [] }, { slot := 0, ctr := 4, marker := false, bytes := [] }] }
      : Port).replayFrom 4).length = 1 := by decide

/-- EnginePacketsComplete: a COPY that waits for a migrating segment runs again. -/
theorem test_meets_EnginePacketsComplete_segment :
    cpMayRun (pDev.setStream stCtx { pDev.stream stCtx with wait := .segment }) stCtx = true := by decide +kernel

-- the end of a bundle, landings, paths

/-- BundlesRunTheirSlots: a bundle that may close, one of a span whose checks are out, one whose copies the injector makes differ, and one with
an RSMP-free group. -/
def injDev : Device :=
  wDev.modPart 1 (fun p => { p with prot := true, test := true, inj := { p.inj with en := true, targets := 15, rate := 2 ^ 16 } })

theorem test_meets_BundlesClose :
    wB.hold = none ∧ wB.leaving wG.core = 0 ∧ wB.redirect ≠ .iret ∧ wG.core.pend = [] ∧ wG.mayCheckpoint = true ∧ wG.asksFirmware = false ∧
      wG.core.live ≠ 0 ∧ wG.core.handler = none ∧ (wDev.part 1).prot = false ∧ wDev.partOf (.user 0) = 1 ∧
      ({ wG with checks := [(0, true, false, { cause := 0, code := 0, lane := none, addr := 0, slot := 0, write := false, bpc := 0, slotB := false
                                               defer := false })] } : Group).mayCheckpoint = false ∧
      (injDev.part 1).prot = true ∧ (inject injDev 1 3).1.isSome = true := by decide +kernel

/-- Two results for v4 land at one boundary; the one issued last stands. -/
def landing (op : Nat) (w : Word) : Pending :=
  { loadOut with op := op, rem := 0, dst := .v 4 1, vals := [(0, [w])], lanes := 1, arrived := true, loads := [], lines := [] }
def landG : Group := wGroup { wCore with pend := [landing 7 5, landing 6 9] }

theorem test_meets_LandingsAreOrdered :
    landG.asksFirmware = false ∧ landG.core.live ≠ 0 ∧ landG.core.pend.all (fun p => !p.isRsmp && p.rem == 0 && p.arrived && !p.uni) = true ∧
      landsV landG.core.live (landing 7 5) 4 0 = some 5 ∧ landsV landG.core.live (landing 6 9) 4 0 = some 9 ∧
      landsV landG.core.live (landing 6 9) 4 1 = none ∧ landsS { landing 6 9 with dst := .s 4 1 } 4 = some 9 ∧
      ((settle (wDev.setGroup (.user 0) landG) (.user 0)).group (.user 0)).map (fun g => g.core.vAt 4 0) = some 5 ∧
      ({ landing 6 9 with arrived := false } : Pending).arrived = false := by decide +kernel

/-- DivergentPaths: both slots join at one JOIN with all their lanes; one joins there alone beside an issuing path; a stack below. -/
def joinSlot (pc : DWord) (lanes mask : LaneMask) : PcSlot := { issuingSlot pc lanes 3 with st := .joining, next := pc + 16, mask }
def joinBoth : GCore := { wCore with live := 7, slotA := joinSlot 64 1 7, slotB := joinSlot 64 2 7
                                     stack := [{ w := true, fmt := 5, lanes := 4, pc := 64 }] }
def joinOne : GCore := { wCore with live := 7, slotA := joinSlot 64 1 1, slotB := issuingSlot 128 6 0 }
def swapCore : GCore := { wCore with live := 7, slotA := joinSlot 64 1 7, slotB := joinSlot 128 2 7
                                     stack := [{ w := true, fmt := 0, lanes := 0, pc := 32 }, { w := false, fmt := 5, lanes := 4, pc := 16 }] }
def popsCore : GCore := { wCore with live := 7, slotA := idleSlot, stack := [{ w := false, fmt := 0, lanes := 8, pc := 32 },
                                                                             { w := false, fmt := 5, lanes := 12, pc := 16 }] }

theorem test_meets_JoinsRelease :
    joinBoth.releasable false = true ∧ joinBoth.releases.slotA.lanes = 7 ∧ joinBoth.releases.slotB = idleSlot ∧ joinBoth.releases.slotA.pc = 80 ∧
      joinOne.releasable false = true ∧ joinOne.releases.slotB = joinOne.slotB ∧ joinOne.releases.slotA = issuingSlot 80 1 3 ∧
      swapCore.releasable false = false ∧ swapCore.releasable true = false := by decide +kernel

theorem test_meets_StackedPathsMove :
    swapCore.withdraw.slotB = issuingSlot 16 4 5 ∧ swapCore.withdraw.slotA = swapCore.slotA ∧ swapCore.withdraw.stack.length = 2 ∧
      (popsCore.popInto false).slotA = issuingSlot 16 4 5 ∧ (popsCore.popInto false).stack = [] ∧
      { swapCore with stack := [] }.deadlocked = true ∧ joinOne.withdraw = joinOne ∧ wG.deferred = none ∧ wG.retired = false ∧
      wG.waitsData = false := by decide +kernel

/-- PathEndsTrapsAndLevels: a handler whose path has ended, and a group that enters one. -/
theorem test_meets_HandlersReturn :
    let h : Handler := { someHandler with slotA := issuingSlot 64 5 2, firstOp := 3 }
    let c : GCore := { wCore with handler := some h, slotA := idleSlot, slotB := idleSlot, live := 4 }
    c.afterLanding.slotA = issuingSlot 64 4 2 ∧ c.afterLanding.handler = none ∧ wCore.slotA.lanes &&& wCore.live = wCore.slotA.lanes ∧
      wCore.slotB.lanes &&& wCore.live = wCore.slotB.lanes ∧ wCore.slotA.lanes ≠ 0 ∧ wCore.slotB.st = .idle := by decide +kernel

-- rings, barrier objects and copy destinations

/-- CopyEngineSteps: an object at 64 in page 0, which the team holds in a frame of its own. -/
theorem test_meets_ObjectsCount : PagesAtHand eS eTeam [(64, 16)] := by
  refine ⟨by decide +kernel, by decide +kernel, by decide +kernel, by decide +kernel, by decide +kernel, fun r _ i _ => ?_⟩
  exact test_meets_unpoisoned (r.1 + i)

/-- EXPECT 100 and ARRIVED 95: ten bytes more turn the phase and leave 5; a fault turns it as well (16 R331, R332). -/
def objDev : Device := scratchPutBytes eD 0 64 (natBytes 4 100 ++ natBytes 4 95)

theorem test_object_counts :
    let words (r : Counted) : List Nat := match r with
      | .done d => (match d.team 0 with | some t => (List.range 4).map (objWord d t 64) | none => [])
      | _ => []
    words (countObject objDev 0 64 10) = [100, 5, 1, 0] ∧ words (countObject objDev 0 64 4) = [100, 99, 0, 0] ∧
      words (faultObject objDev 0 64 0x67) = [100, 0, 1, 0x67000001] ∧ phaseAfter 100 95 0 10 = (5, 1) := by decide +kernel

/-- A request with a line in hand for each kind of destination. -/
def destReq (kind daddr n : Nat) : CopyReq :=
  { newReq eD (some aKick) none 1 { copyRecOf recBytes with x0 := 4096, dkind := kind, daddr := daddr } with
    buf := List.replicate 64 (7#8), n := n, owner := true, port := some 3 }
def putDone (p : Put) : Bool := match p with | .done _ => true | _ => false
def putBad (p : Put) : Option Nat := match p with | .bad c _ => some c | _ => none

theorem test_meets_DestinationsTakeBytes :
    putDone (writeDest eD 0 (destReq 2 0x100 0)) = true ∧ putBad (writeDest eD 0 (destReq 2 (2 ^ 31) 0)) = some 0x68 ∧
      putDone (writeDest eD 0 (destReq 3 128 0)) = true ∧ putBad (writeDest eD 0 (destReq 3 0xFE0000 0)) = some 0x24 ∧
      putBad (writeDest eD 0 (destReq 3 (2 ^ 24) 0)) = some 0x23 ∧ putDone (writeDest eD 0 (destReq 4 0 4032)) = true ∧
      putBad (writeDest (eD.modPart 1 (fun p => { p with conf := true })) 0 (destReq 1 77 0)) = some 0x2D ∧
      putBad (writeDest eD 0 { destReq 1 77 0 with port := none }) = some 0x69 ∧
      (match writeDest eD 0 (destReq 1 77 0) with | .sent _ 3 _ => true | _ => false) = true := by decide +kernel

theorem test_meets_PiecesAreCounted :
    let r : CopyReq := destReq 3 128 0
    let d := eD.modCore 0 (fun c => { c with reqs := [r] })
    reqOf d 0 r.id = some r ∧ r.ready d = true ∧ r.rcd.pieceLen r.n ≤ r.buf.length ∧ r.kick = some aKick ∧
      (wGroup eCore).retired = false ∧ (wGroup eCore).halted = false ∧ uvecOf (eD.modLaunch 0 (fun l => { l with spine := { l.spine with uvec := 64 } })) 0 ≠ 0 := by
  decide +kernel

/-- TileTransfersComplete: a push at the tile in page 0 and 1, and pops of positions 0 and 2. -/
theorem test_meets_RingsCommit :
    PagesAtHand eS eTeam [((wConf 0).tileAddr 0, (wConf 0).bytes)] ∧ (eTeam.ring 0).conf = some (wConf 0) ∧ (wGroup eCore).kind = .user 0 ∧
      ((eTeam.ring 0).popped 0).head = 1 ∧ ((eTeam.ring 0).popped 2).head = 0 := by
  refine ⟨⟨by decide +kernel, by decide +kernel, by decide +kernel, by decide +kernel, by decide +kernel, fun r _ i _ => ?_⟩, by decide +kernel⟩
  exact test_meets_unpoisoned (r.1 + i)

-- resampling

/-- An arrival of group 0; a round of three arrivals, member 0 with a weight far below member 1's, and a reserve lane. -/
def arrivalOf (lane : Nat) (id : Option Nat) (weight n : Nat) : Arrival :=
  { group := 0, lane, id, gen := 0, weight, n, image := { v := [(0, 5)], p := [], perf := 3, acc := [(1, 9)] }, window := [], place := (0, 0)
    gone := false, ready := true }
def threeArrivals (n : Nat) : Round :=
  { desc := 1, members := [], reserves := [], arrived := [arrivalOf 0 (some 7) 0xC2000000 n, arrivalOf 1 (some 6) 0 n, arrivalOf 2 none 0 n]
    errdep := false, outcome := none, short := false, landed := [], copies := [] }
def heldOf : PopHeld := { live := 2, reserve := 1, round := 0, nextId := 8, lastStat := 0, logPos := 0 }

/-- Member 6 alone has weight: with N = 3 it has two clones, in the killed member's lane and in the reserve lane; N = 4 is a shortfall (18
R376 to R379). -/
theorem test_round_places_clones :
    let v := judgeRound eD (threeArrivals 3) heldOf
    v.copies.map (fun x => x.2) = [3, 0] ∧ v.placed.map (fun x => (x.1.lane, x.2.id)) = [(0, 8), (2, 9)] ∧
      (v.placed.map (fun x => laneOfArrival x.1)).Nodup ∧ (judgeRound eD (threeArrivals 4) heldOf).short = true ∧
      (laneOutcome v 0 (arrivalOf 1 (some 6) 0 3)).status = 0x30000#32 ∧ (laneOutcome v 0 (arrivalOf 2 none 0 3)).status = 0x20#32 ∧
      (judgeRound eD { threeArrivals 3 with arrived := [arrivalOf 0 (some 7) 0xFF800000 3] } heldOf).degenerate = true := by decide +kernel

/-- PopulationInstructions: lane 0 of the group is a member and leaves; an evaluated round; the outcomes of one lane; windows. -/
def popS : Device := (popDev 1 popCore).modPart 1 (fun p => { p with pops := [(0x200000,
  { launch := some 0, desc := 0, held := heldOf, current := some 0, rounds := [(0, threeArrivals 3)], nextRound := 1 })] })

theorem test_meets_population_leave :
    let b : OpenBundle := { wOpen popS popCore [] with leave := some 0x200000 }
    b.leaving popCore = 1 ∧ b.redirect ≠ .exit ∧ (popS.part 1).popul 0x200000 ≠ none ∧ popCore.popAt 0 = .member 0x200000 1 0 0 ∧
      popS.groups.all (fun y => !y.2.waitsData) = true ∧ (threeArrivals 3).outcome = none ∧ popS.partOf (.user 0) = 1 ∧
      (evaluateRound popS 1 0x200000 0 { launch := some 0, desc := 0, held := heldOf, current := some 0, rounds := [(0, threeArrivals 3)]
                                         nextRound := 1 } (threeArrivals 3)).part 1 ≠ popS.part 1 := by decide +kernel

theorem test_meets_population_landing :
    let clone : CloneOf := { id := 8, parent := 6, gen := 1, image := (arrivalOf 1 none 0 0).image, window := [], place := (0, 0) }
    let p : Pending := { loadOut with dst := .rsmp (.v 1) 0x200000 0 }
    (clone.image.v.map (fun x => x.1)).Nodup ∧ (clone.image.acc.map (fun x => x.1)).Nodup ∧ popS.coreOf (.user 0) = some 0 ∧ (popS.core 0).mq = [] ∧
      ((landLane popS 0 0 0 0x200000 (threeArrivals 3) p { group := 0, lane := 0, killed := true, status := 0x20, clone := some clone }).group
        (.user 0)).map (fun g => (g.core.vAt 0 0, g.core.vAt 1 0, g.core.popAt 0, g.core.accAt 0 0 1)) =
        some (5, 0x20, .member 0x200000 8 6 1, 9) := by decide +kernel

/-- Page 0 is resident and page 5 is out; a window of one page. -/
theorem test_meets_population_windows :
    (eTeam.page 0).state = .resident ∧ (eTeam.page 5).state = .out ∧ (eTeam.page 5).bvalid = true ∧ windowPages (3, 1) 0 2 = [5] ∧
      SptEntry.ofBits (holdPage eD 0 0).2 = { eTeam.page 0 with cow := true, dirty := false, bvalid := false, bloc := false, bslot := 0 } ∧
      (SptEntry.ofBits (holdPage eD 0 5).2).state = .sharedOut ∧
      (cloneEntry popS 1 0x200000 0 (0, 1)
        { id := 8, parent := 6, gen := 1, image := (arrivalOf 1 none 0 0).image, window := [], place := (0, 0) } (holdPage eD 0 0).2).1.state =
        .sharedOut := by decide +kernel

/-- The lineage record of the header (18 R380): identifier 2^48 - 1, parent ROUND, generation K. -/
theorem test_lineage_header : lineageRecord (2 ^ 48 - 1) 3 2 = 2 ^ 48 - 1 + 3 * 2 ^ 48 + 2 * 2 ^ 96 := by decide

end Sys2Proof.Tests
end

section
/-!
PROOFS. What the host reaches of the module: the registers that have no instruction of their own, what reads of them answer, keys,
measurements, debuggers and accesses over PCIe (00 R6; 11 R256, R259, R260; 26 R461 to R467).
-/
namespace Sys2Proof.Proofs

open Sys2Proof Sys2Proof.Machine Sys2Proof.Claims

-- steps that make one partition's registers new

theorem partBecomes_of_modPart {i : Instr} {s : State} {part : Nat} {f : Part → Part}
    (h : exec i s = .next { s with dev := s.dev.modPart part f }) : PartBecomes i s part (f (s.dev.part part)) :=
  ⟨_, h, rfl, rfl, Device.part_modPart_same _ _ _, fun _ hk => Device.part_modPart_other _ _ _ _ hk.symm⟩

theorem exec_registerWrite {s : State} (hup : Up s) (reg : HubReg) (value : DWord) :
    exec (.registerWrite reg value) s = .next { s with dev := writeRegister s.dev value reg } := by
  change execRegisterWrite reg value s = _
  rw [execRegisterWrite, hostStep_up _ hup]

theorem exec_errorLogClear {s : State} (hup : Up s) (part : Nat) (value : Word) :
    exec (.errorLogClear part value) s = .next { s with
      dev := mmioWrite s.dev part (fun d => d.modPart part (fun p =>
        { p with lost := p.lost &&& ~~~value, log := if value = BitVec.allOnes 32 then [] else p.log })) } := by
  change execErrorLogClear part value s = _
  rw [execErrorLogClear, hostStep_up _ hup]

theorem exec_keySlotProvision {s : State} (hup : Up s) (part slot : Nat) (key : BitVec 256) :
    exec (.keySlotProvision part slot key) s = .next { s with
      dev := if tdiLocked (s.dev.part part) && decide (slot < 16) then s.dev.modPart part (fun p => { p with keys := tput p.keys slot key })
        else s.dev } := by
  change execKeySlotProvision part slot key s = _
  rw [execKeySlotProvision, hostStep_up _ hup]

theorem exec_getMeasurements {s : State} (hup : Up s) (part : Nat) :
    exec (.getMeasurements part) s = .next { s with
      dev := if part ≤ 16 then ({ s.dev with drawn := s.dev.drawn + 422 } : Device).modPart part (fun p =>
          { p with meas := { p.meas with answer := measurement s.dev part } })
        else s.dev } := by
  change execGetMeasurements part s = _
  rw [execGetMeasurements, hostStep_up _ hup]

theorem exec_debuggerAttach {s : State} (hup : Up s) (part : Nat) (attach : Bool) :
    exec (.debuggerAttach part attach) s = .next { s with
      dev := if attach && (s.dev.part part).conf then s.dev else s.dev.modPart part (fun p => { p with debugger := attach }) } := by
  change execDebuggerAttach part attach s = _
  rw [execDebuggerAttach, hostStep_up _ hup]

-- what logging an event and suspending a partition leave

/-- A field of the device that every turn of a fold keeps, the fold keeps. -/
theorem foldl_keeps {α β : Type} (field : Device → β) (f : Device → α → Device) (h : ∀ d x, field (f d x) = field d) (l : List α)
    (d : Device) : field (l.foldl f d) = field d := by
  induction l generalizing d with
  | nil => rfl
  | cons x l ih => rw [List.foldl_cons, ih, h]

theorem dropPins_parts (d : Device) (id : Nat) : (dropPins d id).parts = d.parts := by
  unfold dropPins; split <;> rfl

theorem dropPins_mem (d : Device) (id : Nat) : (dropPins d id).mem = d.mem := by
  unfold dropPins; split <;> rfl

theorem stopTeam_parts (d : Device) (team : Nat) : (stopTeam d team).parts = d.parts := by
  unfold stopTeam
  split
  · exact foldl_keeps Device.parts _ (fun d id => by simp [stopGroup, dropPins_parts]) _ _
  · rfl

theorem stopTeam_mem (d : Device) (team : Nat) : (stopTeam d team).mem = d.mem := by
  unfold stopTeam
  split
  · exact foldl_keeps Device.mem _ (fun d id => by simp [stopGroup, dropPins_mem]) _ _
  · rfl

theorem suspendPart_part (d : Device) (part state : Nat) :
    (suspendPart d part state).part part = { d.part part with susp := true, state, suspDue := none } := by
  have parts : (suspendPart d part state).parts = (d.modPart part (fun p => { p with susp := true, state, suspDue := none })).parts :=
    foldl_keeps Device.parts (fun d (t : Nat × Team) => stopTeam d t.1) (fun d t => stopTeam_parts d t.1) _ _
  rw [Device.part, parts]
  exact Device.part_modPart_same _ _ _

theorem suspendPart_mem (d : Device) (part state : Nat) : (suspendPart d part state).mem = d.mem :=
  foldl_keeps Device.mem (fun d (t : Nat × Team) => stopTeam d t.1) (fun d t => stopTeam_mem d t.1) _ _

theorem requestSuspend_part (d : Device) (part state : Nat) :
    (requestSuspend d part state).part part =
      if switching (d.part part) then { d.part part with suspDue := some state, state := if state = 5 then 5 else (d.part part).state }
      else { d.part part with susp := true, state, suspDue := none } := by
  unfold requestSuspend
  split
  · exact Device.part_modPart_same _ _ _
  · exact suspendPart_part _ _ _

theorem requestSuspend_mem (d : Device) (part state : Nat) : (requestSuspend d part state).mem = d.mem := by
  unfold requestSuspend
  split
  · rfl
  · exact suspendPart_mem _ _ _

theorem logPlain_mem (d : Device) (part : Nat) (e : LogEntry) : (logPlain d part e).mem = d.mem := by
  unfold logPlain logEntry
  by_cases hp : part = 0
  · rw [if_pos hp]
    split <;> rfl
  · rw [if_neg hp]
    dsimp only
    split <;> rfl

/-- An entry of a partition's log leaves the registers that are not the log's. -/
theorem logPlain_part (d : Device) {part : Nat} (hp : part ≠ 0) (e : LogEntry) :
    ((logPlain d part e).part part).streams = (d.part part).streams ∧ ((logPlain d part e).part part).msix = (d.part part).msix ∧
      ((logPlain d part e).part part).unsupported = (d.part part).unsupported := by
  unfold logPlain logEntry
  rw [if_neg hp]
  dsimp only
  split <;> rw [Device.part_setPart, if_pos rfl] <;> exact ⟨rfl, rfl, rfl⟩

/-- Logging is what `Logged` says (22 R428). -/
theorem logged_logPlain (s : State) (part : Nat) (e : LogEntry) : Logged s { s with dev := logPlain s.dev part e } part e := by
  unfold Logged logPlain logEntry
  by_cases hp : part = 0
  · simp only [hp, if_true]
    split <;> rfl
  · simp only [hp, if_false]
    split
    · rw [Device.part_setPart, if_pos rfl]
      exact ⟨rfl, rfl⟩
    · rw [Device.part_setPart, if_pos rfl]
      exact ⟨rfl, rfl⟩

-- registers that lock (26 R465)

theorem tdiLocked_iff (p : Part) : tdiLocked p = true ↔ p.tdi = .locked ∨ p.tdi = .run := by simp [tdiLocked]

/-- The registers of a partition that refused a write to a locked register, before it is suspended. -/
def lockError (p : Part) : Part := { p.refuse with tdi := .error }

theorem lockedWrite_eq (d : Device) (part addr : Nat) :
    lockedWrite d part addr =
      requestSuspend ((logEvent d part (plainEntry 0 addr part srcIngress 0 none 0 false)).modPart part lockError) part 5 := rfl

theorem lockedWrite_mem (d : Device) (part addr : Nat) : (lockedWrite d part addr).mem = d.mem := by
  rw [lockedWrite_eq, requestSuspend_mem, Device.modPart_mem, logEvent, logPlain_mem]
  rfl

theorem switching_of_streams {p q : Part} (h : p.streams = q.streams) : switching p = switching q := by
  simp [switching, Part.stream, h]

/-- What a write to a locked register leaves of its partition's registers (26 R465). -/
theorem lockedOut_of_lockedWrite {i : Instr} {s : State} {d : Device} {part addr : Nat} (hp : part ≠ 0)
    (hpart : d.part part = s.dev.part part) (hmem : d.mem = s.dev.mem)
    (h : exec i s = .next { s with dev := lockedWrite d part addr }) : LockedOut i s part := by
  obtain ⟨q, hq⟩ : ∃ q, (logEvent d part (plainEntry 0 addr part srcIngress 0 none 0 false)).part part = q := ⟨_, rfl⟩
  obtain ⟨hstreams, hmsix, hunsup⟩ : q.streams = (s.dev.part part).streams ∧ q.msix = (s.dev.part part).msix ∧
      q.unsupported = (s.dev.part part).unsupported := by
    rw [← hq, ← hpart]
    exact logPlain_part _ hp _
  have hsw : switching (lockError q) = switching (s.dev.part part) := switching_of_streams hstreams
  have ht := requestSuspend_part ((logEvent d part (plainEntry 0 addr part srcIngress 0 none 0 false)).modPart part lockError) part 5
  rw [← lockedWrite_eq, Device.part_modPart_same, hq, hsw] at ht
  refine ⟨_, h, ?_⟩
  simp only [ht, lockedWrite_mem, hmem]
  cases switching (s.dev.part part) <;> simp [lockError, Part.refuse, hstreams, hmsix, hunsup]

/-- A write leaves `opened` while its partition's registers are open, and is a locked write while they are locked. -/
def Lockable (d : Device) (part : Nat) (written opened : Device) : Prop :=
  (tdiLocked (d.part part) = false → written = opened) ∧
    (tdiLocked (d.part part) = true → ∃ d' addr, d'.part part = d.part part ∧ d'.mem = d.mem ∧ written = lockedWrite d' part addr)

theorem rwlWrite_lockable (d : Device) (part addr : Nat) (f : Device → Device) : Lockable d part (rwlWrite d part addr f) (f d) :=
  ⟨fun h => by simp [rwlWrite, h], fun h => ⟨d, addr, rfl, rfl, by simp [rwlWrite, h]⟩⟩

theorem rwlWriteAt_lockable (d : Device) (part : Nat) (f : Device → Device) : Lockable d part (rwlWriteAt d part f) (f d) :=
  ⟨fun h => by simp [rwlWriteAt, h], fun h => ⟨(unknownAddr d).2, (unknownAddr d).1, rfl, rfl, by simp [rwlWriteAt, h]⟩⟩

section
variable {i : Instr} {s : State} {part : Nat} {write : Device → Device} {opened : Device}
  (h : exec i s = .next { s with dev := mmioWrite s.dev part write })
include h

/-- While a turnover runs the write is dropped (26 R469). -/
theorem mmio_dropped (hstate : (s.dev.part part).state = 4) : PartBecomes i s part (s.dev.part part).refuse := by
  rw [mmioWrite_dropped _ _ _ hstate] at h
  exact partBecomes_of_modPart h

theorem mmio_locked (hlock : Lockable s.dev part (write s.dev) opened) (hp : part ≠ 0)
    (hstate : (s.dev.part part).state ≠ 4) (hl : Locked s part) : LockedOut i s part := by
  obtain ⟨d', addr, hpart, hmem, hw⟩ := hlock.2 ((tdiLocked_iff _).mpr hl)
  rw [mmioWrite_done _ _ _ hstate, hw] at h
  exact lockedOut_of_lockedWrite hp hpart hmem h

theorem mmio_open (hlock : Lockable s.dev part (write s.dev) opened) (hstate : (s.dev.part part).state ≠ 4) (hl : ¬ Locked s part) :
    exec i s = .next { s with dev := opened } := by
  rw [h, mmioWrite_done _ _ _ hstate, hlock.1 (Bool.eq_false_iff.mpr (mt (tdiLocked_iff _).mp hl))]

end

-- the registers without an instruction of their own (00 R6)

theorem isFunction_iff (part : Nat) : isFunction part = true ↔ 1 ≤ part ∧ part ≤ 16 := by simp [isFunction]

/-- The values that the L2 split register of a die takes: both fields in range, and no launch on the die (11 R256). -/
def SplitFits (d : Device) (die v : Nat) : Prop :=
  1 ≤ natBits v 8 5 ∧ natBits v 8 5 ≤ 8 ∧ natBits v 8 5 ≤ natBits v 0 5 ∧ natBits v 0 5 ≤ 24 ∧ launchOnDie d die = false

theorem writeSplit_unfit {d : Device} {die v : Nat} (h : ¬ SplitFits d die v) : writeSplit d die v = d := by
  refine if_pos ?_
  unfold SplitFits at h
  cases hl : launchOnDie d die with
  | true => exact .inr (.inr (.inr (.inr rfl)))
  | false =>
    rw [hl] at h
    simp only [and_true] at h
    omega

theorem writeSplit_fits {d : Device} {die v : Nat} (h : SplitFits d die v) :
    writeSplit d die v = d.modDie die (fun x => { x with rways := natBits v 8 5, sways := natBits v 0 5 }) := by
  obtain ⟨hr, hr8, hrw, hw, hl⟩ := h
  refine if_neg ?_
  simp only [hl, not_or]
  exact ⟨by omega, by omega, by omega, by omega, by simp⟩

theorem writeRegister_split_absent {d : Device} {die : Nat} (value : DWord) (h : 16 ≤ die) : writeRegister d value (.l2Split die) = d :=
  if_pos h

theorem writeRegister_split_free {d : Device} {die : Nat} (value : DWord) (h : die < 16) (ho : d.partOfDie die = 0) :
    writeRegister d value (.l2Split die) = writeSplit d die value.toNat := by simp [writeRegister, Nat.not_le.mpr h, ho]

theorem writeRegister_split_owned {d : Device} {die : Nat} (value : DWord) (h : die < 16) (ho : d.partOfDie die ≠ 0) :
    writeRegister d value (.l2Split die) =
      mmioWrite d (d.partOfDie die) (fun d => rwlWriteAt d (d.partOfDie die) (fun d => writeSplit d die value.toNat)) := by
  rw [writeRegister, if_neg (Nat.not_le.mpr h), if_neg ho]

/-- A die of no partition, or of one whose registers are open, takes the write of its split. -/
theorem exec_split_opened {s : State} (hup : Up s) {die : Nat} (value : DWord) (hd : die < 16)
    (hopen : s.dev.partOfDie die = 0 ∨ (s.dev.part (s.dev.partOfDie die)).state ≠ 4 ∧ ¬ Locked s (s.dev.partOfDie die)) :
    exec (.registerWrite (.l2Split die) value) s = .next { s with dev := writeSplit s.dev die value.toNat } := by
  have hexec := exec_registerWrite hup (.l2Split die) value
  by_cases ho : s.dev.partOfDie die = 0
  · rw [hexec, writeRegister_split_free _ hd ho]
  · obtain ⟨hs, hl⟩ := hopen.resolve_left ho
    rw [writeRegister_split_owned _ hd ho] at hexec
    exact mmio_open hexec (rwlWriteAt_lockable _ _ _) hs hl

/-- The words that the MSI-X table of a function has (26 R463). -/
def MsixThere (part entry word : Nat) : Prop := (1 ≤ part ∧ part ≤ 16) ∧ entry < 2048 ∧ word < 4

theorem msixThere_iff (part entry word : Nat) :
    MsixThere part entry word ↔ (!isFunction part || decide (2048 ≤ entry) || decide (4 ≤ word)) = false := by
  simp only [MsixThere, Bool.or_eq_false_iff, Bool.not_eq_false', isFunction_iff, decide_eq_false_iff_not, Nat.not_le, and_assoc]

theorem writeRegister_msix_absent (d : Device) {part entry word : Nat} (value : DWord) (h : ¬ MsixThere part entry word) :
    writeRegister d value (.msix part entry word) = d := by
  rw [msixThere_iff, Bool.not_eq_false] at h
  exact if_pos h

theorem writeRegister_msix_there (d : Device) {part entry word : Nat} (value : DWord) (h : MsixThere part entry word) :
    writeRegister d value (.msix part entry word) =
      mmioWrite d part (fun d =>
        rwlWrite d part (0x8000 + 16 * entry + 4 * word) (fun d => writeMsix d part entry word (value.setWidth 32))) := by
  rw [msixThere_iff] at h
  exact if_neg (ne_true_of_eq_false h)

/-- A pending vector whose mask a write of its entry's control word clears. -/
def VectorLeaves (p : Part) (entry word : Nat) (value : DWord) : Prop :=
  word = 3 ∧ value.getLsbD 0 = false ∧ tgetD p.pba entry false = true

theorem sendMessage_part (d : Device) (part v k : Nat) : (sendMessage d part v).part k = d.part k := rfl

theorem sendMessage_msgs (d : Device) (part v : Nat) :
    (sendMessage d part v).msgs =
      d.msgs ++ [{ part, addr := (d.part part).msixWord v 1 ++ (d.part part).msixWord v 0, data := (d.part part).msixWord v 2 }] := rfl

theorem writeMsix_stays {d : Device} {part entry word : Nat} {value : DWord} (h : ¬ VectorLeaves (d.part part) entry word value) :
    writeMsix d part entry word (value.setWidth 32) =
      d.modPart part (fun p => { p with msix := tput p.msix (4 * entry + word) (value.setWidth 32) }) := by
  refine if_neg fun hv => h ?_
  simpa [VectorLeaves] using hv

/-- A vector that leaves is pending no more, and its message is the entry that now stands in the table. -/
theorem writeMsix_leaves {d : Device} {part entry word : Nat} {value : DWord} (h : VectorLeaves (d.part part) entry word value) :
    let q : Part := { d.part part with msix := tput (d.part part).msix (4 * entry + word) (value.setWidth 32) }
    let t := writeMsix d part entry word (value.setWidth 32)
    t = { d with parts := t.parts, msgs := t.msgs } ∧ t.part part = { q with pba := tdel (d.part part).pba entry } ∧
      (∀ k, k ≠ part → t.part k = d.part k) ∧
      t.msgs = d.msgs ++ [{ part, addr := q.msixWord entry 1 ++ q.msixWord entry 0, data := q.msixWord entry 2 }] := by
  intro q t
  have ht : t = sendMessage ((d.modPart part (fun p => { p with msix := tput p.msix (4 * entry + word) (value.setWidth 32) })).modPart part
      (fun p => { p with pba := tdel p.pba entry })) part entry := by
    refine if_pos ?_
    simpa [VectorLeaves] using h
  rw [ht]
  refine ⟨rfl, ?_, fun k hk => ?_, ?_⟩
  · rw [sendMessage_part, Device.part_modPart_same, Device.part_modPart_same]
  · rw [sendMessage_part, Device.part_modPart_other _ _ _ _ hk.symm, Device.part_modPart_other _ _ _ _ hk.symm]
  · rw [sendMessage_msgs, Device.part_modPart_same, Device.part_modPart_same]
    rfl

theorem writeRegister_exportTable_absent (d : Device) {part : Nat} (value : DWord) (h : ¬ (1 ≤ part ∧ part ≤ 16)) :
    writeRegister d value (.exportTable part) = d := by
  simp [writeRegister, Bool.eq_false_iff.mpr (mt (isFunction_iff part).mp h)]

theorem writeRegister_exportTable_there (d : Device) {part : Nat} (value : DWord) (h : 1 ≤ part ∧ part ≤ 16) :
    writeRegister d value (.exportTable part) =
      mmioWrite d part (fun d => rwlWriteAt d part (fun d =>
        d.modPart part (fun p => { p with exportBase := natBits value.toNat 5 52 * 32 }))) := by
  simp [writeRegister, (isFunction_iff part).mpr h]

-- the partition control register (26 R461)

/-- The values of the partition control register that are a write of it: of a function, with no reserved bit, and not the command that
creates a partition, which is an instruction of its own. -/
def ControlTaken (part : Nat) (value : DWord) : Prop :=
  (1 ≤ part ∧ part ≤ 16) ∧ natBits value.toNat 9 32 = 0 ∧ value.toNat % 16 ≠ 1

theorem controlTaken_iff (part : Nat) (value : DWord) :
    ControlTaken part value ↔ (!isFunction part || natBits value.toNat 9 32 != 0 || value.toNat % 16 == 1) = false := by
  simp [ControlTaken, isFunction_iff, and_assoc]

theorem writeControl_ignored (d : Device) {part : Nat} {value : DWord} (h : ¬ ControlTaken part value) : writeControl d part value = d := by
  rw [controlTaken_iff, Bool.not_eq_false] at h
  exact if_pos h

theorem writeControl_stored (d : Device) {part : Nat} {value : DWord} (h : ControlTaken part value)
    (hc : value.toNat % 16 = 0 ∨ 6 < value.toNat % 16) :
    writeControl d part value = d.modPart part (fun p => { p with ctl := controlFields value }) := by
  rw [controlTaken_iff] at h
  simp only [writeControl, h, Bool.false_eq_true, if_false]
  exact if_pos hc

theorem writeControl_refused {d : Device} {part : Nat} {value : DWord} (h : ControlTaken part value) (hc : 2 ≤ value.toNat % 16)
    (hc6 : value.toNat % 16 ≤ 6) (hr : commandRefused d part (value.toNat % 16) = true) :
    writeControl d part value = d.modPart part (fun p => { p with res := true }) := by
  have hf := (isFunction_iff part).mpr h.1
  rw [controlTaken_iff] at h
  simp only [writeControl, h, Bool.false_eq_true, if_false, hr, if_true]
  rw [if_neg (by omega), command_refused _ _ _ _ hf hr]

theorem writeControl_accepted {d : Device} {part : Nat} {value : DWord} (h : ControlTaken part value) (hc : 2 ≤ value.toNat % 16)
    (hc6 : value.toNat % 16 ≤ 6) (hr : commandRefused d part (value.toNat % 16) = false) :
    ∃ health, writeControl d part value =
      command (({ d with drawn := d.drawn + 1 } : Device).setPart part { d.part part with ctl := controlFields value }) part
        (value.toNat % 16) health := by
  rw [controlTaken_iff] at h
  simp only [writeControl, h, Bool.false_eq_true, if_false, hr]
  rw [if_neg (by omega)]
  exact ⟨_, rfl⟩

theorem registersTakeWrites : RegistersTakeWrites := by
  intro s part hup p function dropped
  refine ⟨fun die value => ?_, fun value => ?_, fun entry word value => ?_, fun value => ?_, fun value => ?_,
    fun offset value => exec_registerWrite hup _ _, fun value => ?_⟩
  · -- the L2 split of a die
    intro i r w owner state good
    have hexec : exec i s = _ := exec_registerWrite hup (.l2Split die) value
    refine ⟨fun hd => ?_, fun hd ho hs => ?_, fun hd ho hs hl => ?_, fun hd hopen => ?_⟩
    · rw [hexec, writeRegister_split_absent _ hd]
    · rw [writeRegister_split_owned _ hd ho] at hexec
      exact mmio_dropped hexec hs
    · rw [writeRegister_split_owned _ hd ho] at hexec
      exact mmio_locked hexec (rwlWriteAt_lockable _ _ _) ho hs hl
    · have hsplit := exec_split_opened hup value hd hopen
      refine ⟨fun hg => ?_, fun hg => ?_⟩
      · rw [hsplit, writeSplit_unfit hg]
      · rw [writeSplit_fits hg] at hsplit
        exact ⟨_, hsplit, rfl, rfl, Device.die_modDie_same _ _ _, fun k hk => Device.die_modDie_other _ _ _ _ hk.symm⟩
  · -- the injector's seed
    have hexec := exec_registerWrite hup (.injectorSeed part) value
    refine ⟨fun ht => ?_, fun ht => ?_⟩
    · rw [show writeRegister s.dev value (.injectorSeed part) = _ from if_pos ht] at hexec
      exact partBecomes_of_modPart hexec
    · rw [hexec, show writeRegister s.dev value (.injectorSeed part) = _ from if_neg (ne_true_of_eq_false ht)]
  · -- a word of the MSI-X table
    intro i there q leaves
    have hexec : exec i s = _ := exec_registerWrite hup (.msix part entry word) value
    refine ⟨fun ht => ?_, fun ht hs => ?_, fun ht hs hl => ?_, fun ht hs hl => ?_⟩
    · rw [hexec, writeRegister_msix_absent _ _ ht]
    · rw [writeRegister_msix_there _ _ ht] at hexec
      exact mmio_dropped hexec hs
    · rw [writeRegister_msix_there _ _ ht] at hexec
      exact mmio_locked hexec (rwlWrite_lockable _ _ _ _) (Nat.ne_of_gt ht.1.1) hs hl
    · rw [writeRegister_msix_there _ _ ht] at hexec
      have hw := mmio_open hexec (rwlWrite_lockable _ _ _ _) hs hl
      refine ⟨fun hv => ?_, fun hv => ?_⟩
      · rw [writeMsix_stays hv] at hw
        exact partBecomes_of_modPart hw
      · obtain ⟨hdev, hpart, hothers, hmsgs⟩ := writeMsix_leaves hv
        exact ⟨_, hw, rfl, hdev, hpart, hothers, hmsgs⟩
  · -- where the table of exported regions stands
    intro i
    have hexec : exec i s = _ := exec_registerWrite hup (.exportTable part) value
    refine ⟨fun hf => ?_, fun hf hs => ?_, fun hf hs hl => ?_, fun hf hs hl => ?_⟩
    · rw [hexec, writeRegister_exportTable_absent _ _ hf]
    · rw [writeRegister_exportTable_there _ _ hf] at hexec
      exact mmio_dropped hexec hs
    · rw [writeRegister_exportTable_there _ _ hf] at hexec
      exact mmio_locked hexec (rwlWriteAt_lockable _ _ _) (Nat.ne_of_gt hf.1) hs hl
    · rw [writeRegister_exportTable_there _ _ hf] at hexec
      exact partBecomes_of_modPart (mmio_open hexec (rwlWriteAt_lockable _ _ _) hs hl)
  · -- the partition control register
    intro i cmd taken fields
    have hexec : exec i s = .next { s with dev := writeControl s.dev part value } := exec_registerWrite hup (.partControl part) value
    refine ⟨fun ht => ?_, fun ht hc => ?_, fun ht hc hc6 hr => ?_, fun ht hc hc6 hr => ?_⟩
    · rw [hexec, writeControl_ignored _ ht]
    · rw [writeControl_stored _ ht hc] at hexec
      exact partBecomes_of_modPart hexec
    · rw [writeControl_refused ht hc hc6 hr] at hexec
      exact partBecomes_of_modPart hexec
    · obtain ⟨health, hw⟩ := writeControl_accepted ht hc hc6 hr
      rw [hw] at hexec
      exact ⟨health, hexec⟩
  · -- the error log
    have hexec := exec_errorLogClear hup part value
    refine ⟨mmio_dropped hexec, fun hs => ?_⟩
    rw [mmioWrite_done _ _ _ hs] at hexec
    exact partBecomes_of_modPart hexec

-- what reads of the registers answer

/-- The error-log state holds the number of entries and the lost ones (26 R463). -/
theorem logState_fields (p : Part) (h : p.log.length ≤ 255) :
    natBits (logState p).toNat 0 32 = p.lost.toNat ∧ natBits (logState p).toNat 32 8 = p.log.length := by
  have hmin : Nat.min p.log.length 255 = p.log.length := Nat.min_eq_left h
  have hlost := p.lost.isLt
  simp only [logState, hmin, natBits, BitVec.toNat_ofNat]
  omega

/-- The address field of a trap record without addresses is 0 (20 R394). -/
theorem natBits_noAddr (r : BitVec 256) : natBits (r &&& ~~~BitVec.ofNat 256 ((2 ^ 64 - 1) * 2 ^ 128)).toNat 128 64 = 0 := by
  have hfield (x : BitVec 256) : natBits x.toNat 128 64 = (x.extractLsb' 128 64).toNat := by
    rw [BitVec.extractLsb'_toNat, Nat.shiftRight_eq_div_pow, natBits]
  have hmask : (~~~BitVec.ofNat 256 ((2 ^ 64 - 1) * 2 ^ 128)).extractLsb' 128 64 = 0 := by decide
  rw [hfield, BitVec.extractLsb'_and, hmask]
  simp

theorem noAddr_hides {log : List LogEntry} {e : LogEntry} (h : e ∈ log.map LogEntry.noAddr) :
    e.addr = 0 ∧ ∀ r, e.trec = some r → natBits r.toNat 128 64 = 0 := by
  obtain ⟨e0, -, rfl⟩ := List.mem_map.mp h
  refine ⟨rfl, fun r hr => ?_⟩
  obtain ⟨r0, -, rfl⟩ := Option.map_eq_some_iff.mp hr
  exact natBits_noAddr r0

/-- The registers of stream k stand from 40H * k on; what is past the fourth is reserved (26 R463). -/
theorem readBar_stream (d : Device) (part : Nat) {k j : Nat} (hk : k < 5) (hj : j < 0x40) :
    readBar d part (0x40 * k + j) =
      if j = 0 then BitVec.ofNat 64 ((d.part part).stream k).base else if j = 8 then BitVec.ofNat 64 ((d.part part).stream k).log2
      else if j = 16 then BitVec.ofNat 64 ((d.part part).stream k).wptr
      else if j = 24 then streamStatus d { part, idx := k } else 0 := by
  have hoff : 0x40 * k + j < 0x140 := by omega
  have hdiv : (0x40 * k + j) / 0x40 = k := by omega
  have hmod : (0x40 * k + j) % 0x40 = j := by omega
  simp only [readBar, hoff, if_true, hdiv, hmod]
  split <;> simp_all

theorem readBar_progress (d : Device) (part : Nat) {k : Nat} (hk : k < 5) :
    readBar d part (0x808 + 8 * k) =
      BitVec.ofNat 64 (((d.part part).stream k).writes * 2 ^ 32 + ((d.part part).stream k).value.toNat) := by
  have hdiv : (0x808 + 8 * k - 0x808) / 8 = k := by omega
  rw [readBar, if_neg (by omega), if_neg (by omega), if_pos (by omega), hdiv]

theorem readBar_reserved (d : Device) (part : Nat) {off : Nat}
    (h : 0x140 ≤ off ∧ off < 0x800 ∨ 0x830 ≤ off ∧ off < 0x4000 ∨ 0x10100 ≤ off) : readBar d part off = 0 := by
  rw [readBar, if_neg (by omega), if_neg (by omega), if_neg (by omega), if_neg (by omega), if_neg (by omega), if_neg (by omega)]

/-- PEND is the only field of the segment invalidate register that reads (11 R252). -/
theorem readInvalidate_pending (d : Device) (part : Nat) : readInvalidate d part = if (d.part part).inval = none then 0 else 2 := by
  rw [readInvalidate]
  cases (d.part part).inval <;> rfl

theorem registersRead : RegistersRead := by
  intro s part d p
  refine ⟨fun k hk => ⟨readBar_stream d part (j := 0) hk (by omega), readBar_stream d part (j := 8) hk (by omega),
      readBar_stream d part (j := 16) hk (by omega), readBar_progress d part hk, fun j hj hj' => ?_⟩,
    fun off h => readBar_reserved d part h, logState_fields p, readInvalidate_pending d part, rfl, rfl, rfl,
    fun _ e he => noAddr_hides he, fun off => rfl⟩
  · rw [readBar_stream d part hk hj', if_neg (by omega), if_neg (by omega), if_neg (by omega), if_neg (by omega)]

-- accesses over PCIe (11 R259, R260)

/-- An access to a home slice with no symbol error planted and the injector off leaves the device as it is. -/
theorem homeAccess_calm {d : Device} {part : Nat} (hplanted : d.mem.planted = []) (hinj : (d.part part).inj.en = false) (line : Nat) :
    homeAccess d part line = d := by
  simp [homeAccess, resolveLine, inject, hplanted, hinj]

theorem homeAccesses_calm {d : Device} {part : Nat} (hplanted : d.mem.planted = []) (hinj : (d.part part).inj.en = false) (lines : List Nat) :
    lines.foldl (fun d l => if l < 2 ^ 34 then homeAccess d part l else d) d = d := by
  induction lines with
  | nil => rfl
  | cons l lines ih => rw [List.foldl_cons, homeAccess_calm hplanted hinj, ite_self, ih]

/-- The line takes a partition's world. -/
def giveWorld (part : Nat) (d : Device) (line : Nat) : Device := setTag d line { tagOf d line with world := part }

theorem tagOf_giveWorld (part : Nat) (d : Device) (l line : Nat) :
    tagOf (giveWorld part d l) line = if l = line then { tagOf d line with world := part } else tagOf d line := by
  by_cases h : l = line
  · subst h; simp [giveWorld, setTag, tagOf]
  · simp [giveWorld, setTag, tagOf, tget_tput, h]

theorem tagOf_foldl_giveWorld (part : Nat) (lines : List Nat) (d : Device) (line : Nat) :
    tagOf (lines.foldl (giveWorld part) d) line = if line ∈ lines then { tagOf d line with world := part } else tagOf d line := by
  induction lines generalizing d with
  | nil => simp
  | cons l lines ih =>
    rw [List.foldl_cons, ih, tagOf_giveWorld]
    by_cases hl : l = line
    · simp [hl]
    · simp [hl, Ne.symm hl]

/-- Only the tags change. -/
theorem foldl_giveWorld_frame (part : Nat) (lines : List Nat) (d : Device) :
    ∃ tags, lines.foldl (giveWorld part) d = { d with mem := { d.mem with tags } } := by
  induction lines generalizing d with
  | nil => exact ⟨_, rfl⟩
  | cons l lines ih =>
    obtain ⟨tags, h⟩ := ih (giveWorld part d l)
    exact ⟨tags, h⟩

/-- The lines of an access. -/
def accessLines (addr : Nat) (data : List Byte) : List Nat := ((List.range data.length).map (fun i => lineOf (addr + i))).eraseDups

theorem mem_accessLines {addr line : Nat} {data : List Byte} :
    line ∈ accessLines addr data ↔ ∃ i, i < data.length ∧ lineOf (addr + i) = line := by
  simp [accessLines, List.mem_eraseDups]

/-- What an access of a function that nothing refuses does (11 R259, R260). -/
def ingressEffect (d : Device) (part : Nat) (write : Bool) (addr : Nat) (data : List Byte) : Device :=
  if write then (accessLines addr data).foldl (giveWorld part) (d.modMem (fun m => { m with hbm := writeBytes m.hbm addr data })) else d

theorem exec_ingress_dropped {s : State} {part : Nat} (hup : Up s) (hstate : (s.dev.part part).state = 4) (addr : Nat) (data : List Byte) :
    exec (.hostIngressAccess part true addr data) s = .next { s with dev := s.dev.modPart part Part.refuse } := by
  change execHostIngressAccess part true addr data s = _
  rw [execHostIngressAccess, hostStep_up _ hup]
  simp [hstate]

section
variable {s : State} {part : Nat} (hup : Up s) (hsound : Sound s part) (hstate : (s.dev.part part).state ≠ 4)
include hup hsound hstate

theorem exec_ingress_allowed (write : Bool) {addr : Nat} {data : List Byte}
    (h : ∀ i, i < data.length → ingressCause s.dev part (addr + i) = none) :
    exec (.hostIngressAccess part write addr data) s = .next { s with dev := ingressEffect s.dev part write addr data } := by
  have hfind : (List.range data.length).find? (fun i => (ingressCause s.dev part (addr + i)).isSome) = none := by
    simpa using h
  change execHostIngressAccess part write addr data s = _
  rw [execHostIngressAccess, hostStep_up _ hup]
  simp only [beq_eq_false_iff_ne.mpr hstate, Bool.and_false, Bool.false_eq_true, if_false]
  rw [homeAccesses_calm hsound.1 hsound.2, hfind]
  rfl

theorem exec_ingress_refused (write : Bool) {addr i c : Nat} {data : List Byte} (hi : i < data.length)
    (hc : ingressCause s.dev part (addr + i) = some c) (hfirst : ∀ k, k < i → ingressCause s.dev part (addr + k) = none) :
    exec (.hostIngressAccess part write addr data) s = .next { s with
      dev := logPlain s.dev part (plainEntry c (addr + i) part srcIngress (homeDie (addr + i) % 16) none 0 true) } := by
  have hfind : (List.range data.length).find? (fun i => (ingressCause s.dev part (addr + i)).isSome) = some i := by
    rw [List.find?_range_eq_some]
    exact ⟨by simp [hc], List.mem_range.mpr hi, fun k hk => by simp [hfirst k hk]⟩
  change execHostIngressAccess part write addr data s = _
  rw [execHostIngressAccess, hostStep_up _ hup]
  simp only [beq_eq_false_iff_ne.mpr hstate, Bool.and_false, Bool.false_eq_true, if_false]
  rw [homeAccesses_calm hsound.1 hsound.2, hfind]
  dsimp only
  rw [hc]
  rfl

end

/-- The bytes of a memory after a write of bytes from an address on. -/
theorem readByte_writeBytes_range (m : List Host.Cell) (addr : Nat) (data : List Byte) (a : Nat) :
    readByte (writeBytes m addr data) a = if addr ≤ a ∧ a < addr + data.length then data.getD (a - addr) 0 else readByte m a := by
  split
  · rename_i h
    obtain ⟨k, rfl⟩ := Nat.exists_eq_add_of_le h.1
    have hk : k < data.length := by omega
    rw [readByte_writeBytes _ _ _ _ hk, Nat.add_sub_cancel_left, List.getD_eq_getElem?_getD, List.getElem?_eq_getElem hk, Option.getD_some]
  · exact readByte_writeBytes_other _ _ _ _ (by omega)

/-- An allowed write stores its bytes, gives its lines the function's world, and changes nothing else (11 R260). -/
theorem ingressEffect_write (d : Device) (part addr : Nat) (data : List Byte) :
    let t := ingressEffect d part true addr data
    t = { d with mem := t.mem } ∧ t.mem = { d.mem with hbm := t.mem.hbm, tags := t.mem.tags } ∧
      (∀ a, readByte t.mem.hbm a = if addr ≤ a ∧ a < addr + data.length then data.getD (a - addr) 0 else readByte d.mem.hbm a) ∧
      ∀ line, tagOf t line = if ∃ i, i < data.length ∧ lineOf (addr + i) = line then { tagOf d line with world := part } else tagOf d line := by
  intro t
  obtain ⟨tags, ht⟩ := foldl_giveWorld_frame part (accessLines addr data) (d.modMem (fun m => { m with hbm := writeBytes m.hbm addr data }))
  have heq : t = _ := ht
  refine ⟨by rw [heq]; rfl, by rw [heq]; rfl, fun a => ?_, fun line => ?_⟩
  · rw [heq]
    exact readByte_writeBytes_range _ _ _ _
  · have htag := tagOf_foldl_giveWorld part (accessLines addr data) (d.modMem (fun m => { m with hbm := writeBytes m.hbm addr data })) line
    simp only [mem_accessLines] at htag
    exact htag

-- keys, measurements and debuggers

/-- The blocks of a measurement answer: the state of the partition between blocks of free words (26 R467; log entry 6). -/
theorem measurement_blocks (d : Device) (part : Nat) :
    let p := d.part part
    ∃ a0 a1 a5 a6,
      measurement d part =
        [a0, a1,
          [BitVec.ofNat 64 (p.dies.toNat * 2 ^ 48 + p.state * 2 ^ 44 + p.test.toNat * 2 ^ 43 + p.conf.toNat * 2 ^ 42 + p.prot.toNat * 2 ^ 41)],
          p.meas.locked.getD [0, 0, 0, 0, 0, 0], [BitVec.ofNat 64 p.meas.turnovers, if p.meas.health then 1 else 0], a5, a6] ∧
        a0.length = 6 ∧ a1.length = 6 ∧ a5.length = 8 ∧ a6.length = 414 := by
  intro p
  have hhealth : BitVec.ofNat 64 p.meas.health.toNat = if p.meas.health then 1 else 0 := by cases p.meas.health <;> rfl
  refine ⟨_, _, _, _, by rw [← hhealth]; rfl, ?_⟩
  simp

theorem hostServicesComplete : HostServicesComplete := by
  intro s part hup p
  have debugger (attach : Bool) (h : (attach && p.conf) = false) :
      PartBecomes (.debuggerAttach part attach) s part { p with debugger := attach } := by
    have hexec := exec_debuggerAttach hup part attach
    rw [if_neg (ne_true_of_eq_false h)] at hexec
    exact partBecomes_of_modPart hexec
  refine ⟨fun slot key => ⟨fun hl hs => ?_, fun h => ?_⟩, fun hp => ?_, fun hp => ?_, fun addr data hs => ?_,
    fun addr data hsound hs => ⟨fun hc => ⟨?_, exec_ingress_allowed hup hsound hs false hc⟩, fun i c write hi hc hfirst => ?_⟩,
    fun hc => ?_, fun hc => debugger true hc, debugger false rfl⟩
  · have hexec := exec_keySlotProvision hup part slot key
    rw [if_pos (by simp [(tdiLocked_iff _).mpr hl, hs])] at hexec
    exact partBecomes_of_modPart hexec
  · rw [exec_keySlotProvision hup, if_neg]
    rw [Bool.and_eq_true, tdiLocked_iff, decide_eq_true_eq]
    exact fun ⟨hl, hs⟩ => h.elim (· hl) (Nat.not_le.mpr hs)
  · rw [exec_getMeasurements hup, if_neg (Nat.not_le.mpr hp)]
  · have hexec := exec_getMeasurements hup part
    rw [if_pos hp] at hexec
    obtain ⟨a0, a1, a5, a6, hblocks, hlengths⟩ := measurement_blocks s.dev part
    refine ⟨_, a0, a1, a5, a6, hexec, rfl, rfl, fun k hk => Device.part_modPart_other _ _ _ _ hk.symm, ?_, ?_, hlengths⟩
    · simp only [Device.part_modPart_same]
      rfl
    · rw [Device.part_modPart_same]
      exact hblocks
  · exact partBecomes_of_modPart (exec_ingress_dropped hup hs addr data)
  · obtain ⟨hdev, hmem, hbytes, htags⟩ := ingressEffect_write s.dev part addr data
    exact ⟨_, exec_ingress_allowed hup hsound hs true hc, rfl, hdev, hmem, hbytes, htags⟩
  · exact ⟨_, exec_ingress_refused hup hsound hs write hi hc hfirst, rfl, logPlain_mem _ _ _, logged_logPlain _ _ _⟩
  · rw [exec_debuggerAttach hup, if_pos (by simpa using hc)]

/-- Settles O55: the writes of the registers, their reads, and the host's other services are each a claim proved above. -/
theorem hostReachesTheModule : Obligations.HostReachesTheModule := ⟨registersTakeWrites, registersRead, hostServicesComplete⟩

end Sys2Proof.Proofs
end
